-- ==== Sys2Proof/Word.lean ====
section
/-! DEFINITION. The word types of the machine and a sparse table type. Operations on them stand in
Sys2Proof/Machine/Bits.lean and Sys2Proof/Machine/Tab.lean. -/

namespace Sys2Proof

/-- A byte of memory. -/
abbrev Byte := BitVec 8

/-- A 64-bit scalar, the width of the A-stream (R46). -/
abbrev W64 := BitVec 64

/-- An instruction word (R209). -/
abbrev Word32 := BitVec 32

/-- A program counter or virtual address, 48 bits (R116, R209). -/
abbrev Addr := BitVec 48

/-- A vector register: VLEN = 32 x L bits with L at most 32 (R97); a hart of fewer lanes uses the low bits. -/
abbrev VReg := BitVec 1024

/-- A mask register, 2,048 bits (R101). -/
abbrev MaskReg := BitVec 2048

/-- A register code of an instruction word (R213). -/
abbrev RCode := BitVec 7

/-- A sparse table: (key, value) pairs, keys strictly rising; an unlisted key has the reader's default. -/
abbrev Tab (α : Type) := List (Nat × α)

end Sys2Proof
end

