-- ==== Sys2Proof/Config.lean ====
section
/-! DEFINITION. What the spec leaves open for a machine of this family: free values, as constants without a
body, so that no proof can learn their value. What the build record fixes stands in the state (R24). -/

namespace Sys2Proof

/-- Which entry a full translation cache gives up (R133 names replacement and no rule for it); the arguments
are the cache's number and the free counter of the state. DESIGN CHOICE: a free value (log 8). -/
opaque Config.tlbVictim : Nat → Nat → Nat

/-- Caerveys's root key in the boot ROM, a point of the curve of R411: x and y. DESIGN CHOICE: a free value (log 9). -/
opaque Config.rootKey : Nat × Nat

/-- The bytes of an SPDM answer (R413), whose form the SPDM standard and the device keys fix: version, request code, index,
and the contents of the measurement that R413 lists under the index. DESIGN CHOICE: a free value (log 9). -/
opaque Config.spdmAnswer : Nat → Nat → Nat → List Byte → List Byte

/-- The contents of the boot ROM, which a measurement covers (R413). DESIGN CHOICE: a free value (log 9). -/
opaque Config.bootRom : List Byte

/-- Snapshot words about matters below this model's grain (R415): the free credits of a link's channels 0 to 6; arguments block,
word, free counter.
DESIGN CHOICE: a free value (log 10). -/
opaque Config.snapWord : Nat → Nat → Nat → W64

/-- A value the spec leaves open at a point where the machine goes on (R12, R139, R394): the argument is the free
counter of the state, so that each use has a value of its own. DESIGN CHOICE: a free value (log 17). -/
opaque Config.freeWord : Nat → W64

/-- The line size of a bay's L1 data cache, which no rule gives (R124): 8 bytes times 2 to this number modulo 6. DESIGN CHOICE:
a free value (log 81). -/
opaque Config.l1Line : Nat

end Sys2Proof
end

