-- ==== Sys2Proof/Syntax.lean ====
section
/-! DEFINITION. The instruction and event rows of spec/opcode_table.json, one constructor per row.
A row with a word keeps the fields the row gives, each a bit vector of the field's own width; register,
mask and literal codes stay raw codes, because one code names different files in the two streams (R213).
A row without a word is an event or a command step of the device (spec/95): it has no fields here, and
what it concerns (which hart, queue slot, engine, or which values from outside) stands in State.ev, which
a step fills from the agenda. Rows with fields stand first, then words without fields, then events. -/

namespace Sys2Proof

/-- One instruction word's meaning, or one event of the device (308 rows). -/
inductive Instr where
  /-- ADD (R229): Sets field a to the 64-bit wrapping sum of B and C. -/
  | add (a : BitVec 7) (b : BitVec 7) (c : BitVec 7)
  /-- SUB (R229): Sets field a to B minus C, wrapping. -/
  | sub (a : BitVec 7) (b : BitVec 7) (c : BitVec 7)
  /-- AND (R229): Sets field a to the bitwise AND of B and C. -/
  | and (a : BitVec 7) (b : BitVec 7) (c : BitVec 7)
  /-- OR (R229): Sets field a to the bitwise OR of B and C. -/
  | or (a : BitVec 7) (b : BitVec 7) (c : BitVec 7)
  /-- XOR (R229): Sets field a to the bitwise XOR of B and C. -/
  | xor (a : BitVec 7) (b : BitVec 7) (c : BitVec 7)
  /-- ANDN (R229): Sets field a to B AND NOT C. -/
  | andn (a : BitVec 7) (b : BitVec 7) (c : BitVec 7)
  /-- ORN (R229): Sets field a to B OR NOT C. -/
  | orn (a : BitVec 7) (b : BitVec 7) (c : BitVec 7)
  /-- XNOR (R229): Sets field a to NOT (B XOR C). -/
  | xnor (a : BitVec 7) (b : BitVec 7) (c : BitVec 7)
  /-- SLL (R229): Shifts B left by C[5:0], filling with zeros. -/
  | sll (a : BitVec 7) (b : BitVec 7) (c : BitVec 7)
  /-- SRL (R229): Shifts B right by C[5:0], filling with zeros. -/
  | srl (a : BitVec 7) (b : BitVec 7) (c : BitVec 7)
  /-- SRA (R229): Shifts B right by C[5:0], filling with copies of bit 63. -/
  | sra (a : BitVec 7) (b : BitVec 7) (c : BitVec 7)
  /-- ROL (R229): Rotates B left by C[5:0]. -/
  | rol (a : BitVec 7) (b : BitVec 7) (c : BitVec 7)
  /-- ROR (R229): Rotates B right by C[5:0]. -/
  | ror (a : BitVec 7) (b : BitVec 7) (c : BitVec 7)
  /-- SLT (R229): Sets field a to 1 if B < C signed, else 0. -/
  | slt (a : BitVec 7) (b : BitVec 7) (c : BitVec 7)
  /-- SLTU (R229): Sets field a to 1 if B < C unsigned, else 0. -/
  | sltu (a : BitVec 7) (b : BitVec 7) (c : BitVec 7)
  /-- MIN (R229): Sets field a to the signed minimum of B and C. -/
  | min (a : BitVec 7) (b : BitVec 7) (c : BitVec 7)
  /-- MAX (R229): Sets field a to the signed maximum of B and C. -/
  | max (a : BitVec 7) (b : BitVec 7) (c : BitVec 7)
  /-- MINU (R229): Sets field a to the unsigned minimum of B and C. -/
  | minu (a : BitVec 7) (b : BitVec 7) (c : BitVec 7)
  /-- MAXU (R229): Sets field a to the unsigned maximum of B and C. -/
  | maxu (a : BitVec 7) (b : BitVec 7) (c : BitVec 7)
  /-- MUL (R229): Sets field a to bits [63:0] of B times C. -/
  | mul (a : BitVec 7) (b : BitVec 7) (c : BitVec 7)
  /-- MULH (R229): Sets field a to the upper 64 bits of the signed product of B and C. -/
  | mulh (a : BitVec 7) (b : BitVec 7) (c : BitVec 7)
  /-- MULHU (R229): Sets field a to the upper 64 bits of the unsigned product of B and C. -/
  | mulhu (a : BitVec 7) (b : BitVec 7) (c : BitVec 7)
  /-- DIV (R229): Sets field a to the signed quotient of B by C, with the edge cases of R70. -/
  | div (a : BitVec 7) (b : BitVec 7) (c : BitVec 7)
  /-- DIVU (R229): Sets field a to the unsigned quotient of B by C. -/
  | divu (a : BitVec 7) (b : BitVec 7) (c : BitVec 7)
  /-- REM (R229): Sets field a to the signed remainder of B by C. -/
  | rem (a : BitVec 7) (b : BitVec 7) (c : BitVec 7)
  /-- REMU (R229): Sets field a to the unsigned remainder of B by C. -/
  | remu (a : BitVec 7) (b : BitVec 7) (c : BitVec 7)
  /-- CLZ (R229): Sets field a to the count of leading zeros of B. -/
  | clz (a : BitVec 7) (b : BitVec 7)
  /-- CTZ (R229): Sets field a to the count of trailing zeros of B. -/
  | ctz (a : BitVec 7) (b : BitVec 7)
  /-- POPC (R229): Sets field a to the count of set bits of B. -/
  | popc (a : BitVec 7) (b : BitVec 7)
  /-- CLMUL (R230): Sets field a to bits [63:0] of the carry-less product of B and C. -/
  | clmul (a : BitVec 7) (b : BitVec 7) (c : BitVec 7)
  /-- CLMULH (R230): Sets field a to bits [127:64] of the carry-less product of B and C. -/
  | clmulh (a : BitVec 7) (b : BitVec 7) (c : BitVec 7)
  /-- ADDI (R231): Sets field a to B plus the sign-extended imm12. -/
  | addi (a : BitVec 7) (b : BitVec 7) (i : BitVec 12)
  /-- ANDI (R231): Sets field a to B AND the sign-extended imm12. -/
  | andi (a : BitVec 7) (b : BitVec 7) (i : BitVec 12)
  /-- ORI (R231): Sets field a to B OR the sign-extended imm12. -/
  | ori (a : BitVec 7) (b : BitVec 7) (i : BitVec 12)
  /-- XORI (R231): Sets field a to B XOR the sign-extended imm12. -/
  | xori (a : BitVec 7) (b : BitVec 7) (i : BitVec 12)
  /-- SLTI (R231): Sets field a to 1 if B is below the immediate, signed. -/
  | slti (a : BitVec 7) (b : BitVec 7) (i : BitVec 12)
  /-- SLTIU (R231): Sets field a to 1 if B is below the sign-extended immediate, unsigned. -/
  | sltiu (a : BitVec 7) (b : BitVec 7) (i : BitVec 12)
  /-- SLLI (R232): Shifts B left by an immediate amount. -/
  | slli (a : BitVec 7) (b : BitVec 7) (n : BitVec 6)
  /-- SRLI (R232): Shifts B right with zeros by an immediate amount. -/
  | srli (a : BitVec 7) (b : BitVec 7) (n : BitVec 6)
  /-- SRAI (R232): Shifts B right arithmetically by an immediate amount. -/
  | srai (a : BitVec 7) (b : BitVec 7) (n : BitVec 6)
  /-- ROLI (R232): Rotates B left by an immediate amount. -/
  | roli (a : BitVec 7) (b : BitVec 7) (n : BitVec 6)
  /-- RORI (R232): Rotates B right by an immediate amount. -/
  | rori (a : BitVec 7) (b : BitVec 7) (n : BitVec 6)
  /-- LIH (R233): Sets field a to the sign-extended imm19 times 2^13. -/
  | lih (a : BitVec 7) (i : BitVec 19)
  /-- LD_B (R235): Loads a sign-extended byte. -/
  | ldB (a : BitVec 7) (b : BitVec 7) (o : BitVec 9)
  /-- LD_BU (R235): Loads a zero-extended byte. -/
  | ldBu (a : BitVec 7) (b : BitVec 7) (o : BitVec 9)
  /-- LD_H (R235): Loads a sign-extended halfword. -/
  | ldH (a : BitVec 7) (b : BitVec 7) (o : BitVec 9)
  /-- LD_HU (R235): Loads a zero-extended halfword. -/
  | ldHu (a : BitVec 7) (b : BitVec 7) (o : BitVec 9)
  /-- LD_W (R235): Loads a sign-extended word. -/
  | ldW (a : BitVec 7) (b : BitVec 7) (o : BitVec 9)
  /-- LD_WU (R235): Loads a zero-extended word. -/
  | ldWu (a : BitVec 7) (b : BitVec 7) (o : BitVec 9)
  /-- LD_D (R235): Loads a dword. -/
  | ldD (a : BitVec 7) (b : BitVec 7) (o : BitVec 9)
  /-- ST_B (R235): Stores the low byte of A. -/
  | stB (a : BitVec 7) (b : BitVec 7) (o : BitVec 9)
  /-- ST_H (R235): Stores the low halfword of A. -/
  | stH (a : BitVec 7) (b : BitVec 7) (o : BitVec 9)
  /-- ST_W (R235): Stores the low word of A. -/
  | stW (a : BitVec 7) (b : BitVec 7) (o : BitVec 9)
  /-- ST_D (R235): Stores the dword A. -/
  | stD (a : BitVec 7) (b : BitVec 7) (o : BitVec 9)
  /-- AMO_SWAP (R237): Atomically swaps the dword at B with C, optionally with release and acquire (.AR in bit r). -/
  | amoSwap (a : BitVec 7) (b : BitVec 7) (c : BitVec 7) (r : BitVec 1)
  /-- AMO_ADD (R237): Atomically adds C to the dword at B and returns the old value. -/
  | amoAdd (a : BitVec 7) (b : BitVec 7) (c : BitVec 7) (r : BitVec 1)
  /-- AMO_AND (R237): Atomically ANDs C into the dword at B. -/
  | amoAnd (a : BitVec 7) (b : BitVec 7) (c : BitVec 7) (r : BitVec 1)
  /-- AMO_OR (R237): Atomically ORs C into the dword at B. -/
  | amoOr (a : BitVec 7) (b : BitVec 7) (c : BitVec 7) (r : BitVec 1)
  /-- AMO_XOR (R237): Atomically XORs C into the dword at B. -/
  | amoXor (a : BitVec 7) (b : BitVec 7) (c : BitVec 7) (r : BitVec 1)
  /-- AMO_MIN (R237): Atomically stores the signed minimum of the dword at B and C. -/
  | amoMin (a : BitVec 7) (b : BitVec 7) (c : BitVec 7) (r : BitVec 1)
  /-- AMO_MAX (R237): Atomically stores the signed maximum of the dword at B and C. -/
  | amoMax (a : BitVec 7) (b : BitVec 7) (c : BitVec 7) (r : BitVec 1)
  /-- AMO_MINU (R237): Atomically stores the unsigned minimum of the dword at B and C. -/
  | amoMinu (a : BitVec 7) (b : BitVec 7) (c : BitVec 7) (r : BitVec 1)
  /-- AMO_MAXU (R237): Atomically stores the unsigned maximum of the dword at B and C. -/
  | amoMaxu (a : BitVec 7) (b : BitVec 7) (c : BitVec 7) (r : BitVec 1)
  /-- AMO_CAS (R237): Atomically writes C to the dword at B if it equals the old value of field a. -/
  | amoCas (a : BitVec 7) (b : BitVec 7) (c : BitVec 7) (r : BitVec 1)
  /-- BEQ (R239): Branches when B equals C, popping any named ports. -/
  | beq (b : BitVec 7) (c : BitVec 7) (o : BitVec 9)
  /-- BNE (R239): Branches when B differs from C. -/
  | bne (b : BitVec 7) (c : BitVec 7) (o : BitVec 9)
  /-- BLT (R239): Branches when B < C signed. -/
  | blt (b : BitVec 7) (c : BitVec 7) (o : BitVec 9)
  /-- BGE (R239): Branches when B >= C signed. -/
  | bge (b : BitVec 7) (c : BitVec 7) (o : BitVec 9)
  /-- BLTU (R239): Branches when B < C unsigned. -/
  | bltu (b : BitVec 7) (c : BitVec 7) (o : BitVec 9)
  /-- BGEU (R239): Branches when B >= C unsigned. -/
  | bgeu (b : BitVec 7) (c : BitVec 7) (o : BitVec 9)
  /-- J (R240): Jumps by off19 words, linking PC+4 into field a in the A-stream. -/
  | j (a : BitVec 7) (o : BitVec 19)
  /-- JR (R241): Jumps to B plus imm12, linking PC+4 into field a, trapping ALIGN on a misaligned target. -/
  | jr (a : BitVec 7) (b : BitVec 7) (i : BitVec 12)
  /-- CSRRD (R242): Reads a CSR into field a, with rc clearing and rl actions. -/
  | csrrd (a : BitVec 7) (n : BitVec 10)
  /-- CSRWR (R242): Writes B to a CSR field by field as kinds allow; the row for writes to registers with no row of their own. -/
  | csrwr (b : BitVec 7) (n : BitVec 10)
  /-- CSRSET (R242): Atomically ORs B into a CSR. -/
  | csrset (b : BitVec 7) (n : BitVec 10)
  /-- CSRCLR (R242): Atomically clears the bits of B in a CSR. -/
  | csrclr (b : BitVec 7) (n : BitVec 10)
  /-- CPLAUNCH (R323): A read of CPLAUNCH captures the copy shadows, checks them, takes a slot and starts a copy transfer or refuses. -/
  | cplaunch (a : BitVec 7)
  /-- FEATACK (R414): The first write to FEATACK after reset sets the accepted feature set to the value AND FEATCAP; later writes are ignored. -/
  | featack (b : BitVec 7)
  /-- FENCE_SV (R244): Pairs with the other stream's fence and orders A-stream accesses before E-stream accesses at the scope. -/
  | fenceSv (s : BitVec 3)
  /-- FENCE_VS (R244): Pairs with the other stream's fence and orders E-stream accesses before A-stream accesses at the scope. -/
  | fenceVs (s : BitVec 3)
  /-- FENCE_VV (R245): Orders the E-stream's own vector accesses at the scope without pairing. -/
  | fenceVv (s : BitVec 3)
  /-- FENCE_ALL (R244): Pairs and orders both directions, or on a plate core orders its own accesses. -/
  | fenceAll (s : BitVec 3)
  /-- POST (R251): Writes B to the node's result word with release at PKG. -/
  | post (b : BitVec 7)
  /-- KILLCK (R264): Makes the kill test of key B against ridge C and ends the step KILLED when it kills. -/
  | killck (b : BitVec 7) (c : BitVec 7)
  /-- SCOPEOF (R253): Sets field a to the level code of the lowest scope enclosing agents B and C. -/
  | scopeof (a : BitVec 7) (b : BitVec 7) (c : BitVec 7)
  /-- SETSCOPE (R254): Sets ASCOPE and ESCOPE from B in one write. -/
  | setscope (b : BitVec 7)
  /-- GLAUNCH (R256): Launches a graph instance from graph B into instance area C and writes its status to field a. -/
  | glaunch (a : BitVec 7) (b : BitVec 7) (c : BitVec 7)
  /-- CPWAIT (R320): Waits for the chunks of mask C of transfer B, covers them and acquires at PKG, trapping CPERR on failure. -/
  | cpwait (b : BitVec 7) (c : BitVec 7)
  /-- CPTEST (R321): Returns a transfer's chunk bitmap or status word without waiting. -/
  | cptest (a : BitVec 7) (b : BitVec 7) (s : BitVec 7)
  /-- CPCANCEL (R322): Stops a transfer; chunks not started never start and it ends CANCELLED. -/
  | cpcancel (b : BitVec 7)
  /-- BGATHER (R326): Copies listed tiles of tensor T into consecutive scratch slots as a transfer. -/
  | bgather (a : BitVec 7) (b : BitVec 7) (t : BitVec 7)
  /-- REMQ (R333): Sends a 64-byte record to a queue handle after taking a credit. -/
  | remq (b : BitVec 7) (c : BitVec 7)
  /-- REMQA (R333): Sends a record to a handle and waits for the destination's write or drop status. -/
  | remqa (a : BitVec 7) (b : BitVec 7) (c : BitVec 7)
  /-- PPUSH (R333): Pushes a record into the region's pool at the pushing truss's shard, with an optional kill test. -/
  | ppush (a : BitVec 7) (b : BitVec 7)
  /-- SLD (R328): Stream-loads a register image from B into an AE queue. -/
  | sld (a : BitVec 7) (b : BitVec 7)
  /-- SLDS (R328): Stream-loads a strided register image of words into an AE queue. -/
  | slds (a : BitVec 7) (b : BitVec 7) (c : BitVec 7)
  /-- SLDZ (R328): Stream-loads a register image decoded from a compressed region into an AE queue. -/
  | sldz (a : BitVec 7) (b : BitVec 7) (c : BitVec 7)
  /-- BINIT (R329): Initialises a stage barrier's count, phase and pending balance. -/
  | binit (b : BitVec 7) (c : BitVec 7)
  /-- BEXPECT (R329): Adds an expected byte count to a barrier's PENDING and applies the flip test. -/
  | bexpect (b : BitVec 7) (c : BitVec 7)
  /-- BARRIVE (R329): Releases at TRUSS, decrements LEFT and applies the flip test. -/
  | barrive (b : BitVec 7)
  /-- BWAIT (R329): Waits until the barrier's PHASE differs from the given parity, then acquires at TRUSS. -/
  | bwait (b : BitVec 7) (c : BitVec 7)
  /-- BTEST (R329): Reads a barrier's phase dword with acquire at TRUSS without waiting. -/
  | btest (a : BitVec 7) (b : BitVec 7)
  /-- RROT (R330): Truss ring rotation: each hart receives the value of the hart at its chosen distance once all eight arrive. -/
  | rrot (a : BitVec 7) (b : BitVec 7) (c : BitVec 7)
  /-- SMV (R334): Launches a sill matrix-vector product on a sill-layout tensor as a transfer. -/
  | smv (a : BitVec 7) (t : BitVec 7) (c : BitVec 7)
  /-- SSUB (R335): Subscribes a stage ring to the tiles of a tensor as a sill transfer. -/
  | ssub (a : BitVec 7) (t : BitVec 7) (c : BitVec 7)
  /-- SPULL (R336): Queues a sill scan that writes FINISHED slots back into a dense tensor. -/
  | spull (b : BitVec 7) (t : BitVec 7)
  /-- SSTOP (R337): Queues the end of a stage-ring subscription. -/
  | sstop (b : BitVec 7)
  /-- TDSET (R338): Replaces a TDT entry from a 128-byte image, bumps GEN and clears ELIDED. -/
  | tdset (t : BitVec 7) (b : BitVec 7)
  /-- TDGET (R340): Returns one dword of a TDT entry as the bay's cache holds it. -/
  | tdget (a : BitVec 7) (t : BitVec 7) (c : BitVec 7)
  /-- TDSYNC (R339): Releases at a scope and makes every bay in that scope drop its cached copy of an entry. -/
  | tdsync (t : BitVec 7) (s : BitVec 7)
  /-- TDCHK (R340): Returns GEN, flags and what a use of the entry would do. -/
  | tdchk (a : BitVec 7) (t : BitVec 7)
  /-- RIRD (R259): Reads a ridge's KEY with acquire at the ridge's scope. -/
  | rird (a : BitVec 7) (b : BitVec 7)
  /-- RITAG (R259): Reads a ridge's TAG with acquire at the ridge's scope. -/
  | ritag (a : BitVec 7) (b : BitVec 7)
  /-- RIMIN (R260): Releases and lowers a MIN ridge to (B, C) when better, forwarding for pod ridges. -/
  | rimin (a : BitVec 7) (b : BitVec 7) (c : BitVec 7)
  /-- RIMAX (R260): Releases and raises a MAX ridge to (B, C) when better. -/
  | rimax (a : BitVec 7) (b : BitVec 7) (c : BitVec 7)
  /-- RIRESET (R261): Resets a ridge's key, tag, direction and width and waits until every copy holds it. -/
  | rireset (a : BitVec 7) (b : BitVec 7) (c : BitVec 7)
  /-- QMAP (R341): Binds a FREE hardware slot to a valid QCB, leaving it STOPPED. -/
  | qmap (a : BitVec 7) (b : BitVec 7) (c : BitVec 7)
  /-- QUNMAP (R341): Unbinds a STOPPED slot and frees it. -/
  | qunmap (a : BitVec 7) (b : BitVec 7)
  /-- QSAVE (R341): Stops a RUNNING slot's reads and writes RIDX and DONEIDX to the QCB. -/
  | qsave (a : BitVec 7) (b : BitVec 7)
  /-- QLOAD (R341): Loads indices from the QCB and starts a STOPPED slot's walk. -/
  | qload (a : BitVec 7) (b : BitVec 7)
  /-- TLBIR (R343): Sends an invalidation of an ASID's range to every TLB in the package. -/
  | tlbir (b : BitVec 7) (c : BitVec 7)
  /-- VTTSET (R345): Writes a VTT entry in memory and every resident copy, draining accesses through the old entry. -/
  | vttset (a : BitVec 7) (b : BitVec 7) (c : BitVec 7)
  /-- PRESET (R346): Resets and prepares replay of the fault domain at an RCB. -/
  | preset (a : BitVec 7) (b : BitVec 7)
  /-- PRESUME (R347): Announces a range present, readying parked steps and retrying paused chunks and held commands. -/
  | presume (b : BitVec 7) (c : BitVec 7)
  /-- KICKCLR (R342): Clears bits of one dword of a region's kick bitmap atomically with kicks. -/
  | kickclr (b : BitVec 7) (c : BitVec 7)
  /-- VSETVL (R273): Sets VTYPE and VL from a requested length, format and group. -/
  | vsetvl (a : BitVec 7) (b : BitVec 7) (g : BitVec 2) (t : BitVec 4)
  /-- VADD (R275): Element-wise wrapping integer add. -/
  | vadd (a : BitVec 7) (b : BitVec 7) (c : BitVec 7) (m : BitVec 2)
  /-- VSUB (R275): Element-wise wrapping integer subtract. -/
  | vsub (a : BitVec 7) (b : BitVec 7) (c : BitVec 7) (m : BitVec 2)
  /-- VMUL (R275): Element-wise low product. -/
  | vmul (a : BitVec 7) (b : BitVec 7) (c : BitVec 7) (m : BitVec 2)
  /-- VMULH (R275): Element-wise high product. -/
  | vmulh (a : BitVec 7) (b : BitVec 7) (c : BitVec 7) (m : BitVec 2)
  /-- VAND (R275): Element-wise AND. -/
  | vand (a : BitVec 7) (b : BitVec 7) (c : BitVec 7) (m : BitVec 2)
  /-- VOR (R275): Element-wise OR. -/
  | vor (a : BitVec 7) (b : BitVec 7) (c : BitVec 7) (m : BitVec 2)
  /-- VXOR (R275): Element-wise XOR. -/
  | vxor (a : BitVec 7) (b : BitVec 7) (c : BitVec 7) (m : BitVec 2)
  /-- VSLL (R275): Element-wise left shift. -/
  | vsll (a : BitVec 7) (b : BitVec 7) (c : BitVec 7) (m : BitVec 2)
  /-- VSRL (R275): Element-wise logical right shift. -/
  | vsrl (a : BitVec 7) (b : BitVec 7) (c : BitVec 7) (m : BitVec 2)
  /-- VSRA (R275): Element-wise arithmetic right shift. -/
  | vsra (a : BitVec 7) (b : BitVec 7) (c : BitVec 7) (m : BitVec 2)
  /-- VMIN (R275): Element-wise signed minimum. -/
  | vmin (a : BitVec 7) (b : BitVec 7) (c : BitVec 7) (m : BitVec 2)
  /-- VMAX (R275): Element-wise signed maximum. -/
  | vmax (a : BitVec 7) (b : BitVec 7) (c : BitVec 7) (m : BitVec 2)
  /-- VMINU (R275): Element-wise unsigned minimum. -/
  | vminu (a : BitVec 7) (b : BitVec 7) (c : BitVec 7) (m : BitVec 2)
  /-- VMAXU (R275): Element-wise unsigned maximum. -/
  | vmaxu (a : BitVec 7) (b : BitVec 7) (c : BitVec 7) (m : BitVec 2)
  /-- VSADD (R275): Element-wise saturating add. -/
  | vsadd (a : BitVec 7) (b : BitVec 7) (c : BitVec 7) (m : BitVec 2)
  /-- VSSUB (R275): Element-wise saturating subtract. -/
  | vssub (a : BitVec 7) (b : BitVec 7) (c : BitVec 7) (m : BitVec 2)
  /-- VFADD (R276): Element-wise floating add rounded with FRM. -/
  | vfadd (a : BitVec 7) (b : BitVec 7) (c : BitVec 7) (m : BitVec 2)
  /-- VFSUB (R276): Element-wise floating subtract. -/
  | vfsub (a : BitVec 7) (b : BitVec 7) (c : BitVec 7) (m : BitVec 2)
  /-- VFMUL (R276): Element-wise floating multiply. -/
  | vfmul (a : BitVec 7) (b : BitVec 7) (c : BitVec 7) (m : BitVec 2)
  /-- VFDIV (R276): Element-wise floating divide. -/
  | vfdiv (a : BitVec 7) (b : BitVec 7) (c : BitVec 7) (m : BitVec 2)
  /-- VFMIN (R276): Element-wise minimumNumber. -/
  | vfmin (a : BitVec 7) (b : BitVec 7) (c : BitVec 7) (m : BitVec 2)
  /-- VFMAX (R276): Element-wise maximumNumber. -/
  | vfmax (a : BitVec 7) (b : BitVec 7) (c : BitVec 7) (m : BitVec 2)
  /-- VFSQRT (R276): Element-wise square root. -/
  | vfsqrt (a : BitVec 7) (b : BitVec 7) (m : BitVec 2)
  /-- VFSGN (R276): Element-wise sign injection. -/
  | vfsgn (a : BitVec 7) (b : BitVec 7) (c : BitVec 7) (m : BitVec 2)
  /-- VFMA (R277): Fused multiply-add into the accumulator. -/
  | vfma (a : BitVec 7) (b : BitVec 7) (c : BitVec 7) (m : BitVec 2)
  /-- VFMS (R277): Fused multiply minus accumulator. -/
  | vfms (a : BitVec 7) (b : BitVec 7) (c : BitVec 7) (m : BitVec 2)
  /-- VFNMA (R277): Negated fused multiply minus accumulator. -/
  | vfnma (a : BitVec 7) (b : BitVec 7) (c : BitVec 7) (m : BitVec 2)
  /-- VFNMS (R277): Negated product plus accumulator. -/
  | vfnms (a : BitVec 7) (b : BitVec 7) (c : BitVec 7) (m : BitVec 2)
  /-- VFMAW (R277): Widening FP16/BF16 fused multiply-add into an FP32 accumulator group. -/
  | vfmaw (a : BitVec 7) (b : BitVec 7) (c : BitVec 7) (m : BitVec 2)
  /-- VCVT_RNE (R278): Converts elements to a target format rounding to nearest even. -/
  | vcvtRne (a : BitVec 7) (b : BitVec 7) (t : BitVec 4) (m : BitVec 2)
  /-- VCVT_RTZ (R278): Converts elements rounding toward zero. -/
  | vcvtRtz (a : BitVec 7) (b : BitVec 7) (t : BitVec 4) (m : BitVec 2)
  /-- VCVT_RDN (R278): Converts elements rounding down. -/
  | vcvtRdn (a : BitVec 7) (b : BitVec 7) (t : BitVec 4) (m : BitVec 2)
  /-- VCVT_RUP (R278): Converts elements rounding up. -/
  | vcvtRup (a : BitVec 7) (b : BitVec 7) (t : BitVec 4) (m : BitVec 2)
  /-- VCVT_RNE_SAT (R278): Converts elements rounding to nearest with saturation. -/
  | vcvtRneSat (a : BitVec 7) (b : BitVec 7) (t : BitVec 4) (m : BitVec 2)
  /-- VCVT_RTZ_SAT (R278): Converts elements rounding toward zero with saturation. -/
  | vcvtRtzSat (a : BitVec 7) (b : BitVec 7) (t : BitVec 4) (m : BitVec 2)
  /-- VCEQ (R279): Writes mask bits for integer equality. -/
  | vceq (a : BitVec 3) (b : BitVec 7) (c : BitVec 7) (m : BitVec 2)
  /-- VCNE (R279): Writes mask bits for integer inequality. -/
  | vcne (a : BitVec 3) (b : BitVec 7) (c : BitVec 7) (m : BitVec 2)
  /-- VCLT (R279): Writes mask bits for signed less-than. -/
  | vclt (a : BitVec 3) (b : BitVec 7) (c : BitVec 7) (m : BitVec 2)
  /-- VCLE (R279): Writes mask bits for signed less-or-equal. -/
  | vcle (a : BitVec 3) (b : BitVec 7) (c : BitVec 7) (m : BitVec 2)
  /-- VCLTU (R279): Writes mask bits for unsigned less-than. -/
  | vcltu (a : BitVec 3) (b : BitVec 7) (c : BitVec 7) (m : BitVec 2)
  /-- VFCEQ (R279): Writes mask bits for floating equality. -/
  | vfceq (a : BitVec 3) (b : BitVec 7) (c : BitVec 7) (m : BitVec 2)
  /-- VFCLT (R279): Writes mask bits for floating less-than. -/
  | vfclt (a : BitVec 3) (b : BitVec 7) (c : BitVec 7) (m : BitVec 2)
  /-- VFCLE (R279): Writes mask bits for floating less-or-equal. -/
  | vfcle (a : BitVec 3) (b : BitVec 7) (c : BitVec 7) (m : BitVec 2)
  /-- MAND (R280): Mask AND below VL. -/
  | mand (a : BitVec 3) (b : BitVec 3) (c : BitVec 3)
  /-- MOR (R280): Mask OR below VL. -/
  | mor (a : BitVec 3) (b : BitVec 3) (c : BitVec 3)
  /-- MXOR (R280): Mask XOR below VL. -/
  | mxor (a : BitVec 3) (b : BitVec 3) (c : BitVec 3)
  /-- MANDN (R280): Mask AND NOT below VL. -/
  | mandn (a : BitVec 3) (b : BitVec 3) (c : BitVec 3)
  /-- MPOPC (R280): Returns the count of set mask bits below VL. -/
  | mpopc (a : BitVec 7) (b : BitVec 3)
  /-- MFIRST (R280): Returns the lowest set mask bit below VL. -/
  | mfirst (a : BitVec 7) (b : BitVec 3)
  /-- MTOQ (R281): Pushes a mask to an E-to-A queue as 64-bit entries. -/
  | mtoq (a : BitVec 2) (b : BitVec 3)
  /-- VCKM (R282): Copies a transfer slot's chunk bitmap into a mask, covering an ended transfer. -/
  | vckm (a : BitVec 3) (b : BitVec 7)
  /-- VSLIDEUP (R283): Slides elements up by a scalar offset. -/
  | vslideup (a : BitVec 7) (b : BitVec 7) (c : BitVec 7) (m : BitVec 2)
  /-- VSLIDEDN (R283): Slides elements down by a scalar offset. -/
  | vslidedn (a : BitVec 7) (b : BitVec 7) (c : BitVec 7) (m : BitVec 2)
  /-- VRGATHER (R283): Gathers elements by index. -/
  | vrgather (a : BitVec 7) (b : BitVec 7) (c : BitVec 7) (m : BitVec 2)
  /-- VCOMPRESS (R283): Packs selected elements. -/
  | vcompress (a : BitVec 7) (b : BitVec 7) (c : BitVec 3)
  /-- VEXPAND (R283): Spreads packed elements to selected positions. -/
  | vexpand (a : BitVec 7) (b : BitVec 7) (c : BitVec 3)
  /-- VSPLAT (R283): Broadcasts a scalar to elements. -/
  | vsplat (a : BitVec 7) (b : BitVec 7) (m : BitVec 2)
  /-- VMERGE (R283): Selects between two sources by a mask. -/
  | vmerge (a : BitVec 7) (b : BitVec 7) (c : BitVec 7) (m : BitVec 2)
  /-- VID (R283): Writes each element's index. -/
  | vid (a : BitVec 7) (m : BitVec 2)
  /-- VREDSUM (R284): Wrapping integer sum reduction. -/
  | vredsum (a : BitVec 7) (b : BitVec 7) (m : BitVec 2)
  /-- VREDMIN (R284): Integer minimum reduction. -/
  | vredmin (a : BitVec 7) (b : BitVec 7) (m : BitVec 2)
  /-- VREDMAX (R284): Integer maximum reduction. -/
  | vredmax (a : BitVec 7) (b : BitVec 7) (m : BitVec 2)
  /-- VFREDOSUM (R284): Ordered floating sum reduction. -/
  | vfredosum (a : BitVec 7) (b : BitVec 7) (m : BitVec 2)
  /-- VFREDTSUM (R284): Tree-ordered floating sum reduction. -/
  | vfredtsum (a : BitVec 7) (b : BitVec 7) (m : BitVec 2)
  /-- VFREDMIN (R284): Floating minimumNumber reduction. -/
  | vfredmin (a : BitVec 7) (b : BitVec 7) (m : BitVec 2)
  /-- VFREDMAX (R284): Floating maximumNumber reduction. -/
  | vfredmax (a : BitVec 7) (b : BitVec 7) (m : BitVec 2)
  /-- VSCAN (R284): Inclusive wrapping prefix sum. -/
  | vscan (a : BitVec 7) (b : BitVec 7) (m : BitVec 2)
  /-- VADDI (R275): Adds an immediate to each element. -/
  | vaddi (a : BitVec 7) (b : BitVec 7) (i : BitVec 7) (m : BitVec 2)
  /-- VANDI (R275): ANDs an immediate into each element. -/
  | vandi (a : BitVec 7) (b : BitVec 7) (i : BitVec 7) (m : BitVec 2)
  /-- VORI (R275): ORs an immediate into each element. -/
  | vori (a : BitVec 7) (b : BitVec 7) (i : BitVec 7) (m : BitVec 2)
  /-- VXORI (R275): XORs an immediate into each element. -/
  | vxori (a : BitVec 7) (b : BitVec 7) (i : BitVec 7) (m : BitVec 2)
  /-- VSLLI (R275): Shifts elements left by an immediate. -/
  | vslli (a : BitVec 7) (b : BitVec 7) (i : BitVec 7) (m : BitVec 2)
  /-- VSRLI (R275): Shifts elements right logically by an immediate. -/
  | vsrli (a : BitVec 7) (b : BitVec 7) (i : BitVec 7) (m : BitVec 2)
  /-- VSRAI (R275): Shifts elements right arithmetically by an immediate. -/
  | vsrai (a : BitVec 7) (b : BitVec 7) (i : BitVec 7) (m : BitVec 2)
  /-- VMVI (R275): Writes an immediate to each element. -/
  | vmvi (a : BitVec 7) (i : BitVec 7) (m : BitVec 2)
  /-- VLT (R288): Loads a tensor tile into a register group. -/
  | vlt (a : BitVec 7) (t : BitVec 7) (c : BitVec 7) (m : BitVec 2)
  /-- VLTCK (R290): Loads a tensor tile, limited to landed chunks, with a chunk acquire. -/
  | vltck (a : BitVec 7) (t : BitVec 7) (c : BitVec 7) (m : BitVec 2)
  /-- VLR (R291): Loads contiguous elements. -/
  | vlr (a : BitVec 7) (b : BitVec 7) (m : BitVec 2)
  /-- VLRS (R291): Loads strided elements. -/
  | vlrs (a : BitVec 7) (b : BitVec 7) (c : BitVec 7) (m : BitVec 2)
  /-- VLRX (R291): Loads indexed elements. -/
  | vlrx (a : BitVec 7) (b : BitVec 7) (c : BitVec 7) (m : BitVec 2)
  /-- VLRFF (R292): Loads contiguous elements, lowering VL at a later fault. -/
  | vlrff (a : BitVec 7) (b : BitVec 7) (m : BitVec 2)
  /-- VLRSC (R293): Sequentially consistent contiguous load, one ticket per element. -/
  | vlrsc (a : BitVec 7) (b : BitVec 7) (m : BitVec 2)
  /-- VSTT (R289): Stores a register group as a tensor tile, converting if needed. -/
  | vstt (t : BitVec 7) (b : BitVec 7) (c : BitVec 7) (m : BitVec 2)
  /-- VSTR (R291): Stores contiguous elements. -/
  | vstr (a : BitVec 7) (b : BitVec 7) (m : BitVec 2)
  /-- VSTRS (R291): Stores strided elements. -/
  | vstrs (a : BitVec 7) (b : BitVec 7) (c : BitVec 7) (m : BitVec 2)
  /-- VSTRX (R291): Stores indexed elements. -/
  | vstrx (a : BitVec 7) (b : BitVec 7) (c : BitVec 7) (m : BitVec 2)
  /-- VSTRSC (R293): Sequentially consistent contiguous store. -/
  | vstrsc (a : BitVec 7) (b : BitVec 7) (m : BitVec 2)
  /-- VAMOADD (R294): Per-element 32-bit atomic add, recording scope misses in m7. -/
  | vamoadd (a : BitVec 7) (b : BitVec 7) (c : BitVec 7) (m : BitVec 2)
  /-- VAMOMIN (R294): Per-element atomic minimum. -/
  | vamomin (a : BitVec 7) (b : BitVec 7) (c : BitVec 7) (m : BitVec 2)
  /-- VAMOMAX (R294): Per-element atomic maximum. -/
  | vamomax (a : BitVec 7) (b : BitVec 7) (c : BitVec 7) (m : BitVec 2)
  /-- VAMOSWAP (R294): Per-element atomic swap. -/
  | vamoswap (a : BitVec 7) (b : BitVec 7) (c : BitVec 7) (m : BitVec 2)
  /-- VAMOOR (R294): Per-element atomic OR. -/
  | vamoor (a : BitVec 7) (b : BitVec 7) (c : BitVec 7) (m : BitVec 2)
  /-- VMV (R285): Copies elements. -/
  | vmv (a : BitVec 7) (b : BitVec 7) (m : BitVec 2)
  /-- VCLMUL (R285): Element-wise low carry-less product. -/
  | vclmul (a : BitVec 7) (b : BitVec 7) (c : BitVec 7) (m : BitVec 2)
  /-- VCLMULH (R285): Element-wise high carry-less product. -/
  | vclmulh (a : BitVec 7) (b : BitVec 7) (c : BitVec 7) (m : BitVec 2)
  /-- VPOPC (R285): Element-wise population count. -/
  | vpopc (a : BitVec 7) (b : BitVec 7) (m : BitVec 2)
  /-- VCLZ (R285): Element-wise leading zero count. -/
  | vclz (a : BitVec 7) (b : BitVec 7) (m : BitVec 2)
  /-- VCTZ (R285): Element-wise trailing zero count. -/
  | vctz (a : BitVec 7) (b : BitVec 7) (m : BitVec 2)
  /-- VSEL (R285): Bitwise select by the destination's bits. -/
  | vsel (a : BitVec 7) (b : BitVec 7) (c : BitVec 7) (m : BitVec 2)
  /-- VNOT (R285): Element-wise NOT. -/
  | vnot (a : BitVec 7) (b : BitVec 7) (m : BitVec 2)
  /-- WBASE (R274): Moves the register window base by a multiple of 8. -/
  | wbase (i : BitVec 12)
  /-- MBEAM (R301): Starts loading a tensor tile and its scales into the loading beam. -/
  | mbeam (t : BitVec 7) (b : BitVec 7)
  /-- MSETA (R304): Sets the row format, extent and scale latch from a tensor tile. -/
  | mseta (t : BitVec 7) (b : BitVec 7)
  /-- MROW (R305): Issues a row multiply of a register by the active beam into an accumulator group. -/
  | mrow (a : BitVec 7) (b : BitVec 7)
  /-- MROWT (R306): Truss row: when all eight harts arrive, bay 0's row is multiplied by every bay's beam. -/
  | mrowt (a : BitVec 7) (b : BitVec 7)
  /-- MZERO (R303): Writes zero to every element of an accumulator group. -/
  | mzero (a : BitVec 7)
  /-- XCFG (R309): Writes one extrapolating-accumulator setting from a scalar. -/
  | xcfg (i : BitVec 7) (b : BitVec 7) (c : BitVec 2)
  /-- XCLR (R310): Clears an accumulator's history, flags and LAST. -/
  | xclr (c : BitVec 2)
  /-- XCHK (R310): Appends an FP32 vector to an accumulator's history. -/
  | xchk (b : BitVec 7) (c : BitVec 2)
  /-- XEPS (R311): Drains an epsilon-algorithm estimate to a register. -/
  | xeps (a : BitVec 7) (c : BitVec 2)
  /-- XLSQ (R312): Drains a weighted-sum estimate to a register. -/
  | xlsq (a : BitVec 7) (c : BitVec 2)
  /-- XTEST (R313): Tests convergence and stagnation per element into a mask. -/
  | xtest (a : BitVec 3) (b : BitVec 7) (c : BitVec 2)
  /-- XSTAT (R314): Pushes an accumulator's flag words to an E-to-A queue. -/
  | xstat (a : BitVec 2) (c : BitVec 2)
  /-- ECALL (R248): Traps with cause ECALL. -/
  | ecall
  /-- EBREAK (R248): Traps with cause EBREAK. -/
  | ebreak
  /-- ERET (R248): Checks EPC alignment, jumps to EPC and leaves the handler state. -/
  | eret
  /-- WFI (R249): Waits on a plate core until IPEND AND IEN is non-zero. -/
  | wfi
  /-- HALT (R249): Stops the plate core until the management block restarts it. -/
  | halt
  /-- STEPEND (R250): Ends the stream's part of the step. -/
  | stepend
  /-- SNAP (R255): Triggers a snapshot when armed and user-enabled, otherwise a no-op. -/
  | snap
  /-- TBAR (R330): Truss barrier: each of eight harts releases on arrival and acquires when all have arrived. -/
  | tbar
  /-- TLBSYNC (R344): Completes when every TLB has acknowledged every earlier TLBIR of this core. -/
  | tlbsync
  /-- MSWAP (R302): Exchanges the active and loading beams once loading and occupying rows are done. -/
  | mswap
  /-- MZERO_BARE (R303): Waits for loading to end, then empties and zeroes the loading beam. -/
  | mzeroBare
  /-- FENCE_PAIR_COMPLETE (R245): Once both members stand at their fences, the pair completes after draining its traffic. -/
  | fencePairComplete
  /-- STREAM_LOAD_FILL (R328): When a stream load's data arrives the device fills its reserved entry, or marks it failed. -/
  | streamLoadFill
  /-- SMV_CHUNK (R334): The sill finishes a chunk of y words and sets its bit. -/
  | smvChunk
  /-- SILL_TILE_FILL (R170): The sill fills the next EMPTY stage-ring slot with a tile and marks it FULL with release. -/
  | sillTileFill
  /-- SILL_SLOT_PULL (R336): The sill writes a FINISHED slot back to the tensor, adds to PULLED and marks it EMPTY. -/
  | sillSlotPull
  /-- SUBSCRIPTION_END (R337): The sill completes FILLING and PULLING slots, frees its queue entry and sets bit 0 so the transfer ends DONE. -/
  | subscriptionEnd
  /-- RIDGE_FORWARD (R260): A forwarded pod-ridge update arrives at a replica, which applies it by comparison or discards it by epoch. -/
  | ridgeForward
  /-- RIDGE_COPY_UPDATE (R262): A bay's cached ridge copy takes the ridge's next value within the staleness bound. -/
  | ridgeCopyUpdate
  /-- TLB_ACK (R344): A TLB acknowledges a TLBIR after dropping overlapping entries and draining accesses through them. -/
  | tlbAck
  /-- BEAM_LOAD_DONE (R301): The loading beam's last read finishes and LOADING returns to 0, or an uncorrectable error is recorded. -/
  | beamLoadDone
  /-- ROW_COMPLETE (R305): A row operation finishes accumulating, accrues its flags and decrements ROWS. -/
  | rowComplete
  /-- KICK (R156): An 8-byte doorbell store writes WIDX and notifies the walker or sets the kick bitmap. -/
  | kick
  /-- RECORD_READ (R157): A mapped queue's walker reads the next published command record within its window. -/
  | recordRead
  /-- RUN (R39): A RUN command checks and expands its operator block into steps. -/
  | run
  /-- COPY (R160): A COPY command starts a copy-engine transfer from a descriptor. -/
  | copy
  /-- GRAPH (R373): A GRAPH command snapshots a graph, checks its generation and starts an instance. -/
  | graph
  /-- SELECT (R37): A SELECT node compares its source's result word and releases one successor list as taken. -/
  | select
  /-- FENCE (R33): A FENCE command waits for earlier commands and writes its fence record with release at PKG. -/
  | fence
  /-- SIGNAL (R33): A SIGNAL command writes a value to a word with release at its scope. -/
  | signal
  /-- WAIT (R33): A WAIT command waits until a word read with acquire is at least its value. -/
  | wait
  /-- WAIT_REREAD (R159): A waiting WAIT command rereads its word at an interval of at most 1 µs. -/
  | waitReread
  /-- NOP (R33): A NOP command does nothing and ends at once. -/
  | nop
  /-- PLACE_STEP (R369): When a hart is free the scheduler chooses and places one waiting step. -/
  | placeStep
  /-- REGION_AGEING (R368): A region's age counts up while it has a waiting step, raising its effective priority. -/
  | regionAgeing
  /-- PREEMPT (R372): The scheduler pre-empts a lower-priority step to free harts for a waiting or reserving step. -/
  | preempt
  /-- STEP_RETIRE (R42): A step retires once every stream has executed STEPEND and its transfers and stores are done. -/
  | stepRetire
  /-- SPLICE_BOUNDARY (R377): After the producer body's STEPEND and its transfers end, the hart restarts in the consumer body. -/
  | spliceBoundary
  /-- TIMEOUT (R45): A step's placed time passes STEPLIM and its streams trap TIMEOUT. -/
  | timeout
  /-- QDEADLOCK (R152): When both streams of a hart are queue-stuck or one has ended, the waiting stream traps in the next clk. -/
  | qdeadlock
  /-- DOMAIN_RESET (R391): A fault domain is reset: steps stopped, pools emptied, queues rewound to their fence records and replayed. -/
  | domainReset
  /-- PARK (R393): A step stops, drains its work, writes its park frame and releases its allocation. -/
  | park
  /-- PARK_NOTICE_RETRY (R394): While the park-notice ring is full the device rereads TAIL at most every 1 µs and writes held notices. -/
  | parkNoticeRetry
  /-- STEAL (R380): An empty shard probes victims and takes one best record, which the victim marks LENT. -/
  | steal
  /-- RECORD_DELIVERY (R166): A remote-enqueue record arrives and is written to a launch queue or pool shard, returning the credit. -/
  | recordDelivery
  /-- LENT_TIMEOUT (R163): A LENT entry unacknowledged for 100 µs returns to QUEUED. -/
  | lentTimeout
  /-- CHUNK_START (R167): A copy engine picks its next chunk by priority and age, pausing on a missing page or failing on an error. -/
  | chunkStart
  /-- CHUNK_LANDING (R325): A chunk's writes are performed and its bit is set, crediting the named barrier. -/
  | chunkLanding
  /-- POWER_INPUT_CHANGE (R18): The input voltage leaves the operating range and the package is held in power-on reset. -/
  | powerInputChange
  /-- POWER_GOOD_TIMER (R18): After the input has stayed in range for 10 ms the package leaves reset. -/
  | powerGoodTimer
  /-- POWER_SAMPLE (R21): Every 1 µs the power controller measures input power and throttles or releases issue. -/
  | powerSample
  /-- THERMAL_TRIP (R23): A junction above 115 °C removes package power and records the trip. -/
  | thermalTrip
  /-- BOOT (R409): After reset the boot ROM verifies the record, fetches and verifies the image and starts the plate cores. -/
  | boot
  /-- BOOTCTL (R402): A host write of 1 to BOOTCTL bit 0 performs a package reset. -/
  | bootctl
  /-- RESTART (R402): A host write to RESTART restarts the halted plate cores named. -/
  | restart
  /-- MAILBOX (R402): A host write to mailbox offset 0x1000 raises IPEND.MGMT. -/
  | mailbox
  /-- PF_BAR2_ACCESS (R402): A host access through the PF's BAR2 reaches local HBM physical memory. -/
  | pfBar2Access
  /-- APERTURE_ACCESS (R403): A host access through a VF's BAR2 translates through the aperture context or completes Unsupported Request. -/
  | apertureAccess
  /-- FUNCTION_LEVEL_RESET (R405): An FLR of a VF refuses its doorbells and aperture, sets its FLR map bit and raises IPEND.MGMT. -/
  | functionLevelReset
  /-- FLR_CLEAR (R405): Firmware clearing the FLR map bit completes the FLR and reopens the VF. -/
  | flrClear
  /-- FLR_TIMEOUT (R405): The FLR completes at 100 ms if the bit is not cleared. -/
  | flrTimeout
  /-- SPDM_REQUEST (R413): An SPDM request over DOE on the PF is answered. -/
  | spdmRequest
  /-- POD_FORMED (R408): Setting FORMED fixes the pod formation and package number until reset. -/
  | podFormed
  /-- LINK_REPLAY (R407): A flit CRC error makes the receiver request a replay and counts a retry. -/
  | linkReplay
  /-- LINK_DOWN (R407): After 64 consecutive replays or loss of lane lock the link goes down and traffic reroutes or fails. -/
  | linkDown
  /-- SNAP_PIN (R114): The external pin triggers a snapshot when armed and enabled. -/
  | snapPin
  /-- TRUSS_BARRIER_RELEASE (R330): After the last of the eight harts arrives at a TBAR or RROT, the release (or rotated value) reaches every hart at a time not fixed but at most the TRUSS barrier latency. -/
  | trussBarrierRelease
  /-- LINK_UP (R408): A Thrumzal link finishes training and its LINKSTATE becomes up. -/
  | linkUp
  /-- DEBUGGER_HALT (R344): A debugger halts a bay, which keeps acknowledging TLBSYNC while halted and does not stop CYCLE or TIME. -/
  | debuggerHalt
  deriving DecidableEq, Repr

end Sys2Proof
end

