-- ==== Sys2Proof/WellFormed.lean ====
section
/-! DEFINITION. Which codes a field of an instruction word admits (R213, R218, R317), in which stream an
instruction is legal (R215, R217) and which feature it needs (R4, R215); and WellFormed, the check on a
term of Instr: every field holds a code that some stream accepts. -/

namespace Sys2Proof

/-- The kinds of field content of R213 and of the literal fields of R272, R308 and R317. -/
inductive FieldKind where
  /-- A-stream source: z, q0..q3, x8..x127. -/
  | aSrc
  /-- A-stream destination: z, q0..q3, x8..x127. -/
  | aDst
  /-- A-stream field read and written, so no queue port (R237, R256). -/
  | aUpd
  /-- must name a queue port q0..q3 (R317). -/
  | port
  /-- BR operand: in the E-stream z and q0..q3 only. -/
  | br
  /-- J field a: in the E-stream 0 only. -/
  | link
  /-- E-stream source: every code but the rejected ones, l0..l3, q0..q3, o0..o7, w0..w111. -/
  | eSrc
  /-- E-stream destination: l0, q0..q3, o0..o7, w0..w111; l1..l3 rejected. -/
  | eDst
  /-- E-stream field read and written: l0, o, w; no queue port (R272). -/
  | eUpd
  /-- accumulator group: any code passes here, since R299 leaves its name to the check of R214. -/
  | acc
  /-- literal of at most the value given. -/
  | lit (most : Nat)
  /-- target format literal of VCVT, 0x0..0xD (R278). -/
  | fmt
  /-- mk field that must name a mask (R272). -/
  | someMask
  /-- multiple of 8 (R274). -/
  | mul8
  /-- item literal of XCFG (R309). -/
  | xitem
  deriving DecidableEq, Repr

/-- Does a field of this kind accept the code? eStream is true when the E-stream executes (R213). -/
def FieldKind.accepts (k : FieldKind) (eStream : Bool) (code : Nat) : Bool :=
  match k with
  | .aSrc | .aDst => code == 0 || 4 ≤ code
  | .aUpd => code == 0 || 8 ≤ code
  | .port => 4 ≤ code && code ≤ 7
  | .br => code == 0 || (4 ≤ code && (code ≤ 7 || !eStream))
  | .link => code == 0 || (!eStream && 4 ≤ code)
  | .eSrc => true
  | .eDst => code == 0 || 4 ≤ code
  | .eUpd => code == 0 || 8 ≤ code
  | .acc => true
  | .lit most => code ≤ most
  | .fmt => code ≤ 13
  | .someMask => code != 0
  | .mul8 => code % 8 == 0
  | .xitem => code ≤ 3 || (8 ≤ code && code ≤ 15)

/-- Where an instruction executes: the verdict columns of R215 and R217. -/
inductive StreamClass where
  /-- step A-stream and plate core; STREAM in the E-stream. -/
  | aAll
  /-- step A-stream only; STREAM elsewhere. -/
  | aStep
  /-- both streams and plate core. -/
  | both
  /-- both streams of a step; STREAM on a plate core. -/
  | stepBoth
  /-- step E-stream only; STREAM elsewhere. -/
  | eOnly
  /-- plate core; PRIV in a step's A-stream, STREAM in the E-stream. -/
  | plateOnly
  /-- both streams of a step; ILLOP on a plate core. -/
  | stepEnd
  /-- step A-stream; STREAM in the E-stream, ILLOP on a plate core. -/
  | stepA
  /-- A-stream of a TRUSS step (R330). -/
  | trussA
  /-- E-stream of a TRUSS step (R306). -/
  | trussE
  /-- an event, no instruction word. -/
  | event
  deriving DecidableEq, Repr

/-- The feature bits of FEAT (R3). -/
inductive Feature where
  | sill | xacc | compress | search | splice | pod | dFormats | fp4
  deriving DecidableEq, Repr

/-- The bit of FEAT that holds the feature (R3). -/
def Feature.bit : Feature → Nat
  | .sill => 0 | .xacc => 1 | .compress => 2 | .search => 3 | .splice => 4 | .pod => 5 | .dFormats => 6 | .fp4 => 7

/-- Scope code 7 is POD and needs POD (R215, R243). -/
def scopeFeat (s : BitVec 3) : List Feature := if s = 7 then [.pod] else []

/-- The feature a format code belongs to (R69). -/
def fmtFeat (t : BitVec 4) : List Feature :=
  if t = 11 then [.fp4] else if t = 12 ∨ t = 13 then [.dFormats] else []

/-- The checked fields of an instruction, with the code each holds. -/
def Instr.fields (i : Instr) : List (FieldKind × Nat) :=
  match i with
  | .add a b c => [(.aDst, a.toNat), (.aSrc, b.toNat), (.aSrc, c.toNat)]
  | .sub a b c => [(.aDst, a.toNat), (.aSrc, b.toNat), (.aSrc, c.toNat)]
  | .and a b c => [(.aDst, a.toNat), (.aSrc, b.toNat), (.aSrc, c.toNat)]
  | .or a b c => [(.aDst, a.toNat), (.aSrc, b.toNat), (.aSrc, c.toNat)]
  | .xor a b c => [(.aDst, a.toNat), (.aSrc, b.toNat), (.aSrc, c.toNat)]
  | .andn a b c => [(.aDst, a.toNat), (.aSrc, b.toNat), (.aSrc, c.toNat)]
  | .orn a b c => [(.aDst, a.toNat), (.aSrc, b.toNat), (.aSrc, c.toNat)]
  | .xnor a b c => [(.aDst, a.toNat), (.aSrc, b.toNat), (.aSrc, c.toNat)]
  | .sll a b c => [(.aDst, a.toNat), (.aSrc, b.toNat), (.aSrc, c.toNat)]
  | .srl a b c => [(.aDst, a.toNat), (.aSrc, b.toNat), (.aSrc, c.toNat)]
  | .sra a b c => [(.aDst, a.toNat), (.aSrc, b.toNat), (.aSrc, c.toNat)]
  | .rol a b c => [(.aDst, a.toNat), (.aSrc, b.toNat), (.aSrc, c.toNat)]
  | .ror a b c => [(.aDst, a.toNat), (.aSrc, b.toNat), (.aSrc, c.toNat)]
  | .slt a b c => [(.aDst, a.toNat), (.aSrc, b.toNat), (.aSrc, c.toNat)]
  | .sltu a b c => [(.aDst, a.toNat), (.aSrc, b.toNat), (.aSrc, c.toNat)]
  | .min a b c => [(.aDst, a.toNat), (.aSrc, b.toNat), (.aSrc, c.toNat)]
  | .max a b c => [(.aDst, a.toNat), (.aSrc, b.toNat), (.aSrc, c.toNat)]
  | .minu a b c => [(.aDst, a.toNat), (.aSrc, b.toNat), (.aSrc, c.toNat)]
  | .maxu a b c => [(.aDst, a.toNat), (.aSrc, b.toNat), (.aSrc, c.toNat)]
  | .mul a b c => [(.aDst, a.toNat), (.aSrc, b.toNat), (.aSrc, c.toNat)]
  | .mulh a b c => [(.aDst, a.toNat), (.aSrc, b.toNat), (.aSrc, c.toNat)]
  | .mulhu a b c => [(.aDst, a.toNat), (.aSrc, b.toNat), (.aSrc, c.toNat)]
  | .div a b c => [(.aDst, a.toNat), (.aSrc, b.toNat), (.aSrc, c.toNat)]
  | .divu a b c => [(.aDst, a.toNat), (.aSrc, b.toNat), (.aSrc, c.toNat)]
  | .rem a b c => [(.aDst, a.toNat), (.aSrc, b.toNat), (.aSrc, c.toNat)]
  | .remu a b c => [(.aDst, a.toNat), (.aSrc, b.toNat), (.aSrc, c.toNat)]
  | .clz a b => [(.aDst, a.toNat), (.aSrc, b.toNat)]
  | .ctz a b => [(.aDst, a.toNat), (.aSrc, b.toNat)]
  | .popc a b => [(.aDst, a.toNat), (.aSrc, b.toNat)]
  | .clmul a b c => [(.aDst, a.toNat), (.aSrc, b.toNat), (.aSrc, c.toNat)]
  | .clmulh a b c => [(.aDst, a.toNat), (.aSrc, b.toNat), (.aSrc, c.toNat)]
  | .addi a b _ => [(.aDst, a.toNat), (.aSrc, b.toNat)]
  | .andi a b _ => [(.aDst, a.toNat), (.aSrc, b.toNat)]
  | .ori a b _ => [(.aDst, a.toNat), (.aSrc, b.toNat)]
  | .xori a b _ => [(.aDst, a.toNat), (.aSrc, b.toNat)]
  | .slti a b _ => [(.aDst, a.toNat), (.aSrc, b.toNat)]
  | .sltiu a b _ => [(.aDst, a.toNat), (.aSrc, b.toNat)]
  | .slli a b _ => [(.aDst, a.toNat), (.aSrc, b.toNat)]
  | .srli a b _ => [(.aDst, a.toNat), (.aSrc, b.toNat)]
  | .srai a b _ => [(.aDst, a.toNat), (.aSrc, b.toNat)]
  | .roli a b _ => [(.aDst, a.toNat), (.aSrc, b.toNat)]
  | .rori a b _ => [(.aDst, a.toNat), (.aSrc, b.toNat)]
  | .lih a _ => [(.aDst, a.toNat)]
  | .ldB a b _ => [(.aDst, a.toNat), (.aSrc, b.toNat)]
  | .ldBu a b _ => [(.aDst, a.toNat), (.aSrc, b.toNat)]
  | .ldH a b _ => [(.aDst, a.toNat), (.aSrc, b.toNat)]
  | .ldHu a b _ => [(.aDst, a.toNat), (.aSrc, b.toNat)]
  | .ldW a b _ => [(.aDst, a.toNat), (.aSrc, b.toNat)]
  | .ldWu a b _ => [(.aDst, a.toNat), (.aSrc, b.toNat)]
  | .ldD a b _ => [(.aDst, a.toNat), (.aSrc, b.toNat)]
  | .stB a b _ => [(.aSrc, a.toNat), (.aSrc, b.toNat)]
  | .stH a b _ => [(.aSrc, a.toNat), (.aSrc, b.toNat)]
  | .stW a b _ => [(.aSrc, a.toNat), (.aSrc, b.toNat)]
  | .stD a b _ => [(.aSrc, a.toNat), (.aSrc, b.toNat)]
  | .amoSwap a b c _ => [(.aDst, a.toNat), (.aSrc, b.toNat), (.aSrc, c.toNat)]
  | .amoAdd a b c _ => [(.aDst, a.toNat), (.aSrc, b.toNat), (.aSrc, c.toNat)]
  | .amoAnd a b c _ => [(.aDst, a.toNat), (.aSrc, b.toNat), (.aSrc, c.toNat)]
  | .amoOr a b c _ => [(.aDst, a.toNat), (.aSrc, b.toNat), (.aSrc, c.toNat)]
  | .amoXor a b c _ => [(.aDst, a.toNat), (.aSrc, b.toNat), (.aSrc, c.toNat)]
  | .amoMin a b c _ => [(.aDst, a.toNat), (.aSrc, b.toNat), (.aSrc, c.toNat)]
  | .amoMax a b c _ => [(.aDst, a.toNat), (.aSrc, b.toNat), (.aSrc, c.toNat)]
  | .amoMinu a b c _ => [(.aDst, a.toNat), (.aSrc, b.toNat), (.aSrc, c.toNat)]
  | .amoMaxu a b c _ => [(.aDst, a.toNat), (.aSrc, b.toNat), (.aSrc, c.toNat)]
  | .amoCas a b c _ => [(.aUpd, a.toNat), (.aSrc, b.toNat), (.aSrc, c.toNat)]
  | .beq b c _ => [(.br, b.toNat), (.br, c.toNat)]
  | .bne b c _ => [(.br, b.toNat), (.br, c.toNat)]
  | .blt b c _ => [(.br, b.toNat), (.br, c.toNat)]
  | .bge b c _ => [(.br, b.toNat), (.br, c.toNat)]
  | .bltu b c _ => [(.br, b.toNat), (.br, c.toNat)]
  | .bgeu b c _ => [(.br, b.toNat), (.br, c.toNat)]
  | .j a _ => [(.link, a.toNat)]
  | .jr a b _ => [(.aDst, a.toNat), (.aSrc, b.toNat)]
  | .csrrd a _ => [(.aDst, a.toNat)]
  | .csrwr b _ => [(.aSrc, b.toNat)]
  | .csrset b _ => [(.aSrc, b.toNat)]
  | .csrclr b _ => [(.aSrc, b.toNat)]
  | .cplaunch a => [(.aDst, a.toNat)]
  | .featack b => [(.aSrc, b.toNat)]
  | .fenceSv _ => []
  | .fenceVs _ => []
  | .fenceVv _ => []
  | .fenceAll _ => []
  | .post b => [(.aSrc, b.toNat)]
  | .killck b c => [(.aSrc, b.toNat), (.aSrc, c.toNat)]
  | .scopeof a b c => [(.aDst, a.toNat), (.aSrc, b.toNat), (.aSrc, c.toNat)]
  | .setscope b => [(.aSrc, b.toNat)]
  | .glaunch a b c => [(.aUpd, a.toNat), (.aSrc, b.toNat), (.aSrc, c.toNat)]
  | .cpwait b c => [(.aSrc, b.toNat), (.aSrc, c.toNat)]
  | .cptest a b s => [(.aDst, a.toNat), (.aSrc, b.toNat), (.lit 1, s.toNat)]
  | .cpcancel b => [(.aSrc, b.toNat)]
  | .bgather a b _ => [(.aDst, a.toNat), (.aSrc, b.toNat)]
  | .remq b c => [(.aSrc, b.toNat), (.aSrc, c.toNat)]
  | .remqa a b c => [(.aDst, a.toNat), (.aSrc, b.toNat), (.aSrc, c.toNat)]
  | .ppush a b => [(.aDst, a.toNat), (.aSrc, b.toNat)]
  | .sld a b => [(.port, a.toNat), (.aSrc, b.toNat)]
  | .slds a b c => [(.port, a.toNat), (.aSrc, b.toNat), (.aSrc, c.toNat)]
  | .sldz a b c => [(.port, a.toNat), (.aSrc, b.toNat), (.aSrc, c.toNat)]
  | .binit b c => [(.aSrc, b.toNat), (.aSrc, c.toNat)]
  | .bexpect b c => [(.aSrc, b.toNat), (.aSrc, c.toNat)]
  | .barrive b => [(.aSrc, b.toNat)]
  | .bwait b c => [(.aSrc, b.toNat), (.aSrc, c.toNat)]
  | .btest a b => [(.aDst, a.toNat), (.aSrc, b.toNat)]
  | .rrot a b c => [(.aDst, a.toNat), (.aSrc, b.toNat), (.aSrc, c.toNat)]
  | .smv a _ c => [(.aDst, a.toNat), (.aSrc, c.toNat)]
  | .ssub a _ c => [(.aDst, a.toNat), (.aSrc, c.toNat)]
  | .spull b _ => [(.aSrc, b.toNat)]
  | .sstop b => [(.aSrc, b.toNat)]
  | .tdset _ b => [(.aSrc, b.toNat)]
  | .tdget a _ c => [(.aDst, a.toNat), (.aSrc, c.toNat)]
  | .tdsync _ s => [(.lit 7, s.toNat)]
  | .tdchk a _ => [(.aDst, a.toNat)]
  | .rird a b => [(.aDst, a.toNat), (.aSrc, b.toNat)]
  | .ritag a b => [(.aDst, a.toNat), (.aSrc, b.toNat)]
  | .rimin a b c => [(.aSrc, a.toNat), (.aSrc, b.toNat), (.aSrc, c.toNat)]
  | .rimax a b c => [(.aSrc, a.toNat), (.aSrc, b.toNat), (.aSrc, c.toNat)]
  | .rireset a b c => [(.aSrc, a.toNat), (.aSrc, b.toNat), (.aSrc, c.toNat)]
  | .qmap a b c => [(.aDst, a.toNat), (.aSrc, b.toNat), (.aSrc, c.toNat)]
  | .qunmap a b => [(.aDst, a.toNat), (.aSrc, b.toNat)]
  | .qsave a b => [(.aDst, a.toNat), (.aSrc, b.toNat)]
  | .qload a b => [(.aDst, a.toNat), (.aSrc, b.toNat)]
  | .tlbir b c => [(.aSrc, b.toNat), (.aSrc, c.toNat)]
  | .vttset a b c => [(.aDst, a.toNat), (.aSrc, b.toNat), (.aSrc, c.toNat)]
  | .preset a b => [(.aDst, a.toNat), (.aSrc, b.toNat)]
  | .presume b c => [(.aSrc, b.toNat), (.aSrc, c.toNat)]
  | .kickclr b c => [(.aSrc, b.toNat), (.aSrc, c.toNat)]
  | .vsetvl a b _ _ => [(.eDst, a.toNat), (.eSrc, b.toNat)]
  | .vadd a b c _ => [(.eDst, a.toNat), (.eSrc, b.toNat), (.eSrc, c.toNat)]
  | .vsub a b c _ => [(.eDst, a.toNat), (.eSrc, b.toNat), (.eSrc, c.toNat)]
  | .vmul a b c _ => [(.eDst, a.toNat), (.eSrc, b.toNat), (.eSrc, c.toNat)]
  | .vmulh a b c _ => [(.eDst, a.toNat), (.eSrc, b.toNat), (.eSrc, c.toNat)]
  | .vand a b c _ => [(.eDst, a.toNat), (.eSrc, b.toNat), (.eSrc, c.toNat)]
  | .vor a b c _ => [(.eDst, a.toNat), (.eSrc, b.toNat), (.eSrc, c.toNat)]
  | .vxor a b c _ => [(.eDst, a.toNat), (.eSrc, b.toNat), (.eSrc, c.toNat)]
  | .vsll a b c _ => [(.eDst, a.toNat), (.eSrc, b.toNat), (.eSrc, c.toNat)]
  | .vsrl a b c _ => [(.eDst, a.toNat), (.eSrc, b.toNat), (.eSrc, c.toNat)]
  | .vsra a b c _ => [(.eDst, a.toNat), (.eSrc, b.toNat), (.eSrc, c.toNat)]
  | .vmin a b c _ => [(.eDst, a.toNat), (.eSrc, b.toNat), (.eSrc, c.toNat)]
  | .vmax a b c _ => [(.eDst, a.toNat), (.eSrc, b.toNat), (.eSrc, c.toNat)]
  | .vminu a b c _ => [(.eDst, a.toNat), (.eSrc, b.toNat), (.eSrc, c.toNat)]
  | .vmaxu a b c _ => [(.eDst, a.toNat), (.eSrc, b.toNat), (.eSrc, c.toNat)]
  | .vsadd a b c _ => [(.eDst, a.toNat), (.eSrc, b.toNat), (.eSrc, c.toNat)]
  | .vssub a b c _ => [(.eDst, a.toNat), (.eSrc, b.toNat), (.eSrc, c.toNat)]
  | .vfadd a b c _ => [(.eDst, a.toNat), (.eSrc, b.toNat), (.eSrc, c.toNat)]
  | .vfsub a b c _ => [(.eDst, a.toNat), (.eSrc, b.toNat), (.eSrc, c.toNat)]
  | .vfmul a b c _ => [(.eDst, a.toNat), (.eSrc, b.toNat), (.eSrc, c.toNat)]
  | .vfdiv a b c _ => [(.eDst, a.toNat), (.eSrc, b.toNat), (.eSrc, c.toNat)]
  | .vfmin a b c _ => [(.eDst, a.toNat), (.eSrc, b.toNat), (.eSrc, c.toNat)]
  | .vfmax a b c _ => [(.eDst, a.toNat), (.eSrc, b.toNat), (.eSrc, c.toNat)]
  | .vfsqrt a b _ => [(.eDst, a.toNat), (.eSrc, b.toNat)]
  | .vfsgn a b c _ => [(.eDst, a.toNat), (.eSrc, b.toNat), (.eSrc, c.toNat)]
  | .vfma a b c _ => [(.eUpd, a.toNat), (.eSrc, b.toNat), (.eSrc, c.toNat)]
  | .vfms a b c _ => [(.eUpd, a.toNat), (.eSrc, b.toNat), (.eSrc, c.toNat)]
  | .vfnma a b c _ => [(.eUpd, a.toNat), (.eSrc, b.toNat), (.eSrc, c.toNat)]
  | .vfnms a b c _ => [(.eUpd, a.toNat), (.eSrc, b.toNat), (.eSrc, c.toNat)]
  | .vfmaw a b c _ => [(.eUpd, a.toNat), (.eSrc, b.toNat), (.eSrc, c.toNat)]
  | .vcvtRne a b t _ => [(.eDst, a.toNat), (.eSrc, b.toNat), (.fmt, t.toNat)]
  | .vcvtRtz a b t _ => [(.eDst, a.toNat), (.eSrc, b.toNat), (.fmt, t.toNat)]
  | .vcvtRdn a b t _ => [(.eDst, a.toNat), (.eSrc, b.toNat), (.fmt, t.toNat)]
  | .vcvtRup a b t _ => [(.eDst, a.toNat), (.eSrc, b.toNat), (.fmt, t.toNat)]
  | .vcvtRneSat a b t _ => [(.eDst, a.toNat), (.eSrc, b.toNat), (.fmt, t.toNat)]
  | .vcvtRtzSat a b t _ => [(.eDst, a.toNat), (.eSrc, b.toNat), (.fmt, t.toNat)]
  | .vceq _ b c _ => [(.eSrc, b.toNat), (.eSrc, c.toNat)]
  | .vcne _ b c _ => [(.eSrc, b.toNat), (.eSrc, c.toNat)]
  | .vclt _ b c _ => [(.eSrc, b.toNat), (.eSrc, c.toNat)]
  | .vcle _ b c _ => [(.eSrc, b.toNat), (.eSrc, c.toNat)]
  | .vcltu _ b c _ => [(.eSrc, b.toNat), (.eSrc, c.toNat)]
  | .vfceq _ b c _ => [(.eSrc, b.toNat), (.eSrc, c.toNat)]
  | .vfclt _ b c _ => [(.eSrc, b.toNat), (.eSrc, c.toNat)]
  | .vfcle _ b c _ => [(.eSrc, b.toNat), (.eSrc, c.toNat)]
  | .mand _ _ _ => []
  | .mor _ _ _ => []
  | .mxor _ _ _ => []
  | .mandn _ _ _ => []
  | .mpopc a _ => [(.eDst, a.toNat)]
  | .mfirst a _ => [(.eDst, a.toNat)]
  | .mtoq _ _ => []
  | .vckm _ b => [(.eSrc, b.toNat)]
  | .vslideup a b c _ => [(.eDst, a.toNat), (.eSrc, b.toNat), (.eSrc, c.toNat)]
  | .vslidedn a b c _ => [(.eDst, a.toNat), (.eSrc, b.toNat), (.eSrc, c.toNat)]
  | .vrgather a b c _ => [(.eDst, a.toNat), (.eSrc, b.toNat), (.eSrc, c.toNat)]
  | .vcompress a b _ => [(.eDst, a.toNat), (.eSrc, b.toNat)]
  | .vexpand a b _ => [(.eDst, a.toNat), (.eSrc, b.toNat)]
  | .vsplat a b _ => [(.eDst, a.toNat), (.eSrc, b.toNat)]
  | .vmerge a b c m => [(.eDst, a.toNat), (.eSrc, b.toNat), (.eSrc, c.toNat), (.someMask, m.toNat)]
  | .vid a _ => [(.eDst, a.toNat)]
  | .vredsum a b _ => [(.eDst, a.toNat), (.eSrc, b.toNat)]
  | .vredmin a b _ => [(.eDst, a.toNat), (.eSrc, b.toNat)]
  | .vredmax a b _ => [(.eDst, a.toNat), (.eSrc, b.toNat)]
  | .vfredosum a b _ => [(.eDst, a.toNat), (.eSrc, b.toNat)]
  | .vfredtsum a b _ => [(.eDst, a.toNat), (.eSrc, b.toNat)]
  | .vfredmin a b _ => [(.eDst, a.toNat), (.eSrc, b.toNat)]
  | .vfredmax a b _ => [(.eDst, a.toNat), (.eSrc, b.toNat)]
  | .vscan a b _ => [(.eDst, a.toNat), (.eSrc, b.toNat)]
  | .vaddi a b _ _ => [(.eDst, a.toNat), (.eSrc, b.toNat)]
  | .vandi a b _ _ => [(.eDst, a.toNat), (.eSrc, b.toNat)]
  | .vori a b _ _ => [(.eDst, a.toNat), (.eSrc, b.toNat)]
  | .vxori a b _ _ => [(.eDst, a.toNat), (.eSrc, b.toNat)]
  | .vslli a b _ _ => [(.eDst, a.toNat), (.eSrc, b.toNat)]
  | .vsrli a b _ _ => [(.eDst, a.toNat), (.eSrc, b.toNat)]
  | .vsrai a b _ _ => [(.eDst, a.toNat), (.eSrc, b.toNat)]
  | .vmvi a _ _ => [(.eDst, a.toNat)]
  | .vlt a _ c _ => [(.eDst, a.toNat), (.eSrc, c.toNat)]
  | .vltck a _ c m => [(.eDst, a.toNat), (.eSrc, c.toNat), (.someMask, m.toNat)]
  | .vlr a b _ => [(.eDst, a.toNat), (.eSrc, b.toNat)]
  | .vlrs a b c _ => [(.eDst, a.toNat), (.eSrc, b.toNat), (.eSrc, c.toNat)]
  | .vlrx a b c _ => [(.eDst, a.toNat), (.eSrc, b.toNat), (.eSrc, c.toNat)]
  | .vlrff a b _ => [(.eDst, a.toNat), (.eSrc, b.toNat)]
  | .vlrsc a b _ => [(.eDst, a.toNat), (.eSrc, b.toNat)]
  | .vstt _ b c _ => [(.eSrc, b.toNat), (.eSrc, c.toNat)]
  | .vstr a b _ => [(.eSrc, a.toNat), (.eSrc, b.toNat)]
  | .vstrs a b c _ => [(.eSrc, a.toNat), (.eSrc, b.toNat), (.eSrc, c.toNat)]
  | .vstrx a b c _ => [(.eSrc, a.toNat), (.eSrc, b.toNat), (.eSrc, c.toNat)]
  | .vstrsc a b _ => [(.eSrc, a.toNat), (.eSrc, b.toNat)]
  | .vamoadd a b c _ => [(.eUpd, a.toNat), (.eSrc, b.toNat), (.eSrc, c.toNat)]
  | .vamomin a b c _ => [(.eUpd, a.toNat), (.eSrc, b.toNat), (.eSrc, c.toNat)]
  | .vamomax a b c _ => [(.eUpd, a.toNat), (.eSrc, b.toNat), (.eSrc, c.toNat)]
  | .vamoswap a b c _ => [(.eUpd, a.toNat), (.eSrc, b.toNat), (.eSrc, c.toNat)]
  | .vamoor a b c _ => [(.eUpd, a.toNat), (.eSrc, b.toNat), (.eSrc, c.toNat)]
  | .vmv a b _ => [(.eDst, a.toNat), (.eSrc, b.toNat)]
  | .vclmul a b c _ => [(.eDst, a.toNat), (.eSrc, b.toNat), (.eSrc, c.toNat)]
  | .vclmulh a b c _ => [(.eDst, a.toNat), (.eSrc, b.toNat), (.eSrc, c.toNat)]
  | .vpopc a b _ => [(.eDst, a.toNat), (.eSrc, b.toNat)]
  | .vclz a b _ => [(.eDst, a.toNat), (.eSrc, b.toNat)]
  | .vctz a b _ => [(.eDst, a.toNat), (.eSrc, b.toNat)]
  | .vsel a b c _ => [(.eUpd, a.toNat), (.eSrc, b.toNat), (.eSrc, c.toNat)]
  | .vnot a b _ => [(.eDst, a.toNat), (.eSrc, b.toNat)]
  | .wbase i => [(.mul8, i.toNat)]
  | .mbeam _ b => [(.eSrc, b.toNat)]
  | .mseta _ b => [(.eSrc, b.toNat)]
  | .mrow a b => [(.acc, a.toNat), (.eSrc, b.toNat)]
  | .mrowt a b => [(.acc, a.toNat), (.eSrc, b.toNat)]
  | .mzero a => [(.acc, a.toNat)]
  | .xcfg i b _ => [(.xitem, i.toNat), (.eSrc, b.toNat)]
  | .xclr _ => []
  | .xchk b _ => [(.eSrc, b.toNat)]
  | .xeps a _ => [(.eDst, a.toNat)]
  | .xlsq a _ => [(.eDst, a.toNat)]
  | .xtest _ b _ => [(.eSrc, b.toNat)]
  | .xstat _ _ => []
  | .ecall => []
  | .ebreak => []
  | .eret => []
  | .wfi => []
  | .halt => []
  | .stepend => []
  | .snap => []
  | .tbar => []
  | .tlbsync => []
  | .mswap => []
  | .mzeroBare => []
  | .fencePairComplete => []
  | .streamLoadFill => []
  | .smvChunk => []
  | .sillTileFill => []
  | .sillSlotPull => []
  | .subscriptionEnd => []
  | .ridgeForward => []
  | .ridgeCopyUpdate => []
  | .tlbAck => []
  | .beamLoadDone => []
  | .rowComplete => []
  | .kick => []
  | .recordRead => []
  | .run => []
  | .copy => []
  | .graph => []
  | .select => []
  | .fence => []
  | .signal => []
  | .wait => []
  | .waitReread => []
  | .nop => []
  | .placeStep => []
  | .regionAgeing => []
  | .preempt => []
  | .stepRetire => []
  | .spliceBoundary => []
  | .timeout => []
  | .qdeadlock => []
  | .domainReset => []
  | .park => []
  | .parkNoticeRetry => []
  | .steal => []
  | .recordDelivery => []
  | .lentTimeout => []
  | .chunkStart => []
  | .chunkLanding => []
  | .powerInputChange => []
  | .powerGoodTimer => []
  | .powerSample => []
  | .thermalTrip => []
  | .boot => []
  | .bootctl => []
  | .restart => []
  | .mailbox => []
  | .pfBar2Access => []
  | .apertureAccess => []
  | .functionLevelReset => []
  | .flrClear => []
  | .flrTimeout => []
  | .spdmRequest => []
  | .podFormed => []
  | .linkReplay => []
  | .linkDown => []
  | .snapPin => []
  | .trussBarrierRelease => []
  | .linkUp => []
  | .debuggerHalt => []

/-- Where the instruction executes (R215, R217). -/
def Instr.streamClass (i : Instr) : StreamClass :=
  match i with
  | .add _ _ _ => .aAll
  | .sub _ _ _ => .aAll
  | .and _ _ _ => .aAll
  | .or _ _ _ => .aAll
  | .xor _ _ _ => .aAll
  | .andn _ _ _ => .aAll
  | .orn _ _ _ => .aAll
  | .xnor _ _ _ => .aAll
  | .sll _ _ _ => .aAll
  | .srl _ _ _ => .aAll
  | .sra _ _ _ => .aAll
  | .rol _ _ _ => .aAll
  | .ror _ _ _ => .aAll
  | .slt _ _ _ => .aAll
  | .sltu _ _ _ => .aAll
  | .min _ _ _ => .aAll
  | .max _ _ _ => .aAll
  | .minu _ _ _ => .aAll
  | .maxu _ _ _ => .aAll
  | .mul _ _ _ => .aAll
  | .mulh _ _ _ => .aAll
  | .mulhu _ _ _ => .aAll
  | .div _ _ _ => .aAll
  | .divu _ _ _ => .aAll
  | .rem _ _ _ => .aAll
  | .remu _ _ _ => .aAll
  | .clz _ _ => .aAll
  | .ctz _ _ => .aAll
  | .popc _ _ => .aAll
  | .clmul _ _ _ => .aAll
  | .clmulh _ _ _ => .aAll
  | .addi _ _ _ => .aAll
  | .andi _ _ _ => .aAll
  | .ori _ _ _ => .aAll
  | .xori _ _ _ => .aAll
  | .slti _ _ _ => .aAll
  | .sltiu _ _ _ => .aAll
  | .slli _ _ _ => .aAll
  | .srli _ _ _ => .aAll
  | .srai _ _ _ => .aAll
  | .roli _ _ _ => .aAll
  | .rori _ _ _ => .aAll
  | .lih _ _ => .aAll
  | .ldB _ _ _ => .aAll
  | .ldBu _ _ _ => .aAll
  | .ldH _ _ _ => .aAll
  | .ldHu _ _ _ => .aAll
  | .ldW _ _ _ => .aAll
  | .ldWu _ _ _ => .aAll
  | .ldD _ _ _ => .aAll
  | .stB _ _ _ => .aAll
  | .stH _ _ _ => .aAll
  | .stW _ _ _ => .aAll
  | .stD _ _ _ => .aAll
  | .amoSwap _ _ _ _ => .aAll
  | .amoAdd _ _ _ _ => .aAll
  | .amoAnd _ _ _ _ => .aAll
  | .amoOr _ _ _ _ => .aAll
  | .amoXor _ _ _ _ => .aAll
  | .amoMin _ _ _ _ => .aAll
  | .amoMax _ _ _ _ => .aAll
  | .amoMinu _ _ _ _ => .aAll
  | .amoMaxu _ _ _ _ => .aAll
  | .amoCas _ _ _ _ => .aAll
  | .beq _ _ _ => .both
  | .bne _ _ _ => .both
  | .blt _ _ _ => .both
  | .bge _ _ _ => .both
  | .bltu _ _ _ => .both
  | .bgeu _ _ _ => .both
  | .j _ _ => .both
  | .jr _ _ _ => .aAll
  | .csrrd _ _ => .aAll
  | .csrwr _ _ => .aAll
  | .csrset _ _ => .aAll
  | .csrclr _ _ => .aAll
  | .cplaunch _ => .aAll
  | .featack _ => .aAll
  | .fenceSv _ => .stepBoth
  | .fenceVs _ => .stepBoth
  | .fenceVv _ => .eOnly
  | .fenceAll _ => .both
  | .post _ => .stepA
  | .killck _ _ => .stepA
  | .scopeof _ _ _ => .aAll
  | .setscope _ => .aAll
  | .glaunch _ _ _ => .aAll
  | .cpwait _ _ => .aStep
  | .cptest _ _ _ => .aStep
  | .cpcancel _ => .aStep
  | .bgather _ _ _ => .aStep
  | .remq _ _ => .aStep
  | .remqa _ _ _ => .aStep
  | .ppush _ _ => .aStep
  | .sld _ _ => .aStep
  | .slds _ _ _ => .aStep
  | .sldz _ _ _ => .aStep
  | .binit _ _ => .aStep
  | .bexpect _ _ => .aStep
  | .barrive _ => .aStep
  | .bwait _ _ => .aStep
  | .btest _ _ => .aStep
  | .rrot _ _ _ => .trussA
  | .smv _ _ _ => .aStep
  | .ssub _ _ _ => .aStep
  | .spull _ _ => .aStep
  | .sstop _ => .aStep
  | .tdset _ _ => .aStep
  | .tdget _ _ _ => .aStep
  | .tdsync _ _ => .aStep
  | .tdchk _ _ => .aStep
  | .rird _ _ => .aAll
  | .ritag _ _ => .aAll
  | .rimin _ _ _ => .aAll
  | .rimax _ _ _ => .aAll
  | .rireset _ _ _ => .aAll
  | .qmap _ _ _ => .plateOnly
  | .qunmap _ _ => .plateOnly
  | .qsave _ _ => .plateOnly
  | .qload _ _ => .plateOnly
  | .tlbir _ _ => .plateOnly
  | .vttset _ _ _ => .plateOnly
  | .preset _ _ => .plateOnly
  | .presume _ _ => .plateOnly
  | .kickclr _ _ => .plateOnly
  | .vsetvl _ _ _ _ => .eOnly
  | .vadd _ _ _ _ => .eOnly
  | .vsub _ _ _ _ => .eOnly
  | .vmul _ _ _ _ => .eOnly
  | .vmulh _ _ _ _ => .eOnly
  | .vand _ _ _ _ => .eOnly
  | .vor _ _ _ _ => .eOnly
  | .vxor _ _ _ _ => .eOnly
  | .vsll _ _ _ _ => .eOnly
  | .vsrl _ _ _ _ => .eOnly
  | .vsra _ _ _ _ => .eOnly
  | .vmin _ _ _ _ => .eOnly
  | .vmax _ _ _ _ => .eOnly
  | .vminu _ _ _ _ => .eOnly
  | .vmaxu _ _ _ _ => .eOnly
  | .vsadd _ _ _ _ => .eOnly
  | .vssub _ _ _ _ => .eOnly
  | .vfadd _ _ _ _ => .eOnly
  | .vfsub _ _ _ _ => .eOnly
  | .vfmul _ _ _ _ => .eOnly
  | .vfdiv _ _ _ _ => .eOnly
  | .vfmin _ _ _ _ => .eOnly
  | .vfmax _ _ _ _ => .eOnly
  | .vfsqrt _ _ _ => .eOnly
  | .vfsgn _ _ _ _ => .eOnly
  | .vfma _ _ _ _ => .eOnly
  | .vfms _ _ _ _ => .eOnly
  | .vfnma _ _ _ _ => .eOnly
  | .vfnms _ _ _ _ => .eOnly
  | .vfmaw _ _ _ _ => .eOnly
  | .vcvtRne _ _ _ _ => .eOnly
  | .vcvtRtz _ _ _ _ => .eOnly
  | .vcvtRdn _ _ _ _ => .eOnly
  | .vcvtRup _ _ _ _ => .eOnly
  | .vcvtRneSat _ _ _ _ => .eOnly
  | .vcvtRtzSat _ _ _ _ => .eOnly
  | .vceq _ _ _ _ => .eOnly
  | .vcne _ _ _ _ => .eOnly
  | .vclt _ _ _ _ => .eOnly
  | .vcle _ _ _ _ => .eOnly
  | .vcltu _ _ _ _ => .eOnly
  | .vfceq _ _ _ _ => .eOnly
  | .vfclt _ _ _ _ => .eOnly
  | .vfcle _ _ _ _ => .eOnly
  | .mand _ _ _ => .eOnly
  | .mor _ _ _ => .eOnly
  | .mxor _ _ _ => .eOnly
  | .mandn _ _ _ => .eOnly
  | .mpopc _ _ => .eOnly
  | .mfirst _ _ => .eOnly
  | .mtoq _ _ => .eOnly
  | .vckm _ _ => .eOnly
  | .vslideup _ _ _ _ => .eOnly
  | .vslidedn _ _ _ _ => .eOnly
  | .vrgather _ _ _ _ => .eOnly
  | .vcompress _ _ _ => .eOnly
  | .vexpand _ _ _ => .eOnly
  | .vsplat _ _ _ => .eOnly
  | .vmerge _ _ _ _ => .eOnly
  | .vid _ _ => .eOnly
  | .vredsum _ _ _ => .eOnly
  | .vredmin _ _ _ => .eOnly
  | .vredmax _ _ _ => .eOnly
  | .vfredosum _ _ _ => .eOnly
  | .vfredtsum _ _ _ => .eOnly
  | .vfredmin _ _ _ => .eOnly
  | .vfredmax _ _ _ => .eOnly
  | .vscan _ _ _ => .eOnly
  | .vaddi _ _ _ _ => .eOnly
  | .vandi _ _ _ _ => .eOnly
  | .vori _ _ _ _ => .eOnly
  | .vxori _ _ _ _ => .eOnly
  | .vslli _ _ _ _ => .eOnly
  | .vsrli _ _ _ _ => .eOnly
  | .vsrai _ _ _ _ => .eOnly
  | .vmvi _ _ _ => .eOnly
  | .vlt _ _ _ _ => .eOnly
  | .vltck _ _ _ _ => .eOnly
  | .vlr _ _ _ => .eOnly
  | .vlrs _ _ _ _ => .eOnly
  | .vlrx _ _ _ _ => .eOnly
  | .vlrff _ _ _ => .eOnly
  | .vlrsc _ _ _ => .eOnly
  | .vstt _ _ _ _ => .eOnly
  | .vstr _ _ _ => .eOnly
  | .vstrs _ _ _ _ => .eOnly
  | .vstrx _ _ _ _ => .eOnly
  | .vstrsc _ _ _ => .eOnly
  | .vamoadd _ _ _ _ => .eOnly
  | .vamomin _ _ _ _ => .eOnly
  | .vamomax _ _ _ _ => .eOnly
  | .vamoswap _ _ _ _ => .eOnly
  | .vamoor _ _ _ _ => .eOnly
  | .vmv _ _ _ => .eOnly
  | .vclmul _ _ _ _ => .eOnly
  | .vclmulh _ _ _ _ => .eOnly
  | .vpopc _ _ _ => .eOnly
  | .vclz _ _ _ => .eOnly
  | .vctz _ _ _ => .eOnly
  | .vsel _ _ _ _ => .eOnly
  | .vnot _ _ _ => .eOnly
  | .wbase _ => .eOnly
  | .mbeam _ _ => .eOnly
  | .mseta _ _ => .eOnly
  | .mrow _ _ => .eOnly
  | .mrowt _ _ => .trussE
  | .mzero _ => .eOnly
  | .xcfg _ _ _ => .eOnly
  | .xclr _ => .eOnly
  | .xchk _ _ => .eOnly
  | .xeps _ _ => .eOnly
  | .xlsq _ _ => .eOnly
  | .xtest _ _ _ => .eOnly
  | .xstat _ _ => .eOnly
  | .ecall => .aAll
  | .ebreak => .aAll
  | .eret => .aAll
  | .wfi => .plateOnly
  | .halt => .plateOnly
  | .stepend => .stepEnd
  | .snap => .aAll
  | .tbar => .trussA
  | .tlbsync => .plateOnly
  | .mswap => .eOnly
  | .mzeroBare => .eOnly
  | .fencePairComplete => .event
  | .streamLoadFill => .event
  | .smvChunk => .event
  | .sillTileFill => .event
  | .sillSlotPull => .event
  | .subscriptionEnd => .event
  | .ridgeForward => .event
  | .ridgeCopyUpdate => .event
  | .tlbAck => .event
  | .beamLoadDone => .event
  | .rowComplete => .event
  | .kick => .event
  | .recordRead => .event
  | .run => .event
  | .copy => .event
  | .graph => .event
  | .select => .event
  | .fence => .event
  | .signal => .event
  | .wait => .event
  | .waitReread => .event
  | .nop => .event
  | .placeStep => .event
  | .regionAgeing => .event
  | .preempt => .event
  | .stepRetire => .event
  | .spliceBoundary => .event
  | .timeout => .event
  | .qdeadlock => .event
  | .domainReset => .event
  | .park => .event
  | .parkNoticeRetry => .event
  | .steal => .event
  | .recordDelivery => .event
  | .lentTimeout => .event
  | .chunkStart => .event
  | .chunkLanding => .event
  | .powerInputChange => .event
  | .powerGoodTimer => .event
  | .powerSample => .event
  | .thermalTrip => .event
  | .boot => .event
  | .bootctl => .event
  | .restart => .event
  | .mailbox => .event
  | .pfBar2Access => .event
  | .apertureAccess => .event
  | .functionLevelReset => .event
  | .flrClear => .event
  | .flrTimeout => .event
  | .spdmRequest => .event
  | .podFormed => .event
  | .linkReplay => .event
  | .linkDown => .event
  | .snapPin => .event
  | .trussBarrierRelease => .event
  | .linkUp => .event
  | .debuggerHalt => .event

/-- The features the instruction and its scope and format fields need (R4, R215, R219 check 5). -/
def Instr.features (i : Instr) : List Feature :=
  match i with
  | .add _ _ _ => []
  | .sub _ _ _ => []
  | .and _ _ _ => []
  | .or _ _ _ => []
  | .xor _ _ _ => []
  | .andn _ _ _ => []
  | .orn _ _ _ => []
  | .xnor _ _ _ => []
  | .sll _ _ _ => []
  | .srl _ _ _ => []
  | .sra _ _ _ => []
  | .rol _ _ _ => []
  | .ror _ _ _ => []
  | .slt _ _ _ => []
  | .sltu _ _ _ => []
  | .min _ _ _ => []
  | .max _ _ _ => []
  | .minu _ _ _ => []
  | .maxu _ _ _ => []
  | .mul _ _ _ => []
  | .mulh _ _ _ => []
  | .mulhu _ _ _ => []
  | .div _ _ _ => []
  | .divu _ _ _ => []
  | .rem _ _ _ => []
  | .remu _ _ _ => []
  | .clz _ _ => []
  | .ctz _ _ => []
  | .popc _ _ => []
  | .clmul _ _ _ => []
  | .clmulh _ _ _ => []
  | .addi _ _ _ => []
  | .andi _ _ _ => []
  | .ori _ _ _ => []
  | .xori _ _ _ => []
  | .slti _ _ _ => []
  | .sltiu _ _ _ => []
  | .slli _ _ _ => []
  | .srli _ _ _ => []
  | .srai _ _ _ => []
  | .roli _ _ _ => []
  | .rori _ _ _ => []
  | .lih _ _ => []
  | .ldB _ _ _ => []
  | .ldBu _ _ _ => []
  | .ldH _ _ _ => []
  | .ldHu _ _ _ => []
  | .ldW _ _ _ => []
  | .ldWu _ _ _ => []
  | .ldD _ _ _ => []
  | .stB _ _ _ => []
  | .stH _ _ _ => []
  | .stW _ _ _ => []
  | .stD _ _ _ => []
  | .amoSwap _ _ _ _ => []
  | .amoAdd _ _ _ _ => []
  | .amoAnd _ _ _ _ => []
  | .amoOr _ _ _ _ => []
  | .amoXor _ _ _ _ => []
  | .amoMin _ _ _ _ => []
  | .amoMax _ _ _ _ => []
  | .amoMinu _ _ _ _ => []
  | .amoMaxu _ _ _ _ => []
  | .amoCas _ _ _ _ => []
  | .beq _ _ _ => []
  | .bne _ _ _ => []
  | .blt _ _ _ => []
  | .bge _ _ _ => []
  | .bltu _ _ _ => []
  | .bgeu _ _ _ => []
  | .j _ _ => []
  | .jr _ _ _ => []
  | .csrrd _ _ => []
  | .csrwr _ _ => []
  | .csrset _ _ => []
  | .csrclr _ _ => []
  | .cplaunch _ => []
  | .featack _ => []
  | .fenceSv s => scopeFeat s
  | .fenceVs s => scopeFeat s
  | .fenceVv s => scopeFeat s
  | .fenceAll s => scopeFeat s
  | .post _ => []
  | .killck _ _ => [Feature.search]
  | .scopeof _ _ _ => []
  | .setscope _ => []
  | .glaunch _ _ _ => []
  | .cpwait _ _ => []
  | .cptest _ _ _ => []
  | .cpcancel _ => []
  | .bgather _ _ _ => []
  | .remq _ _ => []
  | .remqa _ _ _ => []
  | .ppush _ _ => [Feature.search]
  | .sld _ _ => []
  | .slds _ _ _ => []
  | .sldz _ _ _ => [Feature.compress]
  | .binit _ _ => []
  | .bexpect _ _ => []
  | .barrive _ => []
  | .bwait _ _ => []
  | .btest _ _ => []
  | .rrot _ _ _ => []
  | .smv _ _ _ => [Feature.sill]
  | .ssub _ _ _ => [Feature.sill]
  | .spull _ _ => [Feature.sill]
  | .sstop _ => [Feature.sill]
  | .tdset _ _ => []
  | .tdget _ _ _ => []
  | .tdsync _ s => if s = 7 then [.pod] else []
  | .tdchk _ _ => []
  | .rird _ _ => [Feature.search]
  | .ritag _ _ => [Feature.search]
  | .rimin _ _ _ => [Feature.search]
  | .rimax _ _ _ => [Feature.search]
  | .rireset _ _ _ => [Feature.search]
  | .qmap _ _ _ => []
  | .qunmap _ _ => []
  | .qsave _ _ => []
  | .qload _ _ => []
  | .tlbir _ _ => []
  | .vttset _ _ _ => []
  | .preset _ _ => []
  | .presume _ _ => []
  | .kickclr _ _ => []
  | .vsetvl _ _ _ t => fmtFeat t
  | .vadd _ _ _ _ => []
  | .vsub _ _ _ _ => []
  | .vmul _ _ _ _ => []
  | .vmulh _ _ _ _ => []
  | .vand _ _ _ _ => []
  | .vor _ _ _ _ => []
  | .vxor _ _ _ _ => []
  | .vsll _ _ _ _ => []
  | .vsrl _ _ _ _ => []
  | .vsra _ _ _ _ => []
  | .vmin _ _ _ _ => []
  | .vmax _ _ _ _ => []
  | .vminu _ _ _ _ => []
  | .vmaxu _ _ _ _ => []
  | .vsadd _ _ _ _ => []
  | .vssub _ _ _ _ => []
  | .vfadd _ _ _ _ => []
  | .vfsub _ _ _ _ => []
  | .vfmul _ _ _ _ => []
  | .vfdiv _ _ _ _ => []
  | .vfmin _ _ _ _ => []
  | .vfmax _ _ _ _ => []
  | .vfsqrt _ _ _ => []
  | .vfsgn _ _ _ _ => []
  | .vfma _ _ _ _ => []
  | .vfms _ _ _ _ => []
  | .vfnma _ _ _ _ => []
  | .vfnms _ _ _ _ => []
  | .vfmaw _ _ _ _ => []
  | .vcvtRne _ _ t _ => fmtFeat t
  | .vcvtRtz _ _ t _ => fmtFeat t
  | .vcvtRdn _ _ t _ => fmtFeat t
  | .vcvtRup _ _ t _ => fmtFeat t
  | .vcvtRneSat _ _ t _ => fmtFeat t
  | .vcvtRtzSat _ _ t _ => fmtFeat t
  | .vceq _ _ _ _ => []
  | .vcne _ _ _ _ => []
  | .vclt _ _ _ _ => []
  | .vcle _ _ _ _ => []
  | .vcltu _ _ _ _ => []
  | .vfceq _ _ _ _ => []
  | .vfclt _ _ _ _ => []
  | .vfcle _ _ _ _ => []
  | .mand _ _ _ => []
  | .mor _ _ _ => []
  | .mxor _ _ _ => []
  | .mandn _ _ _ => []
  | .mpopc _ _ => []
  | .mfirst _ _ => []
  | .mtoq _ _ => []
  | .vckm _ _ => []
  | .vslideup _ _ _ _ => []
  | .vslidedn _ _ _ _ => []
  | .vrgather _ _ _ _ => []
  | .vcompress _ _ _ => []
  | .vexpand _ _ _ => []
  | .vsplat _ _ _ => []
  | .vmerge _ _ _ _ => []
  | .vid _ _ => []
  | .vredsum _ _ _ => []
  | .vredmin _ _ _ => []
  | .vredmax _ _ _ => []
  | .vfredosum _ _ _ => []
  | .vfredtsum _ _ _ => []
  | .vfredmin _ _ _ => []
  | .vfredmax _ _ _ => []
  | .vscan _ _ _ => []
  | .vaddi _ _ _ _ => []
  | .vandi _ _ _ _ => []
  | .vori _ _ _ _ => []
  | .vxori _ _ _ _ => []
  | .vslli _ _ _ _ => []
  | .vsrli _ _ _ _ => []
  | .vsrai _ _ _ _ => []
  | .vmvi _ _ _ => []
  | .vlt _ _ _ _ => []
  | .vltck _ _ _ _ => []
  | .vlr _ _ _ => []
  | .vlrs _ _ _ _ => []
  | .vlrx _ _ _ _ => []
  | .vlrff _ _ _ => []
  | .vlrsc _ _ _ => []
  | .vstt _ _ _ _ => []
  | .vstr _ _ _ => []
  | .vstrs _ _ _ _ => []
  | .vstrx _ _ _ _ => []
  | .vstrsc _ _ _ => []
  | .vamoadd _ _ _ _ => []
  | .vamomin _ _ _ _ => []
  | .vamomax _ _ _ _ => []
  | .vamoswap _ _ _ _ => []
  | .vamoor _ _ _ _ => []
  | .vmv _ _ _ => []
  | .vclmul _ _ _ _ => []
  | .vclmulh _ _ _ _ => []
  | .vpopc _ _ _ => []
  | .vclz _ _ _ => []
  | .vctz _ _ _ => []
  | .vsel _ _ _ _ => []
  | .vnot _ _ _ => []
  | .wbase _ => []
  | .mbeam _ _ => []
  | .mseta _ _ => []
  | .mrow _ _ => []
  | .mrowt _ _ => []
  | .mzero _ => []
  | .xcfg _ _ _ => [Feature.xacc]
  | .xclr _ => [Feature.xacc]
  | .xchk _ _ => [Feature.xacc]
  | .xeps _ _ => [Feature.xacc]
  | .xlsq _ _ => [Feature.xacc]
  | .xtest _ _ _ => [Feature.xacc]
  | .xstat _ _ => [Feature.xacc]
  | .ecall => []
  | .ebreak => []
  | .eret => []
  | .wfi => []
  | .halt => []
  | .stepend => []
  | .snap => []
  | .tbar => []
  | .tlbsync => []
  | .mswap => []
  | .mzeroBare => []
  | .fencePairComplete => []
  | .streamLoadFill => []
  | .smvChunk => []
  | .sillTileFill => []
  | .sillSlotPull => []
  | .subscriptionEnd => []
  | .ridgeForward => []
  | .ridgeCopyUpdate => []
  | .tlbAck => []
  | .beamLoadDone => []
  | .rowComplete => []
  | .kick => []
  | .recordRead => []
  | .run => []
  | .copy => []
  | .graph => []
  | .select => []
  | .fence => []
  | .signal => []
  | .wait => []
  | .waitReread => []
  | .nop => []
  | .placeStep => []
  | .regionAgeing => []
  | .preempt => []
  | .stepRetire => []
  | .spliceBoundary => []
  | .timeout => []
  | .qdeadlock => []
  | .domainReset => []
  | .park => []
  | .parkNoticeRetry => []
  | .steal => []
  | .recordDelivery => []
  | .lentTimeout => []
  | .chunkStart => []
  | .chunkLanding => []
  | .powerInputChange => []
  | .powerGoodTimer => []
  | .powerSample => []
  | .thermalTrip => []
  | .boot => []
  | .bootctl => []
  | .restart => []
  | .mailbox => []
  | .pfBar2Access => []
  | .apertureAccess => []
  | .functionLevelReset => []
  | .flrClear => []
  | .flrTimeout => []
  | .spdmRequest => []
  | .podFormed => []
  | .linkReplay => []
  | .linkDown => []
  | .snapPin => []
  | .trussBarrierRelease => []
  | .linkUp => []
  | .debuggerHalt => []

/-- Every field of the instruction accepts its code in the stream that executes (R219, check 6). -/
def Instr.fieldsOk (i : Instr) (eStream : Bool) : Bool :=
  i.fields.all fun p => p.1.accepts eStream p.2

/-- Conditions on a term that its word's row does not already fix: CPLAUNCH and FEATACK are rows of their
own, and so is the bare MZERO, so the general rows exclude their words. -/
def Instr.ownRow (i : Instr) : Bool :=
  match i with
  | .csrrd _ n => n != 0x08F
  | .csrwr _ n => n != 0x201
  | .mzero a => a != 0
  | _ => true

/-- A well-formed instruction: every field holds a code that a stream accepts (R213), and the word is its
row's own. An event has no fields. -/
def WellFormed (i : Instr) : Bool :=
  (i.fieldsOk false || i.fieldsOk true) && i.ownRow

end Sys2Proof
end

