-- ==== Sys2Proof/Decode.lean ====
section
/-! DEFINITION. The decoder, total on every word and on every list of bytes (R209, R211, R215, R216, R218),
and the encoder, written from the same encoding tables. A word that is no instruction is rejected by name. -/

namespace Sys2Proof

/-- The decoder's answer. -/
inductive Decoded where
  /-- the word of an instruction. -/
  | instr (i : Instr)
  /-- the major is not assigned (R219, check 1). -/
  | noMajor
  /-- the minor field holds no assigned code (R219, check 2). -/
  | noMinor
  /-- an unused field is not 0, or a mask, port or literal field holds a code outside its range: the word
  fails check 6 of R219, after the checks 3..5 of the instruction it would have been. -/
  | badField (i : Instr)
  /-- fewer than four bytes. -/
  | short
  deriving DecidableEq, Repr

/-- The len bits of w from bit lo up. -/
def slice (w : Word32) (lo len : Nat) : BitVec len := w.extractLsb' lo len

/-- The major, bits [31:26] (R215). -/
def majorOf (w : Word32) : Nat := (slice w 26 6).toNat

/-- The instruction when its unused fields hold what they must (R218), else the name of the failure. -/
def checked (ok : Bool) (i : Instr) : Decoded := if ok then .instr i else .badField i

/-- Major 0x01 (R216). -/
def decode01 (w : Word32) : Decoded :=
  match (slice w 0 5).toNat with
  | 0 => .instr (.add (slice w 19 7) (slice w 12 7) (slice w 5 7))
  | 1 => .instr (.sub (slice w 19 7) (slice w 12 7) (slice w 5 7))
  | 2 => .instr (.and (slice w 19 7) (slice w 12 7) (slice w 5 7))
  | 3 => .instr (.or (slice w 19 7) (slice w 12 7) (slice w 5 7))
  | 4 => .instr (.xor (slice w 19 7) (slice w 12 7) (slice w 5 7))
  | 5 => .instr (.andn (slice w 19 7) (slice w 12 7) (slice w 5 7))
  | 6 => .instr (.orn (slice w 19 7) (slice w 12 7) (slice w 5 7))
  | 7 => .instr (.xnor (slice w 19 7) (slice w 12 7) (slice w 5 7))
  | 8 => .instr (.sll (slice w 19 7) (slice w 12 7) (slice w 5 7))
  | 9 => .instr (.srl (slice w 19 7) (slice w 12 7) (slice w 5 7))
  | 10 => .instr (.sra (slice w 19 7) (slice w 12 7) (slice w 5 7))
  | 11 => .instr (.rol (slice w 19 7) (slice w 12 7) (slice w 5 7))
  | 12 => .instr (.ror (slice w 19 7) (slice w 12 7) (slice w 5 7))
  | 13 => .instr (.slt (slice w 19 7) (slice w 12 7) (slice w 5 7))
  | 14 => .instr (.sltu (slice w 19 7) (slice w 12 7) (slice w 5 7))
  | 15 => .instr (.min (slice w 19 7) (slice w 12 7) (slice w 5 7))
  | 16 => .instr (.max (slice w 19 7) (slice w 12 7) (slice w 5 7))
  | 17 => .instr (.minu (slice w 19 7) (slice w 12 7) (slice w 5 7))
  | 18 => .instr (.maxu (slice w 19 7) (slice w 12 7) (slice w 5 7))
  | 19 => .instr (.mul (slice w 19 7) (slice w 12 7) (slice w 5 7))
  | 20 => .instr (.mulh (slice w 19 7) (slice w 12 7) (slice w 5 7))
  | 21 => .instr (.mulhu (slice w 19 7) (slice w 12 7) (slice w 5 7))
  | 22 => .instr (.div (slice w 19 7) (slice w 12 7) (slice w 5 7))
  | 23 => .instr (.divu (slice w 19 7) (slice w 12 7) (slice w 5 7))
  | 24 => .instr (.rem (slice w 19 7) (slice w 12 7) (slice w 5 7))
  | 25 => .instr (.remu (slice w 19 7) (slice w 12 7) (slice w 5 7))
  | 26 => checked (slice w 5 7 == 0) (.clz (slice w 19 7) (slice w 12 7))
  | 27 => checked (slice w 5 7 == 0) (.ctz (slice w 19 7) (slice w 12 7))
  | 28 => checked (slice w 5 7 == 0) (.popc (slice w 19 7) (slice w 12 7))
  | 29 => .instr (.clmul (slice w 19 7) (slice w 12 7) (slice w 5 7))
  | 30 => .instr (.clmulh (slice w 19 7) (slice w 12 7) (slice w 5 7))
  | _ => .noMinor

/-- Major 0x08 (R216). -/
def decode08 (w : Word32) : Decoded :=
  match (slice w 9 3).toNat with
  | 0 => checked (slice w 6 3 == 0) (.slli (slice w 19 7) (slice w 12 7) (slice w 0 6))
  | 1 => checked (slice w 6 3 == 0) (.srli (slice w 19 7) (slice w 12 7) (slice w 0 6))
  | 2 => checked (slice w 6 3 == 0) (.srai (slice w 19 7) (slice w 12 7) (slice w 0 6))
  | 3 => checked (slice w 6 3 == 0) (.roli (slice w 19 7) (slice w 12 7) (slice w 0 6))
  | 4 => checked (slice w 6 3 == 0) (.rori (slice w 19 7) (slice w 12 7) (slice w 0 6))
  | _ => .noMinor

/-- Major 0x0A (R216). -/
def decode0A (w : Word32) : Decoded :=
  match (slice w 9 3).toNat with
  | 0 => .instr (.ldB (slice w 19 7) (slice w 12 7) (slice w 0 9))
  | 1 => .instr (.ldBu (slice w 19 7) (slice w 12 7) (slice w 0 9))
  | 2 => .instr (.ldH (slice w 19 7) (slice w 12 7) (slice w 0 9))
  | 3 => .instr (.ldHu (slice w 19 7) (slice w 12 7) (slice w 0 9))
  | 4 => .instr (.ldW (slice w 19 7) (slice w 12 7) (slice w 0 9))
  | 5 => .instr (.ldWu (slice w 19 7) (slice w 12 7) (slice w 0 9))
  | 6 => .instr (.ldD (slice w 19 7) (slice w 12 7) (slice w 0 9))
  | _ => .noMinor

/-- Major 0x0B (R216). -/
def decode0B (w : Word32) : Decoded :=
  match (slice w 9 3).toNat with
  | 0 => .instr (.stB (slice w 19 7) (slice w 12 7) (slice w 0 9))
  | 2 => .instr (.stH (slice w 19 7) (slice w 12 7) (slice w 0 9))
  | 4 => .instr (.stW (slice w 19 7) (slice w 12 7) (slice w 0 9))
  | 6 => .instr (.stD (slice w 19 7) (slice w 12 7) (slice w 0 9))
  | _ => .noMinor

/-- Major 0x0C (R216). -/
def decode0C (w : Word32) : Decoded :=
  match (slice w 1 4).toNat with
  | 0 => .instr (.amoSwap (slice w 19 7) (slice w 12 7) (slice w 5 7) (slice w 0 1))
  | 1 => .instr (.amoAdd (slice w 19 7) (slice w 12 7) (slice w 5 7) (slice w 0 1))
  | 2 => .instr (.amoAnd (slice w 19 7) (slice w 12 7) (slice w 5 7) (slice w 0 1))
  | 3 => .instr (.amoOr (slice w 19 7) (slice w 12 7) (slice w 5 7) (slice w 0 1))
  | 4 => .instr (.amoXor (slice w 19 7) (slice w 12 7) (slice w 5 7) (slice w 0 1))
  | 5 => .instr (.amoMin (slice w 19 7) (slice w 12 7) (slice w 5 7) (slice w 0 1))
  | 6 => .instr (.amoMax (slice w 19 7) (slice w 12 7) (slice w 5 7) (slice w 0 1))
  | 7 => .instr (.amoMinu (slice w 19 7) (slice w 12 7) (slice w 5 7) (slice w 0 1))
  | 8 => .instr (.amoMaxu (slice w 19 7) (slice w 12 7) (slice w 5 7) (slice w 0 1))
  | 9 => .instr (.amoCas (slice w 19 7) (slice w 12 7) (slice w 5 7) (slice w 0 1))
  | _ => .noMinor

/-- Major 0x0D (R216). -/
def decode0D (w : Word32) : Decoded :=
  match (slice w 9 3).toNat with
  | 0 => .instr (.beq (slice w 19 7) (slice w 12 7) (slice w 0 9))
  | 1 => .instr (.bne (slice w 19 7) (slice w 12 7) (slice w 0 9))
  | 2 => .instr (.blt (slice w 19 7) (slice w 12 7) (slice w 0 9))
  | 3 => .instr (.bge (slice w 19 7) (slice w 12 7) (slice w 0 9))
  | 4 => .instr (.bltu (slice w 19 7) (slice w 12 7) (slice w 0 9))
  | 5 => .instr (.bgeu (slice w 19 7) (slice w 12 7) (slice w 0 9))
  | _ => .noMinor

/-- Major 0x10 (R216). -/
def decode10 (w : Word32) : Decoded :=
  match (slice w 10 2).toNat with
  | 0 => if slice w 0 10 == 0x08F then checked (slice w 12 7 == 0) (.cplaunch (slice w 19 7)) else checked (slice w 12 7 == 0) (.csrrd (slice w 19 7) (slice w 0 10))
  | 1 => if slice w 0 10 == 0x201 then checked (slice w 19 7 == 0) (.featack (slice w 12 7)) else checked (slice w 19 7 == 0) (.csrwr (slice w 12 7) (slice w 0 10))
  | 2 => checked (slice w 19 7 == 0) (.csrset (slice w 12 7) (slice w 0 10))
  | 3 => checked (slice w 19 7 == 0) (.csrclr (slice w 12 7) (slice w 0 10))
  | _ => .noMinor

/-- Major 0x11 (R216). -/
def decode11 (w : Word32) : Decoded :=
  match (slice w 0 2).toNat with
  | 0 => checked (slice w 5 21 == 0) (.fenceSv (slice w 2 3))
  | 1 => checked (slice w 5 21 == 0) (.fenceVs (slice w 2 3))
  | 2 => checked (slice w 5 21 == 0) (.fenceVv (slice w 2 3))
  | 3 => checked (slice w 5 21 == 0) (.fenceAll (slice w 2 3))
  | _ => .noMinor

/-- Major 0x12 (R216). -/
def decode12 (w : Word32) : Decoded :=
  match (slice w 0 5).toNat with
  | 0 => checked (slice w 5 21 == 0) (.ecall)
  | 1 => checked (slice w 5 21 == 0) (.ebreak)
  | 2 => checked (slice w 5 21 == 0) (.eret)
  | 3 => checked (slice w 5 21 == 0) (.wfi)
  | 4 => checked (slice w 5 21 == 0) (.halt)
  | 5 => checked (slice w 5 21 == 0) (.stepend)
  | 6 => checked (slice w 5 7 == 0 && slice w 19 7 == 0) (.post (slice w 12 7))
  | 7 => checked (slice w 19 7 == 0) (.killck (slice w 12 7) (slice w 5 7))
  | 8 => .instr (.scopeof (slice w 19 7) (slice w 12 7) (slice w 5 7))
  | 9 => checked (slice w 5 21 == 0) (.snap)
  | 10 => checked (slice w 5 7 == 0 && slice w 19 7 == 0) (.setscope (slice w 12 7))
  | 11 => .instr (.glaunch (slice w 19 7) (slice w 12 7) (slice w 5 7))
  | _ => .noMinor

/-- Major 0x13 (R216). -/
def decode13 (w : Word32) : Decoded :=
  match (slice w 0 5).toNat with
  | 0 => checked (slice w 19 7 == 0) (.cpwait (slice w 12 7) (slice w 5 7))
  | 1 => .instr (.cptest (slice w 19 7) (slice w 12 7) (slice w 5 7))
  | 2 => checked (slice w 5 7 == 0 && slice w 19 7 == 0) (.cpcancel (slice w 12 7))
  | 3 => .instr (.bgather (slice w 19 7) (slice w 12 7) (slice w 5 7))
  | 4 => checked (slice w 19 7 == 0) (.remq (slice w 12 7) (slice w 5 7))
  | 5 => .instr (.remqa (slice w 19 7) (slice w 12 7) (slice w 5 7))
  | 6 => checked (slice w 5 7 == 0) (.ppush (slice w 19 7) (slice w 12 7))
  | _ => .noMinor

/-- Major 0x14 (R216). -/
def decode14 (w : Word32) : Decoded :=
  match (slice w 0 5).toNat with
  | 0 => checked (slice w 5 7 == 0) (.sld (slice w 19 7) (slice w 12 7))
  | 1 => .instr (.slds (slice w 19 7) (slice w 12 7) (slice w 5 7))
  | 2 => .instr (.sldz (slice w 19 7) (slice w 12 7) (slice w 5 7))
  | _ => .noMinor

/-- Major 0x15 (R216). -/
def decode15 (w : Word32) : Decoded :=
  match (slice w 0 5).toNat with
  | 0 => checked (slice w 19 7 == 0) (.binit (slice w 12 7) (slice w 5 7))
  | 1 => checked (slice w 19 7 == 0) (.bexpect (slice w 12 7) (slice w 5 7))
  | 2 => checked (slice w 5 7 == 0 && slice w 19 7 == 0) (.barrive (slice w 12 7))
  | 3 => checked (slice w 19 7 == 0) (.bwait (slice w 12 7) (slice w 5 7))
  | 4 => checked (slice w 5 7 == 0) (.btest (slice w 19 7) (slice w 12 7))
  | 5 => checked (slice w 5 21 == 0) (.tbar)
  | 6 => .instr (.rrot (slice w 19 7) (slice w 12 7) (slice w 5 7))
  | _ => .noMinor

/-- Major 0x16 (R216). -/
def decode16 (w : Word32) : Decoded :=
  match (slice w 0 5).toNat with
  | 0 => .instr (.smv (slice w 19 7) (slice w 12 7) (slice w 5 7))
  | 1 => .instr (.ssub (slice w 19 7) (slice w 12 7) (slice w 5 7))
  | 2 => checked (slice w 19 7 == 0) (.spull (slice w 12 7) (slice w 5 7))
  | 3 => checked (slice w 5 7 == 0 && slice w 19 7 == 0) (.sstop (slice w 12 7))
  | _ => .noMinor

/-- Major 0x17 (R216). -/
def decode17 (w : Word32) : Decoded :=
  match (slice w 0 5).toNat with
  | 0 => checked (slice w 5 7 == 0) (.tdset (slice w 19 7) (slice w 12 7))
  | 1 => .instr (.tdget (slice w 19 7) (slice w 12 7) (slice w 5 7))
  | 2 => checked (slice w 12 7 == 0) (.tdsync (slice w 19 7) (slice w 5 7))
  | 3 => checked (slice w 5 7 == 0) (.tdchk (slice w 19 7) (slice w 12 7))
  | _ => .noMinor

/-- Major 0x18 (R216). -/
def decode18 (w : Word32) : Decoded :=
  match (slice w 0 5).toNat with
  | 0 => checked (slice w 5 7 == 0) (.rird (slice w 19 7) (slice w 12 7))
  | 1 => checked (slice w 5 7 == 0) (.ritag (slice w 19 7) (slice w 12 7))
  | 2 => .instr (.rimin (slice w 19 7) (slice w 12 7) (slice w 5 7))
  | 3 => .instr (.rimax (slice w 19 7) (slice w 12 7) (slice w 5 7))
  | 4 => .instr (.rireset (slice w 19 7) (slice w 12 7) (slice w 5 7))
  | _ => .noMinor

/-- Major 0x19 (R216). -/
def decode19 (w : Word32) : Decoded :=
  match (slice w 0 5).toNat with
  | 0 => .instr (.qmap (slice w 19 7) (slice w 12 7) (slice w 5 7))
  | 1 => checked (slice w 5 7 == 0) (.qunmap (slice w 19 7) (slice w 12 7))
  | 2 => checked (slice w 5 7 == 0) (.qsave (slice w 19 7) (slice w 12 7))
  | 3 => checked (slice w 5 7 == 0) (.qload (slice w 19 7) (slice w 12 7))
  | 4 => checked (slice w 19 7 == 0) (.tlbir (slice w 12 7) (slice w 5 7))
  | 5 => checked (slice w 5 21 == 0) (.tlbsync)
  | 6 => .instr (.vttset (slice w 19 7) (slice w 12 7) (slice w 5 7))
  | 7 => checked (slice w 5 7 == 0) (.preset (slice w 19 7) (slice w 12 7))
  | 8 => checked (slice w 19 7 == 0) (.presume (slice w 12 7) (slice w 5 7))
  | 9 => checked (slice w 19 7 == 0) (.kickclr (slice w 12 7) (slice w 5 7))
  | _ => .noMinor

/-- Major 0x21 (R216). -/
def decode21 (w : Word32) : Decoded :=
  match (slice w 0 3).toNat with
  | 0 => .instr (.vadd (slice w 19 7) (slice w 12 7) (slice w 5 7) (slice w 3 2))
  | 1 => .instr (.vsub (slice w 19 7) (slice w 12 7) (slice w 5 7) (slice w 3 2))
  | 2 => .instr (.vmul (slice w 19 7) (slice w 12 7) (slice w 5 7) (slice w 3 2))
  | 3 => .instr (.vmulh (slice w 19 7) (slice w 12 7) (slice w 5 7) (slice w 3 2))
  | 4 => .instr (.vand (slice w 19 7) (slice w 12 7) (slice w 5 7) (slice w 3 2))
  | 5 => .instr (.vor (slice w 19 7) (slice w 12 7) (slice w 5 7) (slice w 3 2))
  | 6 => .instr (.vxor (slice w 19 7) (slice w 12 7) (slice w 5 7) (slice w 3 2))
  | 7 => .instr (.vsll (slice w 19 7) (slice w 12 7) (slice w 5 7) (slice w 3 2))
  | _ => .noMinor

/-- Major 0x22 (R216). -/
def decode22 (w : Word32) : Decoded :=
  match (slice w 0 3).toNat with
  | 0 => .instr (.vsrl (slice w 19 7) (slice w 12 7) (slice w 5 7) (slice w 3 2))
  | 1 => .instr (.vsra (slice w 19 7) (slice w 12 7) (slice w 5 7) (slice w 3 2))
  | 2 => .instr (.vmin (slice w 19 7) (slice w 12 7) (slice w 5 7) (slice w 3 2))
  | 3 => .instr (.vmax (slice w 19 7) (slice w 12 7) (slice w 5 7) (slice w 3 2))
  | 4 => .instr (.vminu (slice w 19 7) (slice w 12 7) (slice w 5 7) (slice w 3 2))
  | 5 => .instr (.vmaxu (slice w 19 7) (slice w 12 7) (slice w 5 7) (slice w 3 2))
  | 6 => .instr (.vsadd (slice w 19 7) (slice w 12 7) (slice w 5 7) (slice w 3 2))
  | 7 => .instr (.vssub (slice w 19 7) (slice w 12 7) (slice w 5 7) (slice w 3 2))
  | _ => .noMinor

/-- Major 0x23 (R216). -/
def decode23 (w : Word32) : Decoded :=
  match (slice w 0 3).toNat with
  | 0 => .instr (.vfadd (slice w 19 7) (slice w 12 7) (slice w 5 7) (slice w 3 2))
  | 1 => .instr (.vfsub (slice w 19 7) (slice w 12 7) (slice w 5 7) (slice w 3 2))
  | 2 => .instr (.vfmul (slice w 19 7) (slice w 12 7) (slice w 5 7) (slice w 3 2))
  | 3 => .instr (.vfdiv (slice w 19 7) (slice w 12 7) (slice w 5 7) (slice w 3 2))
  | 4 => .instr (.vfmin (slice w 19 7) (slice w 12 7) (slice w 5 7) (slice w 3 2))
  | 5 => .instr (.vfmax (slice w 19 7) (slice w 12 7) (slice w 5 7) (slice w 3 2))
  | 6 => checked (slice w 5 7 == 0) (.vfsqrt (slice w 19 7) (slice w 12 7) (slice w 3 2))
  | 7 => .instr (.vfsgn (slice w 19 7) (slice w 12 7) (slice w 5 7) (slice w 3 2))
  | _ => .noMinor

/-- Major 0x24 (R216). -/
def decode24 (w : Word32) : Decoded :=
  match (slice w 0 3).toNat with
  | 0 => .instr (.vfma (slice w 19 7) (slice w 12 7) (slice w 5 7) (slice w 3 2))
  | 1 => .instr (.vfms (slice w 19 7) (slice w 12 7) (slice w 5 7) (slice w 3 2))
  | 2 => .instr (.vfnma (slice w 19 7) (slice w 12 7) (slice w 5 7) (slice w 3 2))
  | 3 => .instr (.vfnms (slice w 19 7) (slice w 12 7) (slice w 5 7) (slice w 3 2))
  | 4 => .instr (.vfmaw (slice w 19 7) (slice w 12 7) (slice w 5 7) (slice w 3 2))
  | _ => .noMinor

/-- Major 0x25 (R216). -/
def decode25 (w : Word32) : Decoded :=
  match (slice w 0 3).toNat with
  | 0 => checked (slice w 9 3 == 0) (.vcvtRne (slice w 19 7) (slice w 12 7) (slice w 5 4) (slice w 3 2))
  | 1 => checked (slice w 9 3 == 0) (.vcvtRtz (slice w 19 7) (slice w 12 7) (slice w 5 4) (slice w 3 2))
  | 2 => checked (slice w 9 3 == 0) (.vcvtRdn (slice w 19 7) (slice w 12 7) (slice w 5 4) (slice w 3 2))
  | 3 => checked (slice w 9 3 == 0) (.vcvtRup (slice w 19 7) (slice w 12 7) (slice w 5 4) (slice w 3 2))
  | 4 => checked (slice w 9 3 == 0) (.vcvtRneSat (slice w 19 7) (slice w 12 7) (slice w 5 4) (slice w 3 2))
  | 5 => checked (slice w 9 3 == 0) (.vcvtRtzSat (slice w 19 7) (slice w 12 7) (slice w 5 4) (slice w 3 2))
  | _ => .noMinor

/-- Major 0x26 (R216). -/
def decode26 (w : Word32) : Decoded :=
  match (slice w 0 3).toNat with
  | 0 => checked (slice w 22 4 == 0) (.vceq (slice w 19 3) (slice w 12 7) (slice w 5 7) (slice w 3 2))
  | 1 => checked (slice w 22 4 == 0) (.vcne (slice w 19 3) (slice w 12 7) (slice w 5 7) (slice w 3 2))
  | 2 => checked (slice w 22 4 == 0) (.vclt (slice w 19 3) (slice w 12 7) (slice w 5 7) (slice w 3 2))
  | 3 => checked (slice w 22 4 == 0) (.vcle (slice w 19 3) (slice w 12 7) (slice w 5 7) (slice w 3 2))
  | 4 => checked (slice w 22 4 == 0) (.vcltu (slice w 19 3) (slice w 12 7) (slice w 5 7) (slice w 3 2))
  | 5 => checked (slice w 22 4 == 0) (.vfceq (slice w 19 3) (slice w 12 7) (slice w 5 7) (slice w 3 2))
  | 6 => checked (slice w 22 4 == 0) (.vfclt (slice w 19 3) (slice w 12 7) (slice w 5 7) (slice w 3 2))
  | 7 => checked (slice w 22 4 == 0) (.vfcle (slice w 19 3) (slice w 12 7) (slice w 5 7) (slice w 3 2))
  | _ => .noMinor

/-- Major 0x27 (R216). -/
def decode27 (w : Word32) : Decoded :=
  match (slice w 0 3).toNat with
  | 0 => checked (slice w 3 2 == 0 && slice w 8 4 == 0 && slice w 15 4 == 0 && slice w 22 4 == 0) (.mand (slice w 19 3) (slice w 12 3) (slice w 5 3))
  | 1 => checked (slice w 3 2 == 0 && slice w 8 4 == 0 && slice w 15 4 == 0 && slice w 22 4 == 0) (.mor (slice w 19 3) (slice w 12 3) (slice w 5 3))
  | 2 => checked (slice w 3 2 == 0 && slice w 8 4 == 0 && slice w 15 4 == 0 && slice w 22 4 == 0) (.mxor (slice w 19 3) (slice w 12 3) (slice w 5 3))
  | 3 => checked (slice w 3 2 == 0 && slice w 8 4 == 0 && slice w 15 4 == 0 && slice w 22 4 == 0) (.mandn (slice w 19 3) (slice w 12 3) (slice w 5 3))
  | 4 => checked (slice w 3 9 == 0 && slice w 15 4 == 0) (.mpopc (slice w 19 7) (slice w 12 3))
  | 5 => checked (slice w 3 9 == 0 && slice w 15 4 == 0) (.mfirst (slice w 19 7) (slice w 12 3))
  | 6 => checked (slice w 3 9 == 0 && slice w 15 4 == 0 && slice w 21 5 == 1) (.mtoq (slice w 19 2) (slice w 12 3))
  | 7 => checked (slice w 3 9 == 0 && slice w 22 4 == 0) (.vckm (slice w 19 3) (slice w 12 7))
  | _ => .noMinor

/-- Major 0x28 (R216). -/
def decode28 (w : Word32) : Decoded :=
  match (slice w 0 3).toNat with
  | 0 => .instr (.vslideup (slice w 19 7) (slice w 12 7) (slice w 5 7) (slice w 3 2))
  | 1 => .instr (.vslidedn (slice w 19 7) (slice w 12 7) (slice w 5 7) (slice w 3 2))
  | 2 => .instr (.vrgather (slice w 19 7) (slice w 12 7) (slice w 5 7) (slice w 3 2))
  | 3 => checked (slice w 3 2 == 0 && slice w 8 4 == 0) (.vcompress (slice w 19 7) (slice w 12 7) (slice w 5 3))
  | 4 => checked (slice w 3 2 == 0 && slice w 8 4 == 0) (.vexpand (slice w 19 7) (slice w 12 7) (slice w 5 3))
  | 5 => checked (slice w 5 7 == 0) (.vsplat (slice w 19 7) (slice w 12 7) (slice w 3 2))
  | 6 => .instr (.vmerge (slice w 19 7) (slice w 12 7) (slice w 5 7) (slice w 3 2))
  | 7 => checked (slice w 5 14 == 0) (.vid (slice w 19 7) (slice w 3 2))
  | _ => .noMinor

/-- Major 0x29 (R216). -/
def decode29 (w : Word32) : Decoded :=
  match (slice w 0 3).toNat with
  | 0 => checked (slice w 5 7 == 0) (.vredsum (slice w 19 7) (slice w 12 7) (slice w 3 2))
  | 1 => checked (slice w 5 7 == 0) (.vredmin (slice w 19 7) (slice w 12 7) (slice w 3 2))
  | 2 => checked (slice w 5 7 == 0) (.vredmax (slice w 19 7) (slice w 12 7) (slice w 3 2))
  | 3 => checked (slice w 5 7 == 0) (.vfredosum (slice w 19 7) (slice w 12 7) (slice w 3 2))
  | 4 => checked (slice w 5 7 == 0) (.vfredtsum (slice w 19 7) (slice w 12 7) (slice w 3 2))
  | 5 => checked (slice w 5 7 == 0) (.vfredmin (slice w 19 7) (slice w 12 7) (slice w 3 2))
  | 6 => checked (slice w 5 7 == 0) (.vfredmax (slice w 19 7) (slice w 12 7) (slice w 3 2))
  | 7 => checked (slice w 5 7 == 0) (.vscan (slice w 19 7) (slice w 12 7) (slice w 3 2))
  | _ => .noMinor

/-- Major 0x2A (R216). -/
def decode2A (w : Word32) : Decoded :=
  match (slice w 0 3).toNat with
  | 0 => .instr (.vaddi (slice w 19 7) (slice w 12 7) (slice w 5 7) (slice w 3 2))
  | 1 => .instr (.vandi (slice w 19 7) (slice w 12 7) (slice w 5 7) (slice w 3 2))
  | 2 => .instr (.vori (slice w 19 7) (slice w 12 7) (slice w 5 7) (slice w 3 2))
  | 3 => .instr (.vxori (slice w 19 7) (slice w 12 7) (slice w 5 7) (slice w 3 2))
  | 4 => .instr (.vslli (slice w 19 7) (slice w 12 7) (slice w 5 7) (slice w 3 2))
  | 5 => .instr (.vsrli (slice w 19 7) (slice w 12 7) (slice w 5 7) (slice w 3 2))
  | 6 => .instr (.vsrai (slice w 19 7) (slice w 12 7) (slice w 5 7) (slice w 3 2))
  | 7 => checked (slice w 12 7 == 0) (.vmvi (slice w 19 7) (slice w 5 7) (slice w 3 2))
  | _ => .noMinor

/-- Major 0x2B (R216). -/
def decode2B (w : Word32) : Decoded :=
  match (slice w 0 3).toNat with
  | 0 => .instr (.vlt (slice w 19 7) (slice w 12 7) (slice w 5 7) (slice w 3 2))
  | 1 => .instr (.vltck (slice w 19 7) (slice w 12 7) (slice w 5 7) (slice w 3 2))
  | 2 => checked (slice w 5 7 == 0) (.vlr (slice w 19 7) (slice w 12 7) (slice w 3 2))
  | 3 => .instr (.vlrs (slice w 19 7) (slice w 12 7) (slice w 5 7) (slice w 3 2))
  | 4 => .instr (.vlrx (slice w 19 7) (slice w 12 7) (slice w 5 7) (slice w 3 2))
  | 5 => checked (slice w 5 7 == 0) (.vlrff (slice w 19 7) (slice w 12 7) (slice w 3 2))
  | 6 => checked (slice w 5 7 == 0) (.vlrsc (slice w 19 7) (slice w 12 7) (slice w 3 2))
  | _ => .noMinor

/-- Major 0x2C (R216). -/
def decode2C (w : Word32) : Decoded :=
  match (slice w 0 3).toNat with
  | 0 => .instr (.vstt (slice w 19 7) (slice w 12 7) (slice w 5 7) (slice w 3 2))
  | 1 => checked (slice w 5 7 == 0) (.vstr (slice w 19 7) (slice w 12 7) (slice w 3 2))
  | 2 => .instr (.vstrs (slice w 19 7) (slice w 12 7) (slice w 5 7) (slice w 3 2))
  | 3 => .instr (.vstrx (slice w 19 7) (slice w 12 7) (slice w 5 7) (slice w 3 2))
  | 4 => checked (slice w 5 7 == 0) (.vstrsc (slice w 19 7) (slice w 12 7) (slice w 3 2))
  | _ => .noMinor

/-- Major 0x2D (R216). -/
def decode2D (w : Word32) : Decoded :=
  match (slice w 0 3).toNat with
  | 0 => .instr (.vamoadd (slice w 19 7) (slice w 12 7) (slice w 5 7) (slice w 3 2))
  | 1 => .instr (.vamomin (slice w 19 7) (slice w 12 7) (slice w 5 7) (slice w 3 2))
  | 2 => .instr (.vamomax (slice w 19 7) (slice w 12 7) (slice w 5 7) (slice w 3 2))
  | 3 => .instr (.vamoswap (slice w 19 7) (slice w 12 7) (slice w 5 7) (slice w 3 2))
  | 4 => .instr (.vamoor (slice w 19 7) (slice w 12 7) (slice w 5 7) (slice w 3 2))
  | _ => .noMinor

/-- Major 0x2E (R216). -/
def decode2E (w : Word32) : Decoded :=
  match (slice w 0 3).toNat with
  | 0 => checked (slice w 5 7 == 0) (.vmv (slice w 19 7) (slice w 12 7) (slice w 3 2))
  | 1 => .instr (.vclmul (slice w 19 7) (slice w 12 7) (slice w 5 7) (slice w 3 2))
  | 2 => .instr (.vclmulh (slice w 19 7) (slice w 12 7) (slice w 5 7) (slice w 3 2))
  | 3 => checked (slice w 5 7 == 0) (.vpopc (slice w 19 7) (slice w 12 7) (slice w 3 2))
  | 4 => checked (slice w 5 7 == 0) (.vclz (slice w 19 7) (slice w 12 7) (slice w 3 2))
  | 5 => checked (slice w 5 7 == 0) (.vctz (slice w 19 7) (slice w 12 7) (slice w 3 2))
  | 6 => .instr (.vsel (slice w 19 7) (slice w 12 7) (slice w 5 7) (slice w 3 2))
  | 7 => checked (slice w 5 7 == 0) (.vnot (slice w 19 7) (slice w 12 7) (slice w 3 2))
  | _ => .noMinor

/-- Major 0x30 (R216). -/
def decode30 (w : Word32) : Decoded :=
  match (slice w 0 5).toNat with
  | 0 => checked (slice w 5 7 == 0) (.mbeam (slice w 19 7) (slice w 12 7))
  | 1 => checked (slice w 5 21 == 0) (.mswap)
  | 2 => checked (slice w 5 7 == 0) (.mseta (slice w 19 7) (slice w 12 7))
  | 3 => checked (slice w 5 7 == 0) (.mrow (slice w 19 7) (slice w 12 7))
  | 4 => checked (slice w 5 7 == 0) (.mrowt (slice w 19 7) (slice w 12 7))
  | 5 => if slice w 19 7 == 0 then checked (slice w 5 14 == 0) (.mzeroBare) else checked (slice w 5 14 == 0) (.mzero (slice w 19 7))
  | _ => .noMinor

/-- Major 0x31 (R216). -/
def decode31 (w : Word32) : Decoded :=
  match (slice w 0 5).toNat with
  | 0 => checked (slice w 7 5 == 0) (.xcfg (slice w 19 7) (slice w 12 7) (slice w 5 2))
  | 1 => checked (slice w 7 19 == 0) (.xclr (slice w 5 2))
  | 2 => checked (slice w 7 5 == 0 && slice w 19 7 == 0) (.xchk (slice w 12 7) (slice w 5 2))
  | 3 => checked (slice w 7 12 == 0) (.xeps (slice w 19 7) (slice w 5 2))
  | 4 => checked (slice w 7 12 == 0) (.xlsq (slice w 19 7) (slice w 5 2))
  | 5 => checked (slice w 7 5 == 0 && slice w 22 4 == 0) (.xtest (slice w 19 3) (slice w 12 7) (slice w 5 2))
  | 6 => checked (slice w 7 12 == 0 && slice w 21 5 == 1) (.xstat (slice w 19 2) (slice w 5 2))
  | _ => .noMinor

/-- The decoder of one word: checks 1 and 2 of R219, and the unused fields of check 6. -/
def decode (w : Word32) : Decoded :=
  match majorOf w with
  | 0x01 => decode01 w
  | 0x02 => .instr (.addi (slice w 19 7) (slice w 12 7) (slice w 0 12))
  | 0x03 => .instr (.andi (slice w 19 7) (slice w 12 7) (slice w 0 12))
  | 0x04 => .instr (.ori (slice w 19 7) (slice w 12 7) (slice w 0 12))
  | 0x05 => .instr (.xori (slice w 19 7) (slice w 12 7) (slice w 0 12))
  | 0x06 => .instr (.slti (slice w 19 7) (slice w 12 7) (slice w 0 12))
  | 0x07 => .instr (.sltiu (slice w 19 7) (slice w 12 7) (slice w 0 12))
  | 0x08 => decode08 w
  | 0x09 => .instr (.lih (slice w 19 7) (slice w 0 19))
  | 0x0A => decode0A w
  | 0x0B => decode0B w
  | 0x0C => decode0C w
  | 0x0D => decode0D w
  | 0x0E => .instr (.j (slice w 19 7) (slice w 0 19))
  | 0x0F => .instr (.jr (slice w 19 7) (slice w 12 7) (slice w 0 12))
  | 0x10 => decode10 w
  | 0x11 => decode11 w
  | 0x12 => decode12 w
  | 0x13 => decode13 w
  | 0x14 => decode14 w
  | 0x15 => decode15 w
  | 0x16 => decode16 w
  | 0x17 => decode17 w
  | 0x18 => decode18 w
  | 0x19 => decode19 w
  | 0x20 => checked (slice w 6 6 == 0) (.vsetvl (slice w 19 7) (slice w 12 7) (slice w 4 2) (slice w 0 4))
  | 0x21 => decode21 w
  | 0x22 => decode22 w
  | 0x23 => decode23 w
  | 0x24 => decode24 w
  | 0x25 => decode25 w
  | 0x26 => decode26 w
  | 0x27 => decode27 w
  | 0x28 => decode28 w
  | 0x29 => decode29 w
  | 0x2A => decode2A w
  | 0x2B => decode2B w
  | 0x2C => decode2C w
  | 0x2D => decode2D w
  | 0x2E => decode2E w
  | 0x2F => checked (slice w 12 14 == 0) (.wbase (slice w 0 12))
  | 0x30 => decode30 w
  | 0x31 => decode31 w
  | _ => .noMajor

/-- A word of four bytes, little-endian (R209). -/
def wordOfBytes (b0 b1 b2 b3 : Byte) : Word32 := b3 ++ b2 ++ b1 ++ b0

/-- The decoder on bytes: the first four are the word (R209), the rest is not read. -/
def decodeBytes (bs : List Byte) : Decoded :=
  match bs with
  | b0 :: b1 :: b2 :: b3 :: _ => decode (wordOfBytes b0 b1 b2 b3)
  | _ => .short

/-- The four bytes of a word, lowest address first (R209). -/
def bytesOfWord (w : Word32) : List Byte := [slice w 0 8, slice w 8 8, slice w 16 8, slice w 24 8]

/-! The encoder: the formats of R211, then one line per row. -/

/-- Format RRR (R211). -/
def rrr (op : BitVec 6) (a b c : BitVec 7) (fn : BitVec 5) : Word32 := op ++ a ++ b ++ c ++ fn

/-- Format RRI (R211). -/
def rri (op : BitVec 6) (a b : BitVec 7) (imm : BitVec 12) : Word32 := op ++ a ++ b ++ imm

/-- Formats RI and J (R211). -/
def ri (op : BitVec 6) (a : BitVec 7) (imm : BitVec 19) : Word32 := op ++ a ++ imm

/-- Formats LS and BR (R211); BR names its register fields b and c. -/
def ls (op : BitVec 6) (a b : BitVec 7) (sz : BitVec 3) (off : BitVec 9) : Word32 := op ++ a ++ b ++ sz ++ off

/-- Formats V3 and VI (R211). -/
def v3 (op : BitVec 6) (a b c : BitVec 7) (mk : BitVec 2) (fn : BitVec 3) : Word32 := op ++ a ++ b ++ c ++ mk ++ fn

/-- The word of an instruction; none for an event, which has no word. -/
def encode (i : Instr) : Option Word32 :=
  match i with
  | .add a b c => some (rrr 0x01#6 a b c 0#5)
  | .sub a b c => some (rrr 0x01#6 a b c 1#5)
  | .and a b c => some (rrr 0x01#6 a b c 2#5)
  | .or a b c => some (rrr 0x01#6 a b c 3#5)
  | .xor a b c => some (rrr 0x01#6 a b c 4#5)
  | .andn a b c => some (rrr 0x01#6 a b c 5#5)
  | .orn a b c => some (rrr 0x01#6 a b c 6#5)
  | .xnor a b c => some (rrr 0x01#6 a b c 7#5)
  | .sll a b c => some (rrr 0x01#6 a b c 8#5)
  | .srl a b c => some (rrr 0x01#6 a b c 9#5)
  | .sra a b c => some (rrr 0x01#6 a b c 10#5)
  | .rol a b c => some (rrr 0x01#6 a b c 11#5)
  | .ror a b c => some (rrr 0x01#6 a b c 12#5)
  | .slt a b c => some (rrr 0x01#6 a b c 13#5)
  | .sltu a b c => some (rrr 0x01#6 a b c 14#5)
  | .min a b c => some (rrr 0x01#6 a b c 15#5)
  | .max a b c => some (rrr 0x01#6 a b c 16#5)
  | .minu a b c => some (rrr 0x01#6 a b c 17#5)
  | .maxu a b c => some (rrr 0x01#6 a b c 18#5)
  | .mul a b c => some (rrr 0x01#6 a b c 19#5)
  | .mulh a b c => some (rrr 0x01#6 a b c 20#5)
  | .mulhu a b c => some (rrr 0x01#6 a b c 21#5)
  | .div a b c => some (rrr 0x01#6 a b c 22#5)
  | .divu a b c => some (rrr 0x01#6 a b c 23#5)
  | .rem a b c => some (rrr 0x01#6 a b c 24#5)
  | .remu a b c => some (rrr 0x01#6 a b c 25#5)
  | .clz a b => some (rrr 0x01#6 a b 0#7 26#5)
  | .ctz a b => some (rrr 0x01#6 a b 0#7 27#5)
  | .popc a b => some (rrr 0x01#6 a b 0#7 28#5)
  | .clmul a b c => some (rrr 0x01#6 a b c 29#5)
  | .clmulh a b c => some (rrr 0x01#6 a b c 30#5)
  | .addi a b i => some (rri 0x02#6 a b i)
  | .andi a b i => some (rri 0x03#6 a b i)
  | .ori a b i => some (rri 0x04#6 a b i)
  | .xori a b i => some (rri 0x05#6 a b i)
  | .slti a b i => some (rri 0x06#6 a b i)
  | .sltiu a b i => some (rri 0x07#6 a b i)
  | .slli a b n => some (rri 0x08#6 a b (0#6 ++ n))
  | .srli a b n => some (rri 0x08#6 a b (8#6 ++ n))
  | .srai a b n => some (rri 0x08#6 a b (16#6 ++ n))
  | .roli a b n => some (rri 0x08#6 a b (24#6 ++ n))
  | .rori a b n => some (rri 0x08#6 a b (32#6 ++ n))
  | .lih a i => some (ri 0x09#6 a i)
  | .ldB a b o => some (ls 0x0A#6 a b 0#3 o)
  | .ldBu a b o => some (ls 0x0A#6 a b 1#3 o)
  | .ldH a b o => some (ls 0x0A#6 a b 2#3 o)
  | .ldHu a b o => some (ls 0x0A#6 a b 3#3 o)
  | .ldW a b o => some (ls 0x0A#6 a b 4#3 o)
  | .ldWu a b o => some (ls 0x0A#6 a b 5#3 o)
  | .ldD a b o => some (ls 0x0A#6 a b 6#3 o)
  | .stB a b o => some (ls 0x0B#6 a b 0#3 o)
  | .stH a b o => some (ls 0x0B#6 a b 2#3 o)
  | .stW a b o => some (ls 0x0B#6 a b 4#3 o)
  | .stD a b o => some (ls 0x0B#6 a b 6#3 o)
  | .amoSwap a b c r => some (rrr 0x0C#6 a b c (0#4 ++ r))
  | .amoAdd a b c r => some (rrr 0x0C#6 a b c (1#4 ++ r))
  | .amoAnd a b c r => some (rrr 0x0C#6 a b c (2#4 ++ r))
  | .amoOr a b c r => some (rrr 0x0C#6 a b c (3#4 ++ r))
  | .amoXor a b c r => some (rrr 0x0C#6 a b c (4#4 ++ r))
  | .amoMin a b c r => some (rrr 0x0C#6 a b c (5#4 ++ r))
  | .amoMax a b c r => some (rrr 0x0C#6 a b c (6#4 ++ r))
  | .amoMinu a b c r => some (rrr 0x0C#6 a b c (7#4 ++ r))
  | .amoMaxu a b c r => some (rrr 0x0C#6 a b c (8#4 ++ r))
  | .amoCas a b c r => some (rrr 0x0C#6 a b c (9#4 ++ r))
  | .beq b c o => some (ls 0x0D#6 b c 0#3 o)
  | .bne b c o => some (ls 0x0D#6 b c 1#3 o)
  | .blt b c o => some (ls 0x0D#6 b c 2#3 o)
  | .bge b c o => some (ls 0x0D#6 b c 3#3 o)
  | .bltu b c o => some (ls 0x0D#6 b c 4#3 o)
  | .bgeu b c o => some (ls 0x0D#6 b c 5#3 o)
  | .j a o => some (ri 0x0E#6 a o)
  | .jr a b i => some (rri 0x0F#6 a b i)
  | .csrrd a n => some (rri 0x10#6 a 0#7 (0#2 ++ n))
  | .csrwr b n => some (rri 0x10#6 0#7 b (1#2 ++ n))
  | .csrset b n => some (rri 0x10#6 0#7 b (2#2 ++ n))
  | .csrclr b n => some (rri 0x10#6 0#7 b (3#2 ++ n))
  | .cplaunch a => some (rri 0x10#6 a 0#7 143#12)
  | .featack b => some (rri 0x10#6 0#7 b 1537#12)
  | .fenceSv s => some (ri 0x11#6 0#7 (0#14 ++ s ++ 0#2))
  | .fenceVs s => some (ri 0x11#6 0#7 (0#14 ++ s ++ 1#2))
  | .fenceVv s => some (ri 0x11#6 0#7 (0#14 ++ s ++ 2#2))
  | .fenceAll s => some (ri 0x11#6 0#7 (0#14 ++ s ++ 3#2))
  | .post b => some (rrr 0x12#6 0#7 b 0#7 6#5)
  | .killck b c => some (rrr 0x12#6 0#7 b c 7#5)
  | .scopeof a b c => some (rrr 0x12#6 a b c 8#5)
  | .setscope b => some (rrr 0x12#6 0#7 b 0#7 10#5)
  | .glaunch a b c => some (rrr 0x12#6 a b c 11#5)
  | .cpwait b c => some (rrr 0x13#6 0#7 b c 0#5)
  | .cptest a b s => some (rrr 0x13#6 a b s 1#5)
  | .cpcancel b => some (rrr 0x13#6 0#7 b 0#7 2#5)
  | .bgather a b t => some (rrr 0x13#6 a b t 3#5)
  | .remq b c => some (rrr 0x13#6 0#7 b c 4#5)
  | .remqa a b c => some (rrr 0x13#6 a b c 5#5)
  | .ppush a b => some (rrr 0x13#6 a b 0#7 6#5)
  | .sld a b => some (rrr 0x14#6 a b 0#7 0#5)
  | .slds a b c => some (rrr 0x14#6 a b c 1#5)
  | .sldz a b c => some (rrr 0x14#6 a b c 2#5)
  | .binit b c => some (rrr 0x15#6 0#7 b c 0#5)
  | .bexpect b c => some (rrr 0x15#6 0#7 b c 1#5)
  | .barrive b => some (rrr 0x15#6 0#7 b 0#7 2#5)
  | .bwait b c => some (rrr 0x15#6 0#7 b c 3#5)
  | .btest a b => some (rrr 0x15#6 a b 0#7 4#5)
  | .rrot a b c => some (rrr 0x15#6 a b c 6#5)
  | .smv a t c => some (rrr 0x16#6 a t c 0#5)
  | .ssub a t c => some (rrr 0x16#6 a t c 1#5)
  | .spull b t => some (rrr 0x16#6 0#7 b t 2#5)
  | .sstop b => some (rrr 0x16#6 0#7 b 0#7 3#5)
  | .tdset t b => some (rrr 0x17#6 t b 0#7 0#5)
  | .tdget a t c => some (rrr 0x17#6 a t c 1#5)
  | .tdsync t s => some (rrr 0x17#6 t 0#7 s 2#5)
  | .tdchk a t => some (rrr 0x17#6 a t 0#7 3#5)
  | .rird a b => some (rrr 0x18#6 a b 0#7 0#5)
  | .ritag a b => some (rrr 0x18#6 a b 0#7 1#5)
  | .rimin a b c => some (rrr 0x18#6 a b c 2#5)
  | .rimax a b c => some (rrr 0x18#6 a b c 3#5)
  | .rireset a b c => some (rrr 0x18#6 a b c 4#5)
  | .qmap a b c => some (rrr 0x19#6 a b c 0#5)
  | .qunmap a b => some (rrr 0x19#6 a b 0#7 1#5)
  | .qsave a b => some (rrr 0x19#6 a b 0#7 2#5)
  | .qload a b => some (rrr 0x19#6 a b 0#7 3#5)
  | .tlbir b c => some (rrr 0x19#6 0#7 b c 4#5)
  | .vttset a b c => some (rrr 0x19#6 a b c 6#5)
  | .preset a b => some (rrr 0x19#6 a b 0#7 7#5)
  | .presume b c => some (rrr 0x19#6 0#7 b c 8#5)
  | .kickclr b c => some (rrr 0x19#6 0#7 b c 9#5)
  | .vsetvl a b g t => some (rri 0x20#6 a b (0#6 ++ g ++ t))
  | .vadd a b c m => some (v3 0x21#6 a b c m 0#3)
  | .vsub a b c m => some (v3 0x21#6 a b c m 1#3)
  | .vmul a b c m => some (v3 0x21#6 a b c m 2#3)
  | .vmulh a b c m => some (v3 0x21#6 a b c m 3#3)
  | .vand a b c m => some (v3 0x21#6 a b c m 4#3)
  | .vor a b c m => some (v3 0x21#6 a b c m 5#3)
  | .vxor a b c m => some (v3 0x21#6 a b c m 6#3)
  | .vsll a b c m => some (v3 0x21#6 a b c m 7#3)
  | .vsrl a b c m => some (v3 0x22#6 a b c m 0#3)
  | .vsra a b c m => some (v3 0x22#6 a b c m 1#3)
  | .vmin a b c m => some (v3 0x22#6 a b c m 2#3)
  | .vmax a b c m => some (v3 0x22#6 a b c m 3#3)
  | .vminu a b c m => some (v3 0x22#6 a b c m 4#3)
  | .vmaxu a b c m => some (v3 0x22#6 a b c m 5#3)
  | .vsadd a b c m => some (v3 0x22#6 a b c m 6#3)
  | .vssub a b c m => some (v3 0x22#6 a b c m 7#3)
  | .vfadd a b c m => some (v3 0x23#6 a b c m 0#3)
  | .vfsub a b c m => some (v3 0x23#6 a b c m 1#3)
  | .vfmul a b c m => some (v3 0x23#6 a b c m 2#3)
  | .vfdiv a b c m => some (v3 0x23#6 a b c m 3#3)
  | .vfmin a b c m => some (v3 0x23#6 a b c m 4#3)
  | .vfmax a b c m => some (v3 0x23#6 a b c m 5#3)
  | .vfsqrt a b m => some (v3 0x23#6 a b 0#7 m 6#3)
  | .vfsgn a b c m => some (v3 0x23#6 a b c m 7#3)
  | .vfma a b c m => some (v3 0x24#6 a b c m 0#3)
  | .vfms a b c m => some (v3 0x24#6 a b c m 1#3)
  | .vfnma a b c m => some (v3 0x24#6 a b c m 2#3)
  | .vfnms a b c m => some (v3 0x24#6 a b c m 3#3)
  | .vfmaw a b c m => some (v3 0x24#6 a b c m 4#3)
  | .vcvtRne a b t m => some (v3 0x25#6 a b (0#3 ++ t) m 0#3)
  | .vcvtRtz a b t m => some (v3 0x25#6 a b (0#3 ++ t) m 1#3)
  | .vcvtRdn a b t m => some (v3 0x25#6 a b (0#3 ++ t) m 2#3)
  | .vcvtRup a b t m => some (v3 0x25#6 a b (0#3 ++ t) m 3#3)
  | .vcvtRneSat a b t m => some (v3 0x25#6 a b (0#3 ++ t) m 4#3)
  | .vcvtRtzSat a b t m => some (v3 0x25#6 a b (0#3 ++ t) m 5#3)
  | .vceq a b c m => some (v3 0x26#6 (0#4 ++ a) b c m 0#3)
  | .vcne a b c m => some (v3 0x26#6 (0#4 ++ a) b c m 1#3)
  | .vclt a b c m => some (v3 0x26#6 (0#4 ++ a) b c m 2#3)
  | .vcle a b c m => some (v3 0x26#6 (0#4 ++ a) b c m 3#3)
  | .vcltu a b c m => some (v3 0x26#6 (0#4 ++ a) b c m 4#3)
  | .vfceq a b c m => some (v3 0x26#6 (0#4 ++ a) b c m 5#3)
  | .vfclt a b c m => some (v3 0x26#6 (0#4 ++ a) b c m 6#3)
  | .vfcle a b c m => some (v3 0x26#6 (0#4 ++ a) b c m 7#3)
  | .mand a b c => some (v3 0x27#6 (0#4 ++ a) (0#4 ++ b) (0#4 ++ c) 0#2 0#3)
  | .mor a b c => some (v3 0x27#6 (0#4 ++ a) (0#4 ++ b) (0#4 ++ c) 0#2 1#3)
  | .mxor a b c => some (v3 0x27#6 (0#4 ++ a) (0#4 ++ b) (0#4 ++ c) 0#2 2#3)
  | .mandn a b c => some (v3 0x27#6 (0#4 ++ a) (0#4 ++ b) (0#4 ++ c) 0#2 3#3)
  | .mpopc a b => some (v3 0x27#6 a (0#4 ++ b) 0#7 0#2 4#3)
  | .mfirst a b => some (v3 0x27#6 a (0#4 ++ b) 0#7 0#2 5#3)
  | .mtoq a b => some (v3 0x27#6 (1#5 ++ a) (0#4 ++ b) 0#7 0#2 6#3)
  | .vckm a b => some (v3 0x27#6 (0#4 ++ a) b 0#7 0#2 7#3)
  | .vslideup a b c m => some (v3 0x28#6 a b c m 0#3)
  | .vslidedn a b c m => some (v3 0x28#6 a b c m 1#3)
  | .vrgather a b c m => some (v3 0x28#6 a b c m 2#3)
  | .vcompress a b c => some (v3 0x28#6 a b (0#4 ++ c) 0#2 3#3)
  | .vexpand a b c => some (v3 0x28#6 a b (0#4 ++ c) 0#2 4#3)
  | .vsplat a b m => some (v3 0x28#6 a b 0#7 m 5#3)
  | .vmerge a b c m => some (v3 0x28#6 a b c m 6#3)
  | .vid a m => some (v3 0x28#6 a 0#7 0#7 m 7#3)
  | .vredsum a b m => some (v3 0x29#6 a b 0#7 m 0#3)
  | .vredmin a b m => some (v3 0x29#6 a b 0#7 m 1#3)
  | .vredmax a b m => some (v3 0x29#6 a b 0#7 m 2#3)
  | .vfredosum a b m => some (v3 0x29#6 a b 0#7 m 3#3)
  | .vfredtsum a b m => some (v3 0x29#6 a b 0#7 m 4#3)
  | .vfredmin a b m => some (v3 0x29#6 a b 0#7 m 5#3)
  | .vfredmax a b m => some (v3 0x29#6 a b 0#7 m 6#3)
  | .vscan a b m => some (v3 0x29#6 a b 0#7 m 7#3)
  | .vaddi a b i m => some (v3 0x2A#6 a b i m 0#3)
  | .vandi a b i m => some (v3 0x2A#6 a b i m 1#3)
  | .vori a b i m => some (v3 0x2A#6 a b i m 2#3)
  | .vxori a b i m => some (v3 0x2A#6 a b i m 3#3)
  | .vslli a b i m => some (v3 0x2A#6 a b i m 4#3)
  | .vsrli a b i m => some (v3 0x2A#6 a b i m 5#3)
  | .vsrai a b i m => some (v3 0x2A#6 a b i m 6#3)
  | .vmvi a i m => some (v3 0x2A#6 a 0#7 i m 7#3)
  | .vlt a t c m => some (v3 0x2B#6 a t c m 0#3)
  | .vltck a t c m => some (v3 0x2B#6 a t c m 1#3)
  | .vlr a b m => some (v3 0x2B#6 a b 0#7 m 2#3)
  | .vlrs a b c m => some (v3 0x2B#6 a b c m 3#3)
  | .vlrx a b c m => some (v3 0x2B#6 a b c m 4#3)
  | .vlrff a b m => some (v3 0x2B#6 a b 0#7 m 5#3)
  | .vlrsc a b m => some (v3 0x2B#6 a b 0#7 m 6#3)
  | .vstt t b c m => some (v3 0x2C#6 t b c m 0#3)
  | .vstr a b m => some (v3 0x2C#6 a b 0#7 m 1#3)
  | .vstrs a b c m => some (v3 0x2C#6 a b c m 2#3)
  | .vstrx a b c m => some (v3 0x2C#6 a b c m 3#3)
  | .vstrsc a b m => some (v3 0x2C#6 a b 0#7 m 4#3)
  | .vamoadd a b c m => some (v3 0x2D#6 a b c m 0#3)
  | .vamomin a b c m => some (v3 0x2D#6 a b c m 1#3)
  | .vamomax a b c m => some (v3 0x2D#6 a b c m 2#3)
  | .vamoswap a b c m => some (v3 0x2D#6 a b c m 3#3)
  | .vamoor a b c m => some (v3 0x2D#6 a b c m 4#3)
  | .vmv a b m => some (v3 0x2E#6 a b 0#7 m 0#3)
  | .vclmul a b c m => some (v3 0x2E#6 a b c m 1#3)
  | .vclmulh a b c m => some (v3 0x2E#6 a b c m 2#3)
  | .vpopc a b m => some (v3 0x2E#6 a b 0#7 m 3#3)
  | .vclz a b m => some (v3 0x2E#6 a b 0#7 m 4#3)
  | .vctz a b m => some (v3 0x2E#6 a b 0#7 m 5#3)
  | .vsel a b c m => some (v3 0x2E#6 a b c m 6#3)
  | .vnot a b m => some (v3 0x2E#6 a b 0#7 m 7#3)
  | .wbase i => some (rri 0x2F#6 0#7 0#7 i)
  | .mbeam t b => some (rrr 0x30#6 t b 0#7 0#5)
  | .mseta t b => some (rrr 0x30#6 t b 0#7 2#5)
  | .mrow a b => some (rrr 0x30#6 a b 0#7 3#5)
  | .mrowt a b => some (rrr 0x30#6 a b 0#7 4#5)
  | .mzero a => some (rrr 0x30#6 a 0#7 0#7 5#5)
  | .xcfg i b c => some (rrr 0x31#6 i b (0#5 ++ c) 0#5)
  | .xclr c => some (rrr 0x31#6 0#7 0#7 (0#5 ++ c) 1#5)
  | .xchk b c => some (rrr 0x31#6 0#7 b (0#5 ++ c) 2#5)
  | .xeps a c => some (rrr 0x31#6 a 0#7 (0#5 ++ c) 3#5)
  | .xlsq a c => some (rrr 0x31#6 a 0#7 (0#5 ++ c) 4#5)
  | .xtest a b c => some (rrr 0x31#6 (0#4 ++ a) b (0#5 ++ c) 5#5)
  | .xstat a c => some (rrr 0x31#6 (1#5 ++ a) 0#7 (0#5 ++ c) 6#5)
  | .ecall => some (rrr 0x12#6 0#7 0#7 0#7 0#5)
  | .ebreak => some (rrr 0x12#6 0#7 0#7 0#7 1#5)
  | .eret => some (rrr 0x12#6 0#7 0#7 0#7 2#5)
  | .wfi => some (rrr 0x12#6 0#7 0#7 0#7 3#5)
  | .halt => some (rrr 0x12#6 0#7 0#7 0#7 4#5)
  | .stepend => some (rrr 0x12#6 0#7 0#7 0#7 5#5)
  | .snap => some (rrr 0x12#6 0#7 0#7 0#7 9#5)
  | .tbar => some (rrr 0x15#6 0#7 0#7 0#7 5#5)
  | .tlbsync => some (rrr 0x19#6 0#7 0#7 0#7 5#5)
  | .mswap => some (rrr 0x30#6 0#7 0#7 0#7 1#5)
  | .mzeroBare => some (rrr 0x30#6 0#7 0#7 0#7 5#5)
  | .fencePairComplete => none
  | .streamLoadFill => none
  | .smvChunk => none
  | .sillTileFill => none
  | .sillSlotPull => none
  | .subscriptionEnd => none
  | .ridgeForward => none
  | .ridgeCopyUpdate => none
  | .tlbAck => none
  | .beamLoadDone => none
  | .rowComplete => none
  | .kick => none
  | .recordRead => none
  | .run => none
  | .copy => none
  | .graph => none
  | .select => none
  | .fence => none
  | .signal => none
  | .wait => none
  | .waitReread => none
  | .nop => none
  | .placeStep => none
  | .regionAgeing => none
  | .preempt => none
  | .stepRetire => none
  | .spliceBoundary => none
  | .timeout => none
  | .qdeadlock => none
  | .domainReset => none
  | .park => none
  | .parkNoticeRetry => none
  | .steal => none
  | .recordDelivery => none
  | .lentTimeout => none
  | .chunkStart => none
  | .chunkLanding => none
  | .powerInputChange => none
  | .powerGoodTimer => none
  | .powerSample => none
  | .thermalTrip => none
  | .boot => none
  | .bootctl => none
  | .restart => none
  | .mailbox => none
  | .pfBar2Access => none
  | .apertureAccess => none
  | .functionLevelReset => none
  | .flrClear => none
  | .flrTimeout => none
  | .spdmRequest => none
  | .podFormed => none
  | .linkReplay => none
  | .linkDown => none
  | .snapPin => none
  | .trussBarrierRelease => none
  | .linkUp => none
  | .debuggerHalt => none

/-- An event of the device has no word (spec/95). -/
def Instr.isEvent (i : Instr) : Bool := (encode i).isNone

/-- The word EVAL holds for a trap of the checks 1..6 (R219); 0 for an event, which raises none. -/
def Instr.word (i : Instr) : Word32 := (encode i).getD 0

/-- The instruction the decoder reads from the word of a table row: the row has nbits bits, in whole bytes, and
every bit above them is 0 (R209: one 32-bit little-endian word). A row without a word has no bits and gives none. -/
def decodeTableWord (nbits w : Nat) : Option Instr :=
  if nbits = 0 then none
  else
    match decodeBytes (bytesOfWord (BitVec.ofNat 32 (w % 2 ^ nbits))) with
    | .instr i => some i
    | _ => none

end Sys2Proof
end

