-- ==== Sys2Proof/Machine/State.lean ====
section
/-! DEFINITION. The state of the module: every piece of state the spec gives it, as plain data, and State.reset.
The machine is many agents (R349); one step moves one of them. State.agenda, State.cur, State.rr, State.free,
State.nextId, State.limit and State.ev are the model's own fields; everything else is the spec's, each field with its rule. -/

namespace Sys2Proof.Machine

/-- The agents that execute instructions (R46, R49). A hart is numbered by the low 12 bits of its HARTID
(R16, R106): bay x 8 + hart in the bay. -/
inductive Agent where
  /-- the A-stream of a hart. -/
  | aStream (h : Nat)
  /-- the E-stream of a hart. -/
  | eStream (h : Nat)
  /-- a plate core, 0..3. -/
  | plate (p : Nat)
  deriving DecidableEq, Repr

/-- Why the machine as a whole stops. -/
inductive Fault where
  /-- raised by step when the module has no power (R23) and the agenda holds no power event. Safe: nothing
  executes on the hardware either. -/
  | unpowered
  deriving DecidableEq, Repr

/-- Why an instruction is refused. -/
inductive Refusal where
  /-- raised by the dispatch for an instruction without a meaning yet. Safe: no claim about it can be proved. -/
  | notModelled (mnemonic : String)
  deriving DecidableEq, Repr

/-- The cause codes of R385. -/
inductive Cause where
  | none | illop | stream | illvt | regrange | priv | feature | pfault | pprot | vrange | align | bounds
  | elided | scope | fpof | fpuf | fpdz | fpnv | fpnx | qdeadlock | ecall | ebreak | cperr | uncorr
  | timeout | torn | overlap
  deriving DecidableEq, Repr

/-- Why a stream is not at a plain instruction boundary (the wait states of R415). -/
inductive Wait where
  /-- running. -/
  | none
  /-- waits for entries of the queues it pops, or for space in those it pushes (R148, R149). -/
  | queue (pops pushes : List Nat)
  /-- stands at a directional fence of this kind and scope (R244). -/
  | fence (kind : Nat) (scope : BitVec 3)
  | cpwait
  | bwait
  /-- has arrived at a TBAR (R330). -/
  | tbar
  /-- stands at an RROT with these fields (R330). -/
  | rrot (a b c : BitVec 7)
  /-- stands at an MROWT with these fields (R306). -/
  | mrowt (a b : BitVec 7)
  /-- waits on a credit, an engine queue, a row in flight or a beam load. -/
  | stall
  deriving DecidableEq, Repr

/-- An entry of an A→E queue: a register image, or a stream load's reservation (R150, R328). -/
inductive AEntry where
  /-- holds a value. -/
  | full (v : VReg)
  /-- reserved by a stream load whose data, v, has not arrived. -/
  | filling (v : VReg)
  /-- reserved by a stream load that will fail at this address. -/
  | failing (va : W64)
  /-- marked failed. -/
  | failed (va : W64)
  deriving DecidableEq, Repr

/-- The eight copy shadows (R108). -/
structure Shadows where
  src : W64
  dst : W64
  shape : W64
  sstr : W64
  dstr : W64
  opt : W64
  pad : W64
  bar : W64
  deriving DecidableEq, Repr

/-- The four states of a transfer slot (R318). -/
inductive XState where
  | free | active | done | failed
  deriving DecidableEq, Repr

/-- A chunk in flight (R325): the bytes it will write, at the physical cells its translation gave, and the
flags its conversion raised. -/
structure Flight where
  chunk : Nat
  writes : List Host.Cell
  bytes : Nat
  flags : BitVec 5
  deriving DecidableEq, Repr

/-- What a transfer does. -/
inductive Job where
  | none
  /-- a copy by CPLAUNCH or a COPY command (R323). -/
  | copy
  /-- BGATHER: tensor image, whether the splice buffer of the step stands for it (R377), block coordinates, out-of-bounds bits
  (R326). -/
  | gather (td : BitVec 1024) (buf : Bool) (coords : List (List Int)) (oob : BitVec 64)
  /-- SMV: tensor image and offsets (R334). -/
  | smv (td : BitVec 1024) (c : W64)
  /-- SSUB: tensor image, whether the splice buffer of the step stands for it (R377), ring offset, number and size of its
  slots, next tile, per slot the state the sill last saw and the tile that last filled it (R335). -/
  | ssub (td : BitVec 1024) (buf : Bool) (off nslot slotsz next : Nat) (states tiles : Tab Nat)
  deriving DecidableEq, Repr

/-- A transfer and its slot (R204, R318..R321). -/
structure Xfer where
  state : XState
  gen : BitVec 8
  bitmap : BitVec 64
  covered : BitVec 64
  status : BitVec 8
  flags : BitVec 5
  sill : Bool
  launchPc : W64
  /-- orders the launches of a hart (R42). -/
  launched : Nat
  sh : Shadows
  job : Job
  chunks : Nat
  started : BitVec 64
  flight : List Flight
  /-- paused chunks with the address each waits for (R319). -/
  paused : List (Nat × Nat)
  cancelled : Bool
  deriving DecidableEq, Repr

/-- A beam with its scale store (R297, R298): row j as one register image of K elements, and the scales of column j
with block b in byte b. -/
structure Beam where
  empty : Bool
  fmt : BitVec 4
  tn : Nat
  tk : Nat
  data : Tab VReg
  scale : Tab W64
  deriving DecidableEq, Repr

/-- How far an instruction that has stopped between its element groups has come (R99, R110, R281): the first element still to
do; the scope, the floating-point modes and the instruction word it read when it started (R107, R88); and SMISSCNT as it
stood then (R206). -/
structure Prog where
  elem : Nat
  escope : BitVec 3
  fpen : BitVec 5
  frm : BitVec 2
  word : Word32
  smiss : BitVec 32
  deriving DecidableEq, Repr

/-- The L1 data cache of a bay (R124), byte by byte: bytes written and not yet at their home, clean copies, and its 8-byte
words that hold an uncorrectable error (R128). -/
structure L1 where
  dirty : Tab Byte
  clean : Tab Byte
  bad : List Nat
  deriving DecidableEq, Repr

/-- A row operation in flight (R305). -/
structure Row where
  arow : VReg
  kt : Nat
  latch : W64
  sfmt : BitVec 4
  beam : Beam
  /-- first main register of the accumulator group, as named at issue (R271). -/
  acc : Nat
  pc : W64
  /-- FPEN as read at issue (R88). -/
  fpen : BitVec 5
  /-- clk at which the row was issued (R296). -/
  issued : Nat
  /-- clk at which the row leaves the matrix unit, once the unit serves it (R296, R383). -/
  occEnd : Option Nat
  deriving DecidableEq, Repr

/-- Enabled flags of a completed row, not yet trapped (R87). -/
structure RowTrap where
  acc : Nat
  size : Nat
  pc : W64
  flags : BitVec 5
  deriving DecidableEq, Repr

/-- An extrapolating accumulator (R307). -/
structure XAcc where
  depth : Nat
  count : Nat
  wdepth : Nat
  thresh : W64
  tol : W64
  conv : BitVec 32
  stag : BitVec 32
  nzd : BitVec 32
  wt : Tab W64
  last : Tab (BitVec 32)
  /-- history vectors, oldest first, each a table of L FP64 values. -/
  hist : List (Tab W64)
  deriving DecidableEq, Repr

/-- The context of a step, as the tables gave it at placement (R182). -/
structure Ctx where
  rcb : Nat
  ctxRcb : Nat
  asid : Nat
  vf : Nat
  region : Nat
  ptbase : Nat
  vttbase : Nat
  tdtbase : Nat
  deriving DecidableEq, Repr

/-- The identity a step was placed with (R44, R106). -/
structure Ident where
  stepix : List W64
  stepid : W64
  kernid : BitVec 32
  opbaddr : Addr
  resword : W64
  rsize : Nat
  rbase : Nat
  scrb : Nat
  lanes : Nat
  truss : Bool
  pool : Bool
  spliced : Bool
  resumed : Bool
  snapped : Bool
  /-- the RUN command whose node the step belongs to. -/
  node : Nat
  /-- linear step number of the walker (R39). -/
  lin : Nat
  policy : Nat
  steplim : Nat
  capture : BitVec 32
  etvec : Addr
  /-- FPEN copied at placement (R32). -/
  fpen0 : BitVec 5
  /-- memory as it stood at placement, page tables included: the old words that a fetch may return (R210). -/
  code : List Host.Cell
  deriving DecidableEq, Repr

/-- A graph as a launch has read it (R373): its first GEN and its node records. -/
structure GraphSnap where
  /-- the region it is launched in. -/
  rcb : Nat
  gen : Nat
  nodes : List (BitVec 512)
  deriving DecidableEq, Repr

/-- Scalar registers and control registers of a hart's A-stream, with the trap registers (R96, R105, R386). -/
structure ARegs where
  x : Tab W64
  pc : W64
  ended : Bool
  wait : Wait
  epc : W64
  ecause : W64
  eval : W64
  elaunch : W64
  etid : W64
  eelem : W64
  ascope : BitVec 3
  escope : BitVec 3
  instret : W64
  cp : Shadows
  tbarrived : Bool
  /-- a REMQA that has sent its record: its name, and the answer once it is back (R333). -/
  remq : Option (Nat × Option Nat)
  /-- a GLAUNCH that has made its snapshot and has still to read GEN again (R256, R373). -/
  gsnap : Option GraphSnap
  deriving DecidableEq, Repr

/-- Vector registers and configuration of a hart's E-stream (R97..R102, R146, R149). -/
structure ERegs where
  pc : W64
  ended : Bool
  wait : Wait
  l : Tab VReg
  staging : Option VReg
  o : Tab VReg
  main : Tab VReg
  wb : Nat
  mask : Tab MaskReg
  vl : Nat
  vill : Bool
  group : BitVec 2
  fmt : BitVec 4
  vstart : Nat
  kept : Bool
  latch : List VReg
  /-- the queue each latched entry came from (R149). -/
  latchQ : List Nat
  reserved : Option Nat
  fflags : BitVec 5
  fpen : BitVec 5
  frm : BitVec 2
  smiss : BitVec 32
  /-- the progress of an instruction the stream stands inside; VSTART shows it only at a stop (R99, R110). -/
  prog : Option Prog
  /-- what the A-stream has done to VSTART while the stream stood inside an instruction, until the next boundary (R109, R110): the
  bits that stay as the stream leaves them, and the bits that become 1. -/
  vsw : Option (BitVec 12 × BitVec 12)
  /-- 8-byte words of main registers with an uncorrectable error (R128, R398): register x 16 + word. -/
  bad : List Nat
  deriving DecidableEq, Repr

/-- Matrix and extrapolation state of a hart (R103, R107, R297). -/
structure MRegs where
  active : Beam
  loading : Beam
  loadBusy : Bool
  abeam : Bool
  lerr : Option Addr
  /-- an uncorrectable error the load in flight has met, recorded when it ends (R301). -/
  lerrNext : Option Addr
  sfmt : BitVec 4
  kt : Nat
  latch : W64
  rows : List Row
  rowTraps : List RowTrap
  xa : Tab XAcc
  deriving DecidableEq, Repr

/-- A request that the step leave its harts (R192, R390..R393): reason 0 a fault park, 1 a pre-emption, 2 a switch, as the
frame records them; 3 a reset of its domain. -/
structure ParkReq where
  reason : Nat
  cause : Cause
  va : W64
  acc : Nat
  deriving DecidableEq, Repr

/-- Queues, transfers, scratch and placement of a hart. -/
structure HRes where
  ae : Tab (List AEntry)
  ea : Tab (List W64)
  slots : Tab Xfer
  /-- failures no CPWAIT or VCKM has reported, by launch number: TID and launch PC (R42). -/
  pendFail : Tab (W64 × W64)
  /-- offset of the allocation in the bay's scratchpad (R118). -/
  alloc : Nat
  /-- start and bound of the running body inside the allocation (R377). -/
  base : Nat
  bound : Nat
  allocSize : Nat
  dirty : List Nat
  /-- placed time in clk before the last placement, and the clk of that placement (R45). -/
  placedBefore : Nat
  placedAt : Nat
  pend : Option ParkReq
  /-- a PRESUME has covered the page of a request to park that the device has not yet carried out (R393). -/
  presumed : Bool
  /-- the command whose waiting step a pre-emption is for (R372). -/
  pendFor : Option Nat
  /-- page waited for in place (R183). -/
  waitPage : Option Nat
  /-- redirected tensor identifier of a spliced step: identifier, tile number, buffer start in the allocation,
  descriptor as spliced (R377). -/
  redirect : Option (Nat × Nat × Nat × BitVec 1024)
  /-- a spliced step runs the consumer's body. -/
  bodyC : Bool
  deriving DecidableEq, Repr

/-- A hart (R46). -/
structure Hart where
  occ : Bool
  ctx : Ctx
  id : Ident
  a : ARegs
  e : ERegs
  m : MRegs
  r : HRes
  deriving DecidableEq, Repr

/-- Run state of a plate core (R49, R249, R409); rom is core 0 in the boot ROM. -/
inductive PlateRun where
  | held | running | halted | wfi | rom
  deriving DecidableEq, Repr

/-- A plate core (R49). -/
structure Plate where
  run : PlateRun
  x : Tab W64
  pc : W64
  epc : W64
  ecause : W64
  eval : W64
  etvec : W64
  ascope : BitVec 3
  instret : W64
  /-- a GLAUNCH that has made its snapshot (R256, R373). -/
  gsnap : Option GraphSnap
  deriving DecidableEq, Repr

/-- One value a ridge has held, with who made it and when (R262). -/
structure RidgeVal where
  key : W64
  tag : W64
  at_ : Nat
  by_ : W64
  deriving DecidableEq, Repr

/-- A ridge register (R104, R257); hist holds its values since the last reset, newest first. -/
structure Ridge where
  key : W64
  tag : W64
  max : Bool
  wide : Bool
  epoch : Nat
  hist : List RidgeVal
  deriving DecidableEq, Repr

/-- A translation-cache entry (R133): the page, its leaf and where the leaf stands. -/
structure TlbEntry where
  asid : Nat
  page : Nat
  size : Nat
  pte : W64
  pteAt : Nat
  dirty : Bool
  deriving DecidableEq, Repr

/-- A TLBIR of a plate core (R343, R344) with the translation caches that have not acknowledged it; len 0 is every
page of the ASID. -/
structure TlbInv where
  core : Nat
  asid : Nat
  lo : Nat
  len : Nat
  pend : List Nat
  deriving DecidableEq, Repr

/-- State of a hardware queue slot (R341). -/
inductive SlotState where
  | free | stopped | running
  deriving DecidableEq, Repr

/-- A hardware queue slot and the queue bound to it. -/
structure QSlot where
  state : SlotState
  rcb : Nat
  n : Nat
  qcb : Nat
  deriving DecidableEq, Repr

/-- What the walker of a queue remembers between records (R34, R36, R159): the number of the run being read and how
many records each late run has, the commands that ended in the failed class with their runs, the FENCE commands read,
and the record address it is held at. -/
structure QueueSt where
  run : Nat
  lens : Tab Nat
  failed : List (Nat × Nat)
  fences : List Nat
  held : Option Nat
  /-- records a replay does not run again, with the status the reset left (R391). -/
  skip : List (Nat × Nat)
  deriving DecidableEq, Repr

/-- Where a command comes from: a launch queue (queue number, record index, run) or a graph instance. -/
inductive CmdSrc where
  | queue (n idx run : Nat)
  | node (inst i : Nat)
  deriving DecidableEq, Repr

/-- How far a command has come. -/
inductive Phase where
  | waiting
  /-- held on a page of its own, read 0 or write 1 (R159). -/
  | held (va acc : Nat)
  | active
  deriving DecidableEq, Repr

/-- A splice of a producer into this consumer (R375..R377, R400). -/
structure Splice where
  pcmd : Nat
  pblk : BitVec 4096
  popba : Addr
  pkern : BitVec 32
  tid : Nat
  td : BitVec 1024
  zbytes : Nat
  /-- linear numbers of the producer's steps whose spliced step has retired. -/
  pdone : List Nat
  cdone : List Nat
  /-- the kernel charged first: true for the producer. -/
  charged : Option Bool
  deriving DecidableEq, Repr

/-- A RUN node under way (R39, R42). -/
structure RunNode where
  blk : BitVec 4096
  next : Nat
  total : Nat
  live : Nat
  retired : Nat
  killed : Nat
  failed : Bool
  lastBay : Option Nat
  splice : Option Splice
  deriving DecidableEq, Repr

/-- A command read and not ended (R33, R157). -/
structure Cmd where
  id : Nat
  rcb : Nat
  src : CmdSrc
  va : Nat
  rec_ : BitVec 512
  phase : Phase
  /-- its dependences have all ended (R33), at the clk readyAt (R369). -/
  ready : Bool
  readyAt : Nat
  run : Option RunNode
  xfer : Option Xfer
  inst : Option Nat
  /-- a GRAPH that has made its snapshot and has still to read GEN again (R373). -/
  gsnap : Option GraphSnap
  /-- the consumer that the scarf unit found for it as it became ready, with its block (R375). -/
  partner : Option (Nat × BitVec 4096 × Splice)
  /-- the consumer this producer runs in (R377). -/
  mergedInto : Option Nat
  deriving DecidableEq, Repr

/-- A graph instance (R35, R187, R201, R373): the node copies, their counters, and per node how its ended
predecessors ended (bit 0 a failed one, bit 1 one that ran, bit 2 an untaken one). -/
structure Inst where
  id : Nat
  rcb : Nat
  area : Nat
  nodes : List (BitVec 512)
  cmd : Option Nat
  left : Nat
  failed : Bool
  counts : Tab Nat
  preds : Tab Nat
  deriving DecidableEq, Repr

/-- Who holds an engine-queue entry: a hart's slot (with its generation), a command, or a slot of the k-th hart of a step that has
left its harts: its entries keep their places (R172, R193; log 111). -/
inductive XRef where
  | slot (h s : Nat) (gen : BitVec 8)
  | cmd (id : Nat)
  | parked (stepid : W64) (k s : Nat) (gen : BitVec 8)
  deriving DecidableEq, Repr

/-- An entry of a sill's command queue (R168). -/
inductive SillCmd where
  | smv (ref : XRef)
  | sub (ref : XRef)
  | pull (ref : XRef) (td : BitVec 1024) (buf : Bool) (scan : Nat)
  | stop (ref : XRef)
  deriving DecidableEq, Repr

/-- A parked or pre-empted step (R392): for each hart its number and its frame's slot, and what no section of the frame holds. -/
structure Parked where
  stepid : W64
  rcb : Nat
  frames : List (Nat × Nat)
  harts : List Hart
  ready : Bool
  asid : Nat
  va : Nat
  deriving DecidableEq, Repr

/-- An entry of a pool shard (R163, R378). -/
structure PEntry where
  rec_ : BitVec 512
  kill : Bool
  ridge : Nat
  lent : Bool
  lentAt : Nat
  deriving DecidableEq, Repr

/-- A pool shard (R162, R380). -/
structure Shard where
  serial : BitVec 36
  entries : List PEntry
  probed : Tab Nat
  stealing : Bool
  /-- the shard has found every victim empty and waits until one accepts a record (R380). -/
  asleep : Bool
  deriving DecidableEq, Repr

/-- What a record on virtual channel 7 is (R165): a remote enqueue, with the REMQA that waits for its answer,
or a stolen record with victim and thief. -/
inductive RqKind where
  | enqueue (answer : Option Nat)
  | steal (victim thief : Nat)
  deriving DecidableEq, Repr

/-- A record in flight (R164..R166). -/
structure RqRec where
  name : Nat
  kind : RqKind
  ctx : Ctx
  handle : W64
  rec_ : BitVec 512
  kill : Bool
  ridge : Nat
  truss : Nat
  deriving DecidableEq, Repr

/-- A cached tensor descriptor (R178). -/
structure TdEntry where
  asid : Nat
  tid : Nat
  td : BitVec 1024
  deriving DecidableEq, Repr

/-- The build record (R24): the fields software or the device uses. -/
structure Record where
  part : Nat
  bayen : BitVec 512
  chiplets : BitVec 8
  stackMask : BitVec 8
  sills : BitVec 8
  links : BitVec 16
  cost : List W64
  rqlat : List (BitVec 16)
  lot : W64
  serial : W64
  sig : List Byte
  deriving DecidableEq, Repr

/-- An answer over Data Object Exchange (R413). -/
inductive Spdm where
  | answer (bs : List Byte)
  | unsupported
  deriving DecidableEq, Repr

/-- A latched snapshot (R114, R415): words by block x 256 + word. -/
structure Snap where
  words : Tab W64
  cycle : W64
  deriving DecidableEq, Repr

/-- Power state of the module (R18, R23): in reset since the input left its range or, once it is back, since the
clk it came back; powered; or without power after a trip. -/
inductive Power where
  | reset (goodSince : Option Nat)
  | on
  | tripped
  deriving DecidableEq, Repr

/-- What an event of Instr concerns: four numbers, two words and two byte strings from outside. Each event's
meaning says which it reads. -/
structure EvArg where
  n : Nat
  n1 : Nat
  n2 : Nat
  n3 : Nat
  w : W64
  w1 : W64
  bs : List Byte
  bs1 : List Byte
  deriving DecidableEq, Repr

/-- What happens in the module or around it that the opcode table has no row for. -/
inductive Env where
  /-- a bay's L1 data cache writes back and drops the line of a cell (R124). -/
  | l1Evict (bay cell : Nat)
  /-- the unit of a translation cache is power-gated (R133). -/
  | gate (cache : Nat)
  /-- a read somewhere meets a single-bit error, which the device corrects (R128): 0..7 a stack, 8..15 the SRAM of a chiplet,
  16 the I/O die. -/
  | corrected (unit : Nat)
  /-- the ECC word that holds a cell comes to hold an error that cannot be corrected (R128). -/
  | uncorrectable (cell : Nat)
  /-- the 8-byte word of a bay's L1 data cache that holds a cell comes to hold such an error (R128, R398). -/
  | l1Error (bay cell : Nat)
  /-- an 8-byte word of a main register in the register cache comes to hold such an error (R398). -/
  | regError (hart reg word : Nat)
  /-- the host writes its own memory (R126). -/
  | hostWrite (addr : Nat) (bs : List Byte)
  /-- the host reads n bytes at an offset of the PF's BAR 0 (R402). -/
  | pfRead (off n : Nat)
  /-- the host reads n bytes of a doorbell page (R403). -/
  | doorbellRead (n : Nat)
  /-- a link starts to train (R408). -/
  | linkTrain (link : Nat)
  /-- plate firmware has found another path to a package (R407). -/
  | reroute (pkg : Nat)
  /-- plate firmware takes a package out of the pod (R407). -/
  | podLeave (pkg : Nat)
  /-- plate firmware raises MINSVN in flash (R411). -/
  | raiseSvn (svn : Nat)
  /-- the boot ROM reaches its next step (R409); ok says whether the network and the target answer. -/
  | bootStep (ok : Bool)
  /-- the host port trains to a width and a rate in GT/s (R401). -/
  | pcieTrain (width rate : Nat)
  /-- the host enables this many virtual functions (R401). -/
  | vfEnable (n : Nat)
  /-- a pool shard is reset alone (R381). -/
  | shardReset (rcb truss : Nat)
  /-- plate firmware builds the scope discovery table at an address and points SDTBASE at it (R29, R189). -/
  | sdtBuild (base : Nat)
  /-- plate firmware maps the table read-only into a context (R29). -/
  | sdtMap (rcb : Nat)
  /-- plate firmware writes bytes of its mailbox, at an offset of BAR 0 (R402). -/
  | mailboxPut (off : Nat) (bs : List Byte)
  deriving DecidableEq, Repr

/-- One turn of the agenda: an agent issues, an E-stream executes only the first groups of its instruction, an event of the
opcode table or another one happens, or nothing happens for some clk. -/
inductive Turn where
  | run (ag : Agent)
  | part (h groups : Nat)
  | ev (i : Instr) (arg : EvArg)
  | env (x : Env)
  | idle (clk : Nat)
  deriving DecidableEq, Repr

/-- The plate registers of R112 but FEATCAP, which the build record gives. -/
structure PlateRegs where
  featack : Option (BitVec 8)
  ipend : BitVec 7
  ien : BitVec 7
  rcbroot : Addr
  missed : BitVec 8
  captured : Bool
  pinen : Bool
  useren : Bool
  armed : Bool
  snapblock : BitVec 12
  snapword : BitVec 8
  ridgeown : Tab (BitVec 13)
  sdtbase : Addr
  platePt : Option Nat
  deriving DecidableEq, Repr

/-- Power, boot, host and pod state (R18..R23, R401..R414). -/
structure Mgmt where
  power : Power
  inRange : Bool
  throttled : Bool
  /-- the power controller's last ten samples in mW, newest first (R21). -/
  samples : List Nat
  tripRec : Bool
  bootstat : W64
  minsvn : Nat
  /-- VFs in a Function Level Reset, with the clk at which it began (R405). -/
  flr : Tab Nat
  /-- VFs whose FLR has completed by time and whose bit is still set. -/
  flrDone : List Nat
  doe : Option Spdm
  /-- the PF's mailbox as the host wrote it, by offset from 0x1000 (R402). -/
  mailbox : List Host.Cell
  /-- BOOTSTAT values sent to the collector, newest first (R409). -/
  datagrams : List W64
  /-- how the last host access through a BAR 2 completed: its data, or none for Unsupported Request (R402, R403). -/
  completion : Option (List Byte)
  pod : BitVec 64
  /-- packages of the pod that no path leads to (R407). -/
  cut : BitVec 64
  debugHalt : List Nat
  /-- BODYHASH of the image that runs, and the boot configuration block in flash (R409, R413). -/
  bodyHash : List Byte
  bootCfg : List Byte
  /-- width and rate of the host port as trained, and the virtual functions enabled (R401, R415). -/
  pcieWidth : Nat
  pcieRate : Nat
  vfs : Nat
  /-- replays of each link since it came up, and those in a row for one flit (R407, R415). -/
  replays : Tab Nat
  inRow : Tab Nat
  deriving DecidableEq, Repr

/-- The whole machine. -/
structure State where
  agenda : List Turn
  cur : Agent
  ev : EvArg
  rr : Nat
  free : Nat
  nextId : Nat
  /-- how many element groups the instruction of this turn may execute; none: all of them. -/
  limit : Option Nat
  cycle : Nat
  ticket : W64
  record : Record
  mem : List Host.Cell
  bad : List Nat
  harts : Tab Hart
  div : Tab Nat
  mxBusy : Tab Nat
  /-- the hart of a bay that the matrix unit turns to next (R383). -/
  mxTurn : Tab Nat
  /-- the L1 data caches of the bays (R124). -/
  l1 : Tab L1
  plates : Tab Plate
  preg : PlateRegs
  mg : Mgmt
  snap : Option Snap
  ridges : Tab Ridge
  /-- the version of a ridge, counted from its last reset, that the cached copy of (bay x 16 + ridge) has taken (R262). -/
  seen : Tab Nat
  tlbs : Tab (List TlbEntry)
  tlbInv : List TlbInv
  /-- the resident copies of vector translation tables (R135): no value for an entry whose word could not be corrected when it was
  read (R128). -/
  vtts : Tab (Tab (Option W64))
  tdc : Tab (List TdEntry)
  granOwner : Tab Nat
  qslots : Tab QSlot
  queues : Tab QueueSt
  cmds : List Cmd
  insts : List Inst
  parked : List Parked
  /-- per region with a waiting step, the clk from which its age counts (R368). -/
  ages : Tab Nat
  trussResv : Option (Nat × Nat)
  bayResv : Option (Nat × Nat)
  copyq : Tab (List XRef)
  sillq : Tab (List SillCmd)
  shards : Tab Shard
  rq : List RqRec
  credits : Tab Nat
  notices : List (List W64)
  deriving DecidableEq, Repr

/-- Shadows at step start (R108). -/
def Shadows.zero : Shadows := ⟨0, 0, 0, 0, 0, 0, 0, 0⟩

/-- A transfer slot at step start (R204). -/
def Xfer.zero : Xfer :=
  { state := .free, gen := 0, bitmap := 0, covered := 0, status := 0, flags := 0, sill := false, launchPc := 0,
    launched := 0, sh := .zero, job := .none, chunks := 0, started := 0, flight := [], paused := [], cancelled := false }

/-- An empty beam (R103). -/
def Beam.none : Beam := { empty := true, fmt := 0, tn := 0, tk := 0, data := [], scale := [] }

/-- An accumulator at step start (R307). -/
def XAcc.zero : XAcc :=
  { depth := 8, count := 0, wdepth := 0, thresh := 0, tol := 0, conv := 0, stag := 0, nzd := 0, wt := [], last := [],
    hist := [] }

/-- No context. -/
def Ctx.none : Ctx := ⟨0, 0, 0, 0, 0, 0, 0, 0⟩

/-- A hart without a step: the R44 values where R44 gives one, and 0 elsewhere (DESIGN CHOICE, log 1). -/
def Hart.free : Hart :=
  { occ := false
    ctx := .none
    id := { stepix := [0, 0, 0, 0, 0, 0, 0, 0], stepid := 0, kernid := 0, opbaddr := 0, resword := 0, rsize := 0,
            rbase := 0, scrb := 0, lanes := 32, truss := false, pool := false, spliced := false, resumed := false,
            snapped := false, node := 0, lin := 0, policy := 0, steplim := 0, capture := 0, etvec := 0,
            fpen0 := 0, code := [] }
    a := { x := [], pc := 0, ended := false, wait := .none, epc := 0, ecause := 0, eval := 0, elaunch := 0, etid := 0,
           eelem := 0, ascope := 6, escope := 6, instret := 0, cp := .zero, tbarrived := false, remq := none,
           gsnap := none }
    e := { pc := 0, ended := false, wait := .none, l := [], staging := none, o := [], main := [], wb := 0, mask := [],
           vl := 0, vill := true, group := 0, fmt := 0, vstart := 0, kept := false, latch := [], latchQ := [], reserved := none,
           fflags := 0, fpen := 0, frm := 0, smiss := 0, prog := none, vsw := none, bad := [] }
    m := { active := .none, loading := .none, loadBusy := false, abeam := false, lerr := none, lerrNext := none,
           sfmt := 0, kt := 128,
           latch := 0x7F7F_7F7F_7F7F_7F7F, rows := [], rowTraps := [], xa := [] }
    r := { ae := [], ea := [], slots := [], pendFail := [], alloc := 0, base := 0, bound := 0, allocSize := 0,
           dirty := [], placedBefore := 0, placedAt := 0, pend := none, presumed := false, pendFor := none, waitPage := none, redirect := none,
           bodyC := false } }

/-- A plate core after package reset (R107, R409): held; its registers 0 (DESIGN CHOICE, log 1). -/
def Plate.zero : Plate :=
  { run := .held, x := [], pc := 0, epc := 0, ecause := 0, eval := 0, etvec := 0, ascope := 6, instret := 0,
    gsnap := none }

/-- A ridge after package reset (R104, R257). -/
def Ridge.zero : Ridge :=
  { key := 0x7FFF_FFFF_FFFF_FFFF, tag := 0xFFFF_FFFF_FFFF_FFFF, max := false, wide := false, epoch := 0,
    hist := [⟨0x7FFF_FFFF_FFFF_FFFF, 0xFFFF_FFFF_FFFF_FFFF, 0, 0⟩] }

/-- No argument. -/
def EvArg.zero : EvArg := ⟨0, 0, 0, 0, 0, 0, [], []⟩

/-- The build record of a fully enabled Skeyda 9 with the figures of R28 (R24, R25; DESIGN CHOICE, log 5).
A COST entry is staleness in 10 ns, barrier latency, maximum and typical fence (R24). The signature has r and s equal to 1, which
some root keys verify and others do not. -/
def Record.full9 : Record :=
  { part := 9, bayen := BitVec.allOnes 512, chiplets := 0xFF, stackMask := 0xFF, sills := 0xFF, links := 0xFFFF,
    cost := [0x0000_0000_0000_0000, 0x0000_0004_000A_0006, 0x0005_0018_0048_0028, 0x0014_012C_0104_008C,
             0x0032_028A_0258_0140, 0x0064_05DC_0578_02F8, 0x00C8_0D48_0C80_06A4, 0x07D0_6590_9858_32C8],
    rqlat := [40, 40, 60, 180, 400, 900, 2000, 14000], lot := 0, serial := 0,
    sig := List.replicate 47 0 ++ 1 :: List.replicate 47 0 ++ [1] }

/-- The plate registers after package reset (R112, R414). -/
def PlateRegs.zero : PlateRegs :=
  { featack := none, ipend := 0, ien := 0, rcbroot := 0, missed := 0, captured := false, pinen := false,
    useren := false, armed := false, snapblock := 0, snapword := 0, ridgeown := [], sdtbase := 0, platePt := none }

/-- The machine right after power-on reset ends (R409 step 1, R95, R410): plate core 0 in the boot ROM and cores 1..3
held, no step placed, no queue mapped, FEAT 0, memory with nothing listed. -/
def State.reset : State :=
  { agenda := [], cur := .plate 0, ev := .zero, rr := 0, free := 0, nextId := 1, limit := none, cycle := 0, ticket := 0,
    record := .full9, mem := [], bad := [], harts := [], div := [], mxBusy := [], mxTurn := [], l1 := [],
    plates := [(0, { Plate.zero with run := .rom })], preg := .zero,
    mg := { power := .on, inRange := true, throttled := false, samples := [], tripRec := false, bootstat := 0,
            minsvn := 0, flr := [], flrDone := [], doe := none,
            mailbox := [], datagrams := [], completion := none, pod := 0, cut := 0, debugHalt := [], bodyHash := [],
            bootCfg := [], pcieWidth := 0, pcieRate := 0, vfs := 0, replays := [], inRow := [] },
    snap := none, ridges := [], seen := [], tlbs := [], tlbInv := [], vtts := [], tdc := [], granOwner := [],
    qslots := [], queues := [], cmds := [], insts := [], parked := [], ages := [], trussResv := none,
    bayResv := none, copyq := [], sillq := [], shards := [], rq := [], credits := [], notices := [] }

end Sys2Proof.Machine
end

