-- ==== Sys2Proof/Machine/Flags.lean ====
section
/-! DEFINITION. The floating-point flags of a hart: FFLAGS, FPEN and the trap priority (R83, R84, R86). -/

namespace Sys2Proof.Machine

/-- Flags in the bit order of R83. -/
def flNV : BitVec 5 := 16
def flDZ : BitVec 5 := 8
def flOF : BitVec 5 := 4
def flUF : BitVec 5 := 2
def flNX : BitVec 5 := 1

/-- The enabled ones among raised flags (R84, R86). -/
def enabled (fpen fl : BitVec 5) : BitVec 5 := fl &&& fpen

/-- Flags accrue into FFLAGS by OR (R83). -/
def accrue (fflags fl : BitVec 5) : BitVec 5 := fflags ||| fl

/-- The cause an enabled flag traps with, highest priority first (R86). -/
def fpCause (f : BitVec 5) : Cause :=
  if f.getLsbD 4 then .fpnv else if f.getLsbD 3 then .fpdz else if f.getLsbD 2 then .fpof
  else if f.getLsbD 1 then .fpuf else .fpnx

end Sys2Proof.Machine
end

