-- ==== Sys2Proof/Machine/Bits.lean ====
section
/-! DEFINITION. Bit fields, byte order and sign extension (R7): the helpers every other file of the machine uses.
All are plain arithmetic on Nat, Int and bit vectors. -/

namespace Sys2Proof.Machine

/-- The field [lo + len - 1 : lo] of a natural number. -/
def fld (v lo len : Nat) : Nat := (v / 2 ^ lo) % 2 ^ len

/-- Bit i of a natural number. -/
def bitOf (v i : Nat) : Bool := v.testBit i

/-- v with the field [lo + len - 1 : lo] replaced by the low len bits of x. -/
def setFld (v lo len x : Nat) : Nat :=
  v % 2 ^ lo + (x % 2 ^ len) * 2 ^ lo + (v / 2 ^ (lo + len)) * 2 ^ (lo + len)

/-- The signed value of the low w bits of v. -/
def sext (w v : Nat) : Int :=
  let u := v % 2 ^ w
  if 2 * u < 2 ^ w then (u : Int) else (u : Int) - (2 ^ w : Nat)

/-- An integer modulo 2^w. -/
def wrap (w : Nat) (x : Int) : Nat := (x % ((2 ^ w : Nat) : Int)).toNat

/-- A 64-bit word from a natural number. -/
def w64 (v : Nat) : W64 := BitVec.ofNat 64 v

/-- A 64-bit word from an integer, wrapping. -/
def w64i (v : Int) : W64 := BitVec.ofInt 64 v

/-- 1 or 0. -/
def b2n (b : Bool) : Nat := if b then 1 else 0

/-- Byte i of a value, little-endian. -/
def byteAt (v i : Nat) : Byte := BitVec.ofNat 8 (v / 256 ^ i)

/-- The n low bytes of a value, lowest address first (R7). -/
def toBytes : Nat → Nat → List Byte
  | 0, _ => []
  | n + 1, v => BitVec.ofNat 8 v :: toBytes n (v / 256)

/-- The value of bytes, lowest address first (R7). -/
def ofBytes : List Byte → Nat
  | [] => 0
  | b :: bs => b.toNat + 256 * ofBytes bs

/-- x rounded up to a multiple of m. -/
def roundUp (x m : Nat) : Nat := (x + m - 1) / m * m

/-- ceil(x / m). -/
def ceilDiv (x m : Nat) : Nat := (x + m - 1) / m

/-- The numbers lo, lo + 1, .., lo + n - 1. -/
def span (lo n : Nat) : List Nat := (List.range n).map (lo + ·)

/-- Element i, of width w bits, of a packed register image. -/
def elemOf (w v i : Nat) : Nat := fld v (w * i) w

/-- A packed image with element i replaced. -/
def setElem (w v i x : Nat) : Nat := setFld v (w * i) w x

/-- A packed image of elements, element 0 lowest. -/
def packElems (w : Nat) : List Nat → Nat
  | [] => 0
  | x :: xs => x % 2 ^ w + 2 ^ w * packElems w xs

/-- The first index in 0..n-1 with the property. -/
def firstIdx (n : Nat) (p : Nat → Bool) : Option Nat := (List.range n).find? p

/-- Number of set bits among the low n. -/
def popCount (n v : Nat) : Nat := ((List.range n).filter (v.testBit ·)).length

/-- Leading zeros of the low w bits; w for 0 (R70). -/
def clzN (w v : Nat) : Nat := if v % 2 ^ w = 0 then w else w - 1 - Nat.log2 (v % 2 ^ w)

/-- Trailing zeros of the low w bits; w for 0 (R70). -/
def ctzN (w v : Nat) : Nat := ((List.range w).find? (v.testBit ·)).getD w

/-- The carry-less product of B and C over w bits (R230). -/
def clmulN (w b c : Nat) : Nat :=
  (List.range w).foldl (fun acc j => if c.testBit j then acc ^^^ (b * 2 ^ j) else acc) 0

/-- The numbers of the bits set among the low n, lowest first. -/
def bitList (n v : Nat) : List Nat := (List.range n).filter (v.testBit ·)

/-- Replaces element i of a list. -/
def setAt {α : Type} : List α → Nat → α → List α
  | [], _, _ => []
  | _ :: t, 0, v => v :: t
  | x :: t, n + 1, v => x :: setAt t n v

/-- The first element that minimises a key. -/
def argMin {α : Type} (key : α → Nat) : List α → Option α
  | [] => none
  | x :: t => match argMin key t with
    | none => some x
    | some y => if key y < key x then some y else some x

end Sys2Proof.Machine
end

