-- ==== Sys2Proof/Machine/Tab.lean ====
section
/-! DEFINITION. Operations on sparse tables: reading and writing one key. -/

namespace Sys2Proof.Machine

/-- The value at a key. -/
def tget {α : Type} : Tab α → Nat → Option α
  | [], _ => none
  | (k, v) :: t, a => if a = k then some v else tget t a

/-- The table without a key. -/
def tdel {α : Type} (t : Tab α) (a : Nat) : Tab α := t.filter fun p => p.1 != a

/-- Puts an entry before the first greater key. -/
def tins {α : Type} : Tab α → Nat → α → Tab α
  | [], a, x => [(a, x)]
  | (k, v) :: t, a, x => if a < k then (a, x) :: (k, v) :: t else (k, v) :: tins t a x

/-- The table with a key set. -/
def tput {α : Type} (t : Tab α) (a : Nat) (x : α) : Tab α := tins (tdel t a) a x

/-- The value at a key, or a default. -/
def tgetD {α : Type} (t : Tab α) (a : Nat) (d : α) : α := (tget t a).getD d

end Sys2Proof.Machine
end

