-- ==== Sys2Proof/Machine/Mem.lean ====
section
/-! DEFINITION. The bytes of memory in their canonical form (log 2): a list of cells with rising keys and no cell
equal to 0, which is what an unlisted cell reads as. A cell's key is its place in one numbering of the whole
address space: local physical addresses (HBM of R122 and the I/O die from 2^40), the scratchpads of the bays from
2^52 (R118), host memory from 2^53 and the memory of remote packages from 2^58 (R116, R123). -/

namespace Sys2Proof.Machine

/-- What an unlisted cell reads as (DESIGN CHOICE, log 2). -/
def memDefault : Byte := 0

/-- One byte. -/
def memGet (m : List Host.Cell) (k : Nat) : Byte := (tget m k).getD memDefault

/-- One byte written; the value of an unlisted cell is never listed. -/
def memPut (m : List Host.Cell) (k : Nat) (b : Byte) : List Host.Cell :=
  if b = memDefault then tdel m k else tput m k b

/-- The canonical form: keys rise strictly and no listed byte is the default. -/
def memWf : List Host.Cell → Bool
  | [] => true
  | (k, v) :: t => v != memDefault && t.all (fun p => k < p.1) && memWf t

/-- n bytes from a key up. -/
def memRead (m : List Host.Cell) : Nat → Nat → List Byte
  | _, 0 => []
  | k, n + 1 => memGet m k :: memRead m (k + 1) n

/-- Bytes written from a key up. -/
def memWrite (m : List Host.Cell) : Nat → List Byte → List Host.Cell
  | _, [] => m
  | k, b :: bs => memWrite (memPut m k b) (k + 1) bs

/-- Cells written one by one. -/
def memWriteCells (m : List Host.Cell) (cs : List Host.Cell) : List Host.Cell :=
  cs.foldl (fun m c => memPut m c.1 c.2) m

/-- Key of a byte of a bay's scratchpad. -/
def scratchKey (bay off : Nat) : Nat := 2 ^ 52 + bay * 2 ^ 23 + off

/-- Key of a host byte. -/
def hostKey (a : Nat) : Nat := 2 ^ 53 + a

/-- Key of a byte of another package. -/
def remoteKey (pkg a : Nat) : Nat := 2 ^ 58 + pkg * 2 ^ 52 + a

/-- Where the I/O-die space starts and ends (R122). -/
def ioBase : Nat := 0x0100_0000_0000
def ioEnd : Nat := 0x0102_0000_0000

/-- Is the key in the I/O-die space? -/
def isIo (k : Nat) : Bool := decide (ioBase ≤ k) && decide (k < ioEnd)

/-- Is the key in a scratchpad? -/
def isScratch (k : Nat) : Bool := decide (2 ^ 52 ≤ k) && decide (k < 2 ^ 53)

/-- Is the key host memory? -/
def isHost (k : Nat) : Bool := decide (2 ^ 53 ≤ k) && decide (k < 2 ^ 58)

/-- Is the key memory of another package? -/
def isRemote (k : Nat) : Bool := decide (2 ^ 58 ≤ k)

/-- Is the key memory of a package of the pod that no path leads to any more (R407)? -/
def State.cutKey (s : State) (k : Nat) : Bool := isRemote k && s.mg.cut.getLsbD ((k - 2 ^ 58) / 2 ^ 52)

/-- Bytes of one stack (R122). -/
def stackBytes : Nat := 0x14_0000_0000

/-- Is the key in the HBM of a present stack (R26, R122)? -/
def isHbm (s : State) (k : Nat) : Bool :=
  decide (k < 8 * stackBytes) && s.record.stackMask.getLsbD (k / stackBytes)

/-- The start of the ECC word that holds a key, for memory that has ECC (R128): 32 bytes in HBM, 8 in SRAM. -/
def eccWord (k : Nat) : Option (Nat × Nat) :=
  if k < 8 * stackBytes then some (k / 32 * 32, 32) else if isScratch k then some (k / 8 * 8, 8) else none

/-- Does a read of these bytes meet an uncorrectable error (R128)? -/
def readBad (s : State) (k n : Nat) : Bool :=
  s.bad.any fun w => match eccWord w with
    | some (_, sz) => decide (w < k + n) && decide (k < w + sz)
    | none => false

/-- Does a write of these bytes cover a bad word only in part (R128)? -/
def writeBad (s : State) (k n : Nat) : Bool :=
  s.bad.any fun w => match eccWord w with
    | some (_, sz) => decide (w < k + n) && decide (k < w + sz) && !(decide (k ≤ w) && decide (w + sz ≤ k + n))
    | none => false

/-- Bytes of a natural key range. -/
def State.bytes (s : State) (k n : Nat) : List Byte := memRead s.mem k n

/-- A little-endian value of n bytes. -/
def State.nat (s : State) (k n : Nat) : Nat := ofBytes (memRead s.mem k n)

/-- Writes bytes as they stand: words they cover whole lose their error (R128). -/
def State.poke (s : State) (k : Nat) (bs : List Byte) : State :=
  { s with
    mem := memWrite s.mem k bs
    bad := s.bad.filter fun w => match eccWord w with
      | some (_, sz) => !(decide (k ≤ w) && decide (w + sz ≤ k + bs.length))
      | none => true }

/-- Writes the n low bytes of a value. -/
def State.pokeNat (s : State) (k n v : Nat) : State := s.poke k (toBytes n v)

/-- Adds to a little-endian count of n bytes, wrapping. -/
def State.countUp (s : State) (k n d : Nat) : State := s.pokeNat k n ((s.nat k n + d) % 256 ^ n)

/-- The counter block of R207: address of a counter. -/
def cbAddr (off : Nat) : Nat := ioBase + off

/-- UNCORRCNT adds 1 (R207, R398). -/
def State.countUncorr (s : State) : State := s.countUp (cbAddr 0x098) 8 1

/-- A write by the device of a field in a word of its own: where that word holds an error and is covered only in part, the error
counts and nothing is written (R128, R145). -/
def State.devPoke (s : State) (k : Nat) (bs : List Byte) : State :=
  if writeBad s k bs.length then s.countUncorr else s.poke k bs

/-! The L1 data caches of the bays (R124), as far as a translation needs them; L1.lean has the rest. -/

/-- An L1 that holds nothing. -/
def L1.empty : L1 := ⟨[], [], []⟩

/-- The L1 of a bay. -/
def State.l1Of (s : State) (bay : Nat) : L1 := tgetD s.l1 bay .empty

/-- Replaces it. -/
def State.setL1 (s : State) (bay : Nat) (c : L1) : State := { s with l1 := tput s.l1 bay c }

/-- Clean copies whose cells satisfy p leave a bay's L1. -/
def State.l1Drop (s : State) (bay : Nat) (p : Nat → Bool) : State :=
  let c := s.l1Of bay
  if c.clean.isEmpty then s else s.setL1 bay { c with clean := c.clean.filter fun b => !(p b.1) }

end Sys2Proof.Machine
end

