-- ==== Sys2Proof/Machine/Access.lean ====
section
/-! DEFINITION. The agents' records, the address map of R116 and R117, the page tables and translation caches of
R129..R133, and the vector translation table of R134..R136. A translation answers where an access goes, or the
cause it fails with; it may fill a cache and set ACCESSED and DIRTY (R132). -/

namespace Sys2Proof.Machine

/-- Bay, hart in the bay, truss, layer, chiplet and tile of a hart (R16). -/
def bayOf (h : Nat) : Nat := h / 8
def hidxOf (h : Nat) : Nat := h % 8
def trussOf (h : Nat) : Nat := h / 64
def layerOf (h : Nat) : Nat := h / 256
def chipletOf (h : Nat) : Nat := h / 512
def tileOf (h : Nat) : Nat := h / 1024

/-- Is the bay enabled (R24, R26)? -/
def State.bayOn (s : State) (bay : Nat) : Bool :=
  s.record.bayen.getLsbD bay && s.record.chiplets.getLsbD (bay / 64)

/-- A truss with all eight bays enabled (R27). -/
def State.trussCapable (s : State) (t : Nat) : Bool := (List.range 8).all fun b => s.bayOn (t * 8 + b)

/-- A hart's record. -/
def State.hart (s : State) (h : Nat) : Hart := tgetD s.harts h Hart.free

/-- Replaces a hart's record. -/
def State.setHart (s : State) (h : Nat) (v : Hart) : State := { s with harts := tput s.harts h v }

/-- Changes a hart's record. -/
def State.modHart (s : State) (h : Nat) (f : Hart → Hart) : State := s.setHart h (f (s.hart h))

def State.modA (s : State) (h : Nat) (f : ARegs → ARegs) : State := s.modHart h fun v => { v with a := f v.a }
def State.modE (s : State) (h : Nat) (f : ERegs → ERegs) : State := s.modHart h fun v => { v with e := f v.e }
def State.modM (s : State) (h : Nat) (f : MRegs → MRegs) : State := s.modHart h fun v => { v with m := f v.m }
def State.modR (s : State) (h : Nat) (f : HRes → HRes) : State := s.modHart h fun v => { v with r := f v.r }

/-- A plate core's record. -/
def State.plate (s : State) (p : Nat) : Plate := tgetD s.plates p Plate.zero

/-- Changes a plate core's record. -/
def State.modPlate (s : State) (p : Nat) (f : Plate → Plate) : State :=
  { s with plates := tput s.plates p (f (s.plate p)) }

/-- The harts that hold a step, lowest first. -/
def State.placed (s : State) : List Nat := (s.harts.filter fun p => p.2.occ).map (·.1)

/-- The harts that hold the step of hart h (R46, R47): eight for a TRUSS step. -/
def State.stepHarts (s : State) (h : Nat) : List Nat :=
  if (s.hart h).id.truss then (List.range 8).map fun b => (trussOf h * 8 + b) * 8 + hidxOf h else [h]

/-- The package number (R408), which the management status page holds. -/
def State.pkgNum (s : State) : Nat := s.nat (ioBase + 0xB008) 8 % 64

/-- Is the pod formed (R408)? -/
def State.formed (s : State) : Bool := (s.nat (ioBase + 0xB008) 8).testBit 8

/-- Is the package in the pod (R131, R408)? -/
def State.inPod (s : State) (p : Nat) : Bool := p == s.pkgNum || (s.formed && s.mg.pod.getLsbD p)

/-- CAP of FEATCAP, from the build record (R3, R26, R112). -/
def State.featcap (s : State) : BitVec 8 :=
  (if s.record.sills ≠ 0 then 1 else 0) ||| (if s.record.part = 9 then 2 else 0) ||| 0xFC

/-- FEAT as read now (R3, R414). -/
def State.feat (s : State) : BitVec 8 := s.preg.featack.getD 0

/-- Is a feature accepted (R4)? -/
def State.has (s : State) (f : Feature) : Bool := s.feat.getLsbD f.bit

/-! Region control blocks (R182), read at physical addresses. -/

/-- A field of an RCB: dword offset, low bit, length. -/
def State.rcbFld (s : State) (rcb off lo len : Nat) : Nat := fld (s.nat (rcb + off) 8) lo len

/-- LEVEL of an RCB (R182). -/
def State.rcbLevel (s : State) (rcb : Nat) : Nat := s.rcbFld rcb 0x00 0 2

/-- The RCBs from a node up to the root (R30); four levels at most, the fuel bounds a malformed chain. -/
def State.rcbPath (s : State) : Nat → Nat → List Nat
  | 0, _ => []
  | n + 1, rcb =>
    if s.rcbLevel rcb = 0 then [rcb]
    else
      let p := s.rcbFld rcb 0x08 0 48
      if p = 0 then [rcb] else rcb :: s.rcbPath n p

/-- The path of a region. -/
def State.path (s : State) (rcb : Nat) : List Nat := s.rcbPath 8 rcb

/-- The nearest node of a path whose override mask has bit f, the root at the latest (R30). -/
def State.effNodeOf (s : State) (f : Nat) : List Nat → Nat
  | [] => 0
  | [r] => r
  | r :: t => if (s.rcbFld r 0x10 0 10).testBit f then r else s.effNodeOf f t

/-- The node that gives a region field f (R30). -/
def State.effNode (s : State) (rcb f : Nat) : Nat := s.effNodeOf f (s.path rcb)

/-- The effective fields of R30 at a node. -/
def State.effMaxharts (s : State) (rcb : Nat) : Nat := min 4096 (s.rcbFld (s.effNode rcb 0) 0x18 0 13)
def State.effMaxlanes (s : State) (rcb : Nat) : Nat :=
  let v := s.rcbFld (s.effNode rcb 1) 0x18 16 6
  if v = 4 ∨ v = 8 ∨ v = 16 ∨ v = 32 then v else 4
def State.effScratch (s : State) (rcb : Nat) : Nat := s.rcbFld (s.effNode rcb 2) 0x20 0 32
def State.effRegs (s : State) (rcb : Nat) : Nat := s.rcbFld (s.effNode rcb 3) 0x20 32 23
def State.effSteplim (s : State) (rcb : Nat) : Nat := s.rcbFld (s.effNode rcb 4) 0x28 0 24
def State.effPrio (s : State) (rcb : Nat) : Nat := s.rcbFld (s.effNode rcb 5) 0x18 24 4
def State.effAgeq (s : State) (rcb : Nat) : Nat := max 1 (s.rcbFld (s.effNode rcb 6) 0x18 48 16)
def State.effPolicy (s : State) (rcb : Nat) : Nat := s.rcbFld (s.effNode rcb 7) 0x18 28 2
def State.effFpen (s : State) (rcb : Nat) : Nat := s.rcbFld (s.effNode rcb 8) 0x18 32 5
def State.effUtrap (s : State) (rcb : Nat) : Nat := s.rcbFld (s.effNode rcb 9) 0x30 0 48
def State.effCapture (s : State) (rcb : Nat) : Nat := s.rcbFld (s.effNode rcb 9) 0x38 0 32

/-- Does a region control block of a region's path hold, among the fields that set it up, a word that cannot be corrected (R128)? A
device that reads it then reports UNCORR in the way of what it reads for (log 100). -/
def State.rcbBad (s : State) (rcb : Nat) : Bool := (s.path rcb).any fun r => readBad s r 128

/-- The same for the counts of what its steps hold (R31, R182). -/
def State.useBad (s : State) (rcb : Nat) : Bool := (s.path rcb).any fun r => readBad s (r + 0xC0) 24

/-- The context node of a region (R182). -/
def State.ctxNode (s : State) (rcb : Nat) : Nat :=
  ((s.path rcb).find? fun r => s.rcbLevel r == 2).getD rcb

/-- The context of a region, as its tables give it now (R182). VF and REGION are those of the region's own block, ASID that of the
context's (DESIGN CHOICE, log 103). -/
def State.ctxOf (s : State) (rcb : Nat) : Ctx :=
  let c := s.ctxNode rcb
  { rcb := rcb
    ctxRcb := c
    asid := s.rcbFld c 0x00 16 12
    vf := s.rcbFld rcb 0x00 8 8
    region := s.rcbFld rcb 0x00 28 12
    ptbase := s.rcbFld c 0x40 12 40 * 4096
    vttbase := s.rcbFld c 0x48 14 38 * 16384
    tdtbase := s.rcbFld c 0x50 14 34 * 16384 }

/-! The address map. -/

/-- Where a virtual address lies (R116, R117). -/
inductive Place where
  /-- the paged range. -/
  | paged
  /-- a scratchpad, at this key. -/
  | scratch (key : Nat)
  | bounds
  deriving DecidableEq, Repr

/-- First address of the own allocation and of the truss window (R116). -/
def ownBase : Nat := 0xFF00_0000_0000
def winBase : Nat := 0xFF08_0000_0000

/-- The target of an access of n bytes by hart h, by R116 and R117. -/
def State.placeH (s : State) (h va n : Nat) : Place :=
  if va + n ≤ 2 ^ 47 then .paged
  else if ownBase ≤ va ∧ va < ownBase + 2 ^ 23 then
    let r := (s.hart h).r
    if va - ownBase + n ≤ r.bound then .scratch (scratchKey (bayOf h) (r.alloc + r.base + (va - ownBase))) else .bounds
  else if winBase ≤ va ∧ va < winBase + 2 ^ 26 ∧ (s.hart h).id.truss then
    let b := (va - winBase) / 2 ^ 23
    let o := (va - winBase) % 2 ^ 23
    let t := (trussOf h * 8 + b) * 8 + hidxOf h
    let r := (s.hart t).r
    if s.bayOn (bayOf t) ∧ o + n ≤ r.bound then .scratch (scratchKey (bayOf t) (r.alloc + r.base + o)) else .bounds
  else .bounds

/-- The target of an access without a hart: a plate core's or a command's (R49, R160). -/
def placeNone (va n : Nat) : Place := if va + n ≤ 2 ^ 47 then .paged else .bounds

/-! Paged translation. -/

/-- What a walk finds. -/
inductive Walk where
  /-- a leaf: its value, where it stands, first page address and page size. -/
  | leaf (pte at_ page size : Nat)
  | missing
  | uncorr
  deriving DecidableEq, Repr

/-- A frame that counts as present (R122): in a present stack, or in the I/O-die space. -/
def State.framePresent (s : State) (f : Nat) : Bool := isHbm s f || isIo f

/-- Is this leaf valid at its level (R129, R180)? -/
def State.leafValid (s : State) (level pte : Nat) : Bool :=
  let target := fld pte 7 2
  let frame := fld pte 12 40 * 4096
  (level ≤ 1) && target != 3 && (level == 0 || fld pte 12 9 == 0) &&
    (target != 0 || s.framePresent frame)

/-- The walk from one level down (R129); the fuel is the level plus one. -/
def State.walkFrom (s : State) (va : Nat) : Nat → Nat → Walk
  | 0, _ => .missing
  | level + 1, table =>
    let at_ := table + 8 * fld va (12 + 9 * level) 9
    if !(isHbm s at_) then .missing
    else if readBad s at_ 8 then .uncorr
    else
      let pte := s.nat at_ 8
      if !(pte.testBit 0) then .missing
      else if pte.testBit 1 then
        if s.leafValid level pte then
          let size := if level = 1 then 2 ^ 21 else if pte.testBit 9 then 2 ^ 16 else 2 ^ 12
          .leaf pte at_ (va / size * size) size
        else .missing
      else if level = 0 then .missing
      else s.walkFrom va level (fld pte 12 40 * 4096)

/-- The walk of a context's page table. -/
def State.walk (s : State) (ptbase va : Nat) : Walk := s.walkFrom va 4 ptbase

/-- The kinds of paged access (R131). -/
inductive Acc where
  | read | write | exec | atomic
  deriving DecidableEq, Repr

/-- The ACCESSED and DIRTY bits (R180). -/
def pteA : Nat := 2 ^ 10
def pteD : Nat := 2 ^ 11

/-- Does the access write? -/
def Acc.writes : Acc → Bool
  | .write | .atomic => true
  | _ => false

/-- Are the leaf's permissions enough (R131)? -/
def permOk (pte : Nat) (plate : Bool) (k : Acc) : Bool :=
  let w := pte.testBit 3 && (plate || !(pte.testBit 5))
  match k with
  | .read => pte.testBit 2
  | .write => w
  | .exec => pte.testBit 4
  | .atomic => pte.testBit 2 && w

/-- Does the first access of this kind through a leaf set DIRTY (R132)? A write that traps PPROT sets none. -/
def dirtyOk (pte : Nat) (plate : Bool) (k : Acc) : Bool := k.writes && permOk pte plate k

/-- The bits a walk for an access of this kind sets in its leaf (R132). -/
def walkBits (pte : Nat) (plate : Bool) (k : Acc) : Nat := if dirtyOk pte plate k then pteA ||| pteD else pteA

/-- Where an access goes: its first cell and whether it is a DEVICE access (R125). -/
structure Phys where
  key : Nat
  dev : Bool
  deriving DecidableEq, Repr

/-- The place a leaf gives an address (R122, R125, R131); none for a package outside the pod. A leaf that names this package reaches
its own memory as a DEVICE page, where that is present (log 98). -/
def State.leafPhys (s : State) (pte size va : Nat) : Option Phys :=
  let frame := fld pte 12 40 * 4096 / size * size
  let a := frame + va % size
  let dev := pte.testBit 6
  match fld pte 7 2 with
  | 0 => some ⟨a, dev || isIo a⟩
  | 1 => some ⟨hostKey a, dev⟩
  | _ =>
    let p := fld pte 52 6
    if p = s.pkgNum then (if s.framePresent a then some ⟨a, true⟩ else none)
    else if s.inPod p then some ⟨remoteKey p a, true⟩ else none

/-- Sets bits of a table entry in memory (R132), where they are not set. -/
def State.orPte (s : State) (at_ bits : Nat) : State :=
  let v := s.nat at_ 8
  if v ||| bits = v then s else s.pokeNat at_ 8 (v ||| bits)

/-- A paged translation without a translation cache, by a walker (R132): the control agent, the host's aperture
and a frame's flush use it. A leaf outside the pod is PFAULT before its permissions are looked at (DESIGN CHOICE, log 101). -/
def State.walkTo (s : State) (ptbase : Nat) (plate : Bool) (k : Acc) (va : Nat) : Except Cause Phys × State :=
  match s.walk ptbase va with
  | .missing => (.error .pfault, s)
  | .uncorr => (.error .uncorr, s.countUncorr)
  | .leaf pte at_ _ size =>
    let s := s.orPte at_ (walkBits pte plate k)
    match s.leafPhys pte size va with
    | none => (.error .pfault, s)
    | some p => (if permOk pte plate k then .ok p else .error .pprot, s)

/-- Numbers of the translation caches: bays, copy engines, sills, plate cores (R133). -/
def tlbBay (h : Nat) : Nat := bayOf h
def tlbCopy (t : Nat) : Nat := 512 + t
def tlbSill (c : Nat) : Nat := 576 + c
def tlbPlate (p : Nat) : Nat := 584 + p

/-- Entries of a translation cache (R133). -/
def tlbCap (id : Nat) : Nat := if id < 512 then 256 else if id < 576 then 1024 else if id < 584 then 512 else 64

/-- A cache with one more entry; a full one gives up an entry (Config.tlbVictim, log 8). -/
def tlbAdd (id free : Nat) (l : List TlbEntry) (e : TlbEntry) : List TlbEntry :=
  if l.length < tlbCap id then e :: l else e :: l.eraseIdx (Config.tlbVictim id free % l.length)

/-- The entry of a cache that holds an address. -/
def tlbFind (l : List TlbEntry) (asid va : Nat) : Option TlbEntry :=
  l.find? fun e => e.asid == asid && decide (e.page ≤ va) && decide (va < e.page + e.size)

/-- A walker has read a leaf for translation cache id, with an acquire at PKG (R132, R422): a bay's L1 keeps no clean copy. -/
def State.walkAcquire (s : State) (id : Nat) : State := s.l1Drop id fun _ => true

/-- The entry for an address, from the cache or from a walk that fills it and sets ACCESSED (R132, R133). -/
def State.tlbLookup (s : State) (id asid ptbase va : Nat) : Except Cause TlbEntry × State :=
  match tlbFind (tgetD s.tlbs id []) asid va with
  | some e => (.ok e, s)
  | none =>
    match s.walk ptbase va with
    | .missing => (.error .pfault, s)
    | .uncorr => (.error .uncorr, s.countUncorr)
    | .leaf pte at_ page size =>
      let e : TlbEntry := { asid := asid, page := page, size := size, pte := w64 (pte ||| pteA), pteAt := at_,
                            dirty := pte.testBit 11 }
      let s := (s.orPte at_ pteA).walkAcquire id
      (.ok e, { s with tlbs := tput s.tlbs id (tlbAdd id s.free (tgetD s.tlbs id []) e), free := s.free + 1 })

/-- The first write translation through an entry that permits it (R132): the walker reads the leaf again, and only a leaf that
is still valid is marked DIRTY and used; the entry of one that is not leaves the cache (log 82). -/
def State.tlbDirty (s : State) (id ptbase : Nat) (plate : Bool) (k : Acc) (va : Nat) (e : TlbEntry) :
    Except Cause TlbEntry × State :=
  if e.dirty || !(dirtyOk e.pte.toNat plate k) then (.ok e, s)
  else
    let l := tgetD s.tlbs id []
    match s.walk ptbase va with
    | .missing => (.error .pfault, { s with tlbs := tput s.tlbs id (l.filter fun x => x != e) })
    | .uncorr => (.error .uncorr, s.countUncorr)
    | .leaf pte at_ page size =>
      let bits := walkBits pte plate k
      let n : TlbEntry := { asid := e.asid, page := page, size := size, pte := w64 (pte ||| pteA), pteAt := at_,
                            dirty := (pte ||| bits).testBit 11 }
      let s := (s.orPte at_ bits).walkAcquire id
      (.ok n, { s with tlbs := tput s.tlbs id (l.map fun x => if x == e then n else x) })

/-- A paged translation through a translation cache (R129..R133). A leaf outside the pod is PFAULT before its permissions are looked at
(DESIGN CHOICE, log 101). -/
def State.xlat (s : State) (id asid ptbase : Nat) (plate : Bool) (k : Acc) (va : Nat) : Except Cause Phys × State :=
  match s.tlbLookup id asid ptbase va with
  | (.error c, s) => (.error c, s)
  | (.ok e, s) =>
    match s.tlbDirty id ptbase plate k va e with
    | (.error c, s) => (.error c, s)
    | (.ok e, s) =>
      match s.leafPhys e.pte.toNat e.size va with
      | none => (.error .pfault, s)
      | some p => (if permOk e.pte.toNat plate k then .ok p else .error .pprot, s)

/-- A plate core's translation, with ASID 0 (R133). The spec gives no page table for ASID 0: without one, plate
addresses are physical (log 6). -/
def State.xlatPlate (s : State) (p : Nat) (k : Acc) (va : Nat) : Except Cause Phys × State :=
  match s.preg.platePt with
  | none => if s.framePresent va then (.ok ⟨va, isIo va⟩, s) else (.error .pfault, s)
  | some pt => s.xlat (tlbPlate p) 0 pt true k va

/-! The vector path. -/

/-- The entry of the chiplet's resident copy (R135); a context not resident reads its table in memory. None for a word that cannot
be corrected (R128), or could not be when the copy was made (log 100). -/
def State.vttEntry (s : State) (h e : Nat) : Option Nat :=
  let c := (s.hart h).ctx
  match tget s.vtts (chipletOf h * 4096 + c.asid) with
  | some t => (tgetD t e (some 0)).map (·.toNat)
  | none => if readBad s (c.vttbase + 8 * e) 8 then none else some (s.nat (c.vttbase + 8 * e) 8)

/-- A vector access of n bytes by hart h (R134): scratch is not translated, the paged range goes through the VTT. An entry that names
this package reaches its own stacks, as a DEVICE page (log 98). -/
def State.xlatV (s : State) (h : Nat) (write : Bool) (va n : Nat) : Except Cause Phys :=
  match s.placeH h va n with
  | .bounds => .error .bounds
  | .scratch k => .ok ⟨k, false⟩
  | .paged =>
    if 0x0200_0000_0000 < va + n then .error .vrange
    else match s.vttEntry h (va / 2 ^ 30) with
      | none => .error .uncorr
      | some e =>
        let a := fld e 30 22 * 2 ^ 30 + va % 2 ^ 30
        let wr : Except Cause Phys → Except Cause Phys := fun r => if write && !(e.testBit 1) then .error .pprot else r
        if !(e.testBit 0) then .error .vrange
        else match fld e 3 2 with
          | 0 => if isHbm s (fld e 30 22 * 2 ^ 30) then wr (.ok ⟨a, e.testBit 2⟩) else .error .vrange
          | 1 => wr (.ok ⟨hostKey a, e.testBit 2⟩)
          | 2 =>
            let p := fld e 5 6
            if p = s.pkgNum then (if isHbm s (fld e 30 22 * 2 ^ 30) then wr (.ok ⟨a, true⟩) else .error .vrange)
            else if s.inPod p then wr (.ok ⟨remoteKey p a, true⟩) else .error .vrange
          | _ => .error .vrange

end Sys2Proof.Machine
end

