-- ==== Sys2Proof/Machine/Report.lean ====
section
/-! DEFINITION. How the device reports (R416): IPEND, the park-notice ring (R394), fault records (R190), snapshots
(R114, R415); the I/O-die space (R122, R207, R403, R405, R408); kicks (R155, R156, R367); and reads and writes at
physical cells with their ECC rules (R128) and dirty granules (R143). -/

namespace Sys2Proof.Machine

/-- Bits of IPEND (R112). -/
def ipKick : Nat := 0
def ipFault : Nat := 1
def ipThrottle : Nat := 2
def ipLink : Nat := 3
def ipSnap : Nat := 4
def ipUncorr : Nat := 5
def ipMgmt : Nat := 6

/-- Raises a plate interrupt (R112). -/
def State.raiseIp (s : State) (b : Nat) : State :=
  { s with preg := { s.preg with ipend := s.preg.ipend ||| BitVec.ofNat 7 (2 ^ b) } }

/-- TIME in ns (R195): one clk is 10/13 ns (R8). -/
def State.timeNs (s : State) : Nat := s.cycle * 10 / 13

/-- TIME in µs. -/
def State.timeUs (s : State) : Nat := s.cycle / 1300

/-- HARTID of a hart (R106). -/
def State.hartId (s : State) (h : Nat) : Nat := s.pkgNum * 2 ^ 12 + h % 4096

/-! Control-agent accesses: translated as a copy engine translates (R159), by the I/O die's walker. -/

/-- The pieces of a range that lie in one 4 KiB page each. -/
def pieces : Nat → Nat → Nat → List (Nat × Nat)
  | 0, _, _ => []
  | f + 1, va, n =>
    if n = 0 then []
    else
      let k := min n (4096 - va % 4096)
      (va, k) :: pieces f (va + k) (n - k)

/-- The pieces of a range of any length. -/
def pagesOf (va n : Nat) : List (Nat × Nat) := pieces (n / 4096 + 2) va n

/-- Translates a range piece by piece; an error names the address. -/
def State.xlatPieces (s : State) (ptbase : Nat) (plate : Bool) (k : Acc) :
    List (Nat × Nat) → Except (Cause × Nat) (List (Nat × Nat)) × State
  | [] => (.ok [], s)
  | (va, n) :: t =>
    match s.walkTo ptbase plate k va with
    | (.error c, s) => (.error (c, va), s)
    | (.ok p, s) =>
      match s.xlatPieces ptbase plate k t with
      | (.error e, s) => (.error e, s)
      | (.ok l, s) => (.ok ((p.key, n) :: l), s)

/-- A range of the context for the control agent; plate is set for the areas that R100 and R182 put in PLATE pages
for the device's own use: park frames and the register backing space. -/
def State.ctlXlat (s : State) (ptbase : Nat) (plate : Bool) (k : Acc) (va n : Nat) :
    Except (Cause × Nat) (List (Nat × Nat)) × State :=
  if va + n ≤ 2 ^ 47 then s.xlatPieces ptbase plate k (pagesOf va n) else (.error (.bounds, va), s)

/-- Reads a range of a context; an uncorrectable error names the address (R159, R398). -/
def State.ctlRead (s : State) (ptbase va n : Nat) : Except (Cause × Nat) (List Byte) × State :=
  match s.ctlXlat ptbase true .read va n with
  | (.error e, s) => (.error e, s)
  | (.ok l, s) =>
    if l.any fun p => s.cutKey p.1 then (.error (.uncorr, va), s)
    else if l.any fun p => readBad s p.1 p.2 then (.error (.uncorr, va), s.countUncorr)
    else (.ok (l.flatMap fun p => s.bytes p.1 p.2), s)

/-- The state after the control agent has tried to read a range. -/
def State.ctlSeen (s : State) (ptbase va n : Nat) : State := (s.ctlRead ptbase va n).2

/-- A value of n bytes of a context; 0 where it cannot be read. -/
def State.ctlNat (s : State) (ptbase va n : Nat) : Nat :=
  match (s.ctlRead ptbase va n).1 with
  | .ok bs => ofBytes bs
  | .error _ => 0

/-! Park notices. -/

def noticeHead : Nat := ioBase + 0x1000
def noticeTail : Nat := ioBase + 0x1008

/-- Notices the ring holds unread (R394). -/
def State.noticeUsed (s : State) : Nat := (s.nat noticeHead 4 + 2 ^ 32 - s.nat noticeTail 4) % 2 ^ 32

/-- Writes one notice into the ring. -/
def State.noticeWrite (s : State) (n : List W64) : State :=
  let i := s.nat noticeHead 4
  let s := s.poke (ioBase + 0x1040 + 64 * (i % 511)) (n.flatMap fun d => toBytes 8 d.toNat)
  (s.pokeNat noticeHead 4 (i + 1)).raiseIp ipFault

/-- Posts a notice, or holds it while the ring is full or others are held (R394). -/
def State.postNotice (s : State) (n : List W64) : State :=
  if s.notices.isEmpty && s.noticeUsed != 511 then s.noticeWrite n else { s with notices := s.notices ++ [n] }

/-- Writes held notices, oldest first, while there is room (R394). -/
def State.noticeDrainL (s : State) : List (List W64) → State
  | [] => { s with notices := [] }
  | n :: t => if s.noticeUsed != 511 then (s.noticeWrite n).noticeDrainL t else { s with notices := n :: t }

/-- The eight dwords of a notice (R394). -/
def noticeOf (kind cause access asid va rcb id frame hartid : Nat) : List W64 :=
  [w64 (kind % 256 + cause % 256 * 2 ^ 8 + access % 4 * 2 ^ 16 + asid % 4096 * 2 ^ 20), w64 (va % 2 ^ 48),
   w64 (rcb % 2 ^ 48), w64 id, w64 (frame % 2 ^ 48), w64 (hartid % 2 ^ 19), 0, 0]

/-! Cause codes and fault records. -/

/-- The code of a cause (R385). -/
def Cause.code : Cause → Nat
  | .none => 0 | .illop => 1 | .stream => 2 | .illvt => 3 | .regrange => 4 | .priv => 5 | .feature => 6
  | .pfault => 7 | .pprot => 8 | .vrange => 9 | .align => 10 | .bounds => 11 | .elided => 12 | .scope => 13
  | .fpof => 14 | .fpuf => 15 | .fpdz => 16 | .fpnv => 17 | .fpnx => 18 | .qdeadlock => 19 | .ecall => 20
  | .ebreak => 21 | .cperr => 22 | .uncorr => 23 | .timeout => 24 | .torn => 25 | .overlap => 26

/-- May an A-stream trap with this cause enter the user handler (R385, R388)? -/
def Cause.handled : Cause → Bool
  | .pfault | .qdeadlock | .timeout | .none | .torn | .overlap => false
  | _ => true

/-- The fields of a fault record (R190). -/
structure FRec where
  kind : Nat
  cause : Nat
  status : Nat
  kernid : Nat
  stepid : Nat
  hartid : Nat
  epc : Nat
  eval : Nat
  elaunch : Nat
  etid : Nat
  eelem : Nat
  stepix : List W64
  shadows : List W64
  donecnt : Nat
  nsteps : Nat
  cmdaddr : Nat
  bitmap : Nat
  deriving DecidableEq, Repr

/-- A record with every field 0. -/
def FRec.zero : FRec := ⟨0, 0, 0, 0, 0, 0, 0, 0, 0, 0, 0, [], [], 0, 0, 0, 0⟩

/-- A list of dwords padded with 0 to n. -/
def padDw (n : Nat) (l : List W64) : List W64 := (l ++ List.replicate n 0).take n

/-- The 256 bytes of a fault record (R190). -/
def FRec.bytes (r : FRec) : List Byte :=
  let dws : List W64 :=
    [w64 (r.kind % 256 + r.cause % 256 * 2 ^ 8 + r.status % 256 * 2 ^ 16 + r.kernid % 2 ^ 32 * 2 ^ 32), w64 r.stepid,
     w64 (r.hartid % 2 ^ 19), w64 r.epc, w64 r.eval, w64 r.elaunch,
     w64 (r.etid % 2 ^ 16 + r.eelem % 2 ^ 12 * 2 ^ 16)]
    ++ padDw 7 r.stepix ++ padDw 8 r.shadows
    ++ [w64 (r.donecnt % 2 ^ 32 + r.nsteps % 2 ^ 32 * 2 ^ 32), w64 (r.cmdaddr % 2 ^ 48)]
    ++ (List.range 8).map fun i => w64 (fld r.bitmap (64 * i) 64)
  dws.flatMap fun d => toBytes 8 d.toNat

/-! Snapshots. -/

/-- MXCFG of a hart (R107). -/
def MRegs.mxcfg (m : MRegs) : Nat :=
  b2n m.abeam + b2n m.loadBusy * 2 + min 8 m.rows.length * 16 + m.sfmt.toNat * 256 + m.active.fmt.toNat * 4096

/-- Wait state of a stream for a snapshot (R415). -/
def waitCode (occ ended : Bool) : Wait → Nat
  | w =>
    if !occ then 8
    else if ended then 7
    else match w with
      | .none => 0 | .queue _ _ => 1 | .fence _ _ => 2 | .cpwait => 3 | .bwait => 4
      | .tbar | .rrot _ _ _ | .mrowt _ _ => 5 | .stall => 6

/-- Words of a bay (R415). -/
def State.snapBay (s : State) (bay : Nat) : List (Nat × W64) :=
  let hs := (List.range 8).map fun i => (i, s.hart (bay * 8 + i))
  hs.map (fun p => (2 + p.1, if p.2.occ then p.2.id.stepid else 0))
  ++ hs.map (fun p => (10 + p.1, if p.2.occ then p.2.a.pc else 0))
  ++ hs.map (fun p => (18 + p.1, if p.2.occ then p.2.e.pc else 0))
  ++ hs.map (fun p => (26 + p.1, w64 (waitCode p.2.occ p.2.a.ended p.2.a.wait
        + 16 * waitCode p.2.occ p.2.e.ended p.2.e.wait)))
  ++ hs.map (fun p => (34 + p.1, if p.2.occ then w64 p.2.m.mxcfg else 0))

/-- An engine entry as a copy engine's block shows it (R415). -/
def State.snapRef (s : State) : XRef → W64
  | .slot h i gen => w64 (2 ^ 63 + s.hartId h * 2 ^ 16 + gen.toNat * 256 + i)
  | .cmd _ => w64 (2 ^ 63)
  | .parked id k i gen =>
    let h := (((s.parked.find? fun p => p.stepid == id).bind fun p => p.frames[k]?).map (·.1)).getD 0
    w64 (2 ^ 63 + s.hartId h * 2 ^ 16 + gen.toNat * 256 + i)

/-- Reference of a sill command. -/
def SillCmd.ref : SillCmd → XRef
  | .smv r | .sub r | .pull r _ _ _ | .stop r => r

/-- The chunks in flight of an engine's entry. -/
def State.flightsOf (s : State) : XRef → List Flight
  | .slot h i gen =>
    let x := tgetD (s.hart h).r.slots i Xfer.zero
    if x.gen = gen then x.flight else []
  | .cmd id => (((s.cmds.find? fun c => c.id == id).bind (·.xfer)).map (·.flight)).getD []
  | .parked _ _ _ _ => []

/-- Flits of 256 bytes in flight on a virtual channel of a tile's router (R406, R415): chunks that have been read and not landed, and
records on their way; what another channel carries is over in the step that begins it (log 10). -/
def State.flits (s : State) (tile vc : Nat) : Nat :=
  match vc with
  | 4 => ((s.copyq.filter fun p => p.1 / 16 == tile).flatMap fun p => p.2.flatMap s.flightsOf).foldl
      (fun n f => n + ceilDiv f.bytes 256) 0
  | 7 => (s.rq.filter fun q => q.truss / 16 == tile).length
  | _ => 0

/-- Free credits of link k on a virtual channel (R165, R415): those toward its neighbour for records; for another channel no rule
gives a number, and the word is a free value (log 10). -/
def State.linkCredits (s : State) (k vc : Nat) : W64 :=
  if vc = 7 then w64 (tgetD s.credits (fld (s.nat (ioBase + 0xB100 + 8 * k) 8) 8 6) 64)
  else Config.snapWord (600 + k) (4 + vc) s.free

/-- Words 2 and up of a block (R415). -/
def State.snapBlock (s : State) (b : Nat) : List (Nat × W64) :=
  if b < 512 then s.snapBay b
  else if b < 576 then
    let q := tgetD s.copyq (b - 512) []
    (2, w64 q.length) :: (List.range q.length).map fun j => (3 + j, (q[j]?.map s.snapRef).getD 0)
  else if b < 584 then
    [(2, 0), (3, w64 ((s.vtts.filter fun p => p.1 / 4096 == b - 576).length))]
  else if b < 592 then
    let q := tgetD s.sillq (b - 584) []
    [(2, w64 q.length), (3, match q with | [] => 0 | c :: _ => s.snapRef c.ref)]
  else if b < 596 then (List.range 8).map fun v => (2 + v, w64 (s.flits (b - 592) v))
  else if b < 600 then
    let p := s.plate (b - 596)
    [(2, p.pc), (3, s.preg.ipend.setWidth 64), (4, if p.run = .halted then 1 else 0)]
  else if b < 616 then
    [(2, w64 (s.nat (ioBase + 0xB100 + 8 * (b - 600)) 8 % 4)), (3, w64 (tgetD s.mg.replays (b - 600) 0))]
      ++ (List.range 8).map fun v => (4 + v, s.linkCredits (b - 600) v)
  else if b = 616 then [(2, w64 (s.mg.pcieWidth % 256 + s.mg.pcieRate % 256 * 256)), (3, w64 s.mg.vfs)]
  else [(2, s.mg.bootstat)]

/-- Is the block present and enabled (R114, R26)? -/
def State.blockOn (s : State) (b : Nat) : Bool :=
  if b < 512 then s.bayOn b
  else if b < 576 then (List.range 8).any fun i => s.bayOn ((b - 512) * 8 + i)
  else if b < 584 then s.record.chiplets.getLsbD (b - 576)
  else if b < 592 then s.record.sills.getLsbD (b - 584)
  else if b < 600 then true
  else if b < 616 then s.record.links.getLsbD (b - 600)
  else b ≤ 617

/-- One word of a block as a latch would take it (R415); an absent block and an unlisted word read 0. -/
def State.snapWord (s : State) (b w : Nat) : W64 :=
  if s.blockOn b then
    if w = 0 then w64 (b + 2 ^ 12)
    else if w = 1 then w64 s.cycle
    else (tget (s.snapBlock b) w).getD 0
  else 0

/-- Latches every block (R114, R415). -/
def State.snapLatch (s : State) : State :=
  let words := (List.range 618).flatMap fun b =>
    if s.blockOn b then
      (b * 256, w64 (b + 2 ^ 12)) :: (b * 256 + 1, w64 s.cycle) :: (s.snapBlock b).map fun p => (b * 256 + p.1, p.2)
    else []
  let harts := s.harts.map fun p =>
    if p.2.occ then (p.1, { p.2 with id := { p.2.id with snapped := true } }) else p
  ({ s with
      snap := some { words := words, cycle := w64 s.cycle }
      harts := harts
      free := s.free + 1
      preg := { s.preg with armed := false, captured := true } }).raiseIp ipSnap

/-- A trigger that would be taken when armed (R114): latches, or counts in MISSED, saturating. -/
def State.snapTrigger (s : State) : State :=
  if s.preg.armed then s.snapLatch
  else { s with preg := { s.preg with missed := if s.preg.missed = 255 then 255 else s.preg.missed + 1 } }

/-- The snapshot a region marks for a cause (R114, R182). -/
def State.capture (s : State) (mask : BitVec 32) (c : Cause) : State :=
  if mask.getLsbD c.code then s.snapTrigger else s

/-! The I/O-die space. -/

/-- The bits of a byte of the I/O-die space that software writes (R207, R394, R403, R408). -/
def ioMask (formed : Bool) (off : Nat) : Nat :=
  if 0x1008 ≤ off ∧ off < 0x100C then 0xFF
  else if 0xA000 ≤ off ∧ off < 0xA800 then (if off % 8 = 0 then 0xFF else if off % 8 = 1 then 0x1F else 0)
  else if off = 0xB008 then (if formed then 0 else 0x3F)
  else if off = 0xB009 then (if formed then 0 else 1)
  else if 0x80_0000 ≤ off ∧ off < 0x100_0000 then
    (if off % 8 < 6 then 0xFF else if off % 8 = 7 then 0x80 else 0)
  else 0

/-- One byte written by software to the I/O-die space. -/
def State.ioByte (s : State) (a : Nat) (b : Byte) : State :=
  let off := a - ioBase
  if 0xA800 ≤ off ∧ off < 0xA820 then s.poke a [memGet s.mem a &&& ~~~b]
  else
    let m := BitVec.ofNat 8 (ioMask s.formed off)
    s.poke a [(memGet s.mem a &&& ~~~m) ||| (b &&& m)]

/-- The FLRs that firmware's clearing of map bits has completed (R405). -/
def State.flrSync (s : State) : State :=
  { s with mg := { s.mg with
      flr := s.mg.flr.filter fun p => (memGet s.mem (ioBase + 0xA800 + p.1 / 8)).getLsbD (p.1 % 8)
      flrDone := s.mg.flrDone.filter fun v => (memGet s.mem (ioBase + 0xA800 + v / 8)).getLsbD (v % 8) } }

/-- Bytes written one by one. -/
def State.ioBytes (s : State) : Nat → List Byte → State
  | _, [] => s
  | a, b :: bs => (s.ioByte a b).ioBytes (a + 1) bs

/-- A store to the tables of the I/O-die space (R122, R207, R394, R403, R405, R408). -/
def State.ioTables (s : State) (a : Nat) (bs : List Byte) : State :=
  let pod := s.formed
  let s := (s.ioBytes a bs).flrSync
  if s.formed && !pod then { s with mg := { s.mg with pod := s.mg.pod ||| BitVec.ofNat 64 (2 ^ s.pkgNum) } } else s

/-! Writes at cells. -/

/-- Marks the granules of the allocations that a scratch write touches (R143). -/
def State.markDirty (s : State) (k n : Nat) : State :=
  if isScratch k then
    let bay := (k - 2 ^ 52) / 2 ^ 23
    let off := (k - 2 ^ 52) % 2 ^ 23
    { s with harts := s.harts.map fun p =>
        if p.2.occ && bayOf p.1 == bay && decide (p.2.r.alloc ≤ off) && decide (off < p.2.r.alloc + p.2.r.allocSize) then
          let g0 := (off - p.2.r.alloc) / 4096
          let g1 := (off + n - 1 - p.2.r.alloc) / 4096
          let new := (span g0 (g1 + 1 - g0)).filter fun g => !(p.2.r.dirty.contains g)
          (p.1, { p.2 with r := { p.2.r with dirty := p.2.r.dirty ++ new } })
        else p }
  else s

/-- Bytes written at cells outside the I/O-die space: memory, or scratch with its dirty granules; a write to a package that no
path leads to is lost (R407). -/
def State.storeMem (s : State) (k : Nat) (bs : List Byte) : State :=
  if s.cutKey k then s.raiseIp ipUncorr else (s.poke k bs).markDirty k bs.length

/-- The same, where a piece may lie in the I/O-die space and its size is none that a doorbell page takes (R403). -/
def State.storeLow (s : State) (k : Nat) (bs : List Byte) : State :=
  if isIo k then (if ioBase + 2 ^ 32 ≤ k then s else s.ioTables k bs) else s.storeMem k bs

/-- Bytes over pieces, each written by put. -/
def State.putPieces (put : State → Nat → List Byte → State) (s : State) : List (Nat × Nat) → List Byte → State
  | [], _ => s
  | (k, n) :: t, bs => State.putPieces put (put s k (bs.take n)) t (bs.drop n)

/-- A range of a context written piece by piece (R159); an uncorrectable error writes nothing. -/
def State.ctlPut (put : State → Nat → List Byte → State) (s : State) (ptbase : Nat) (plate : Bool) (va : Nat)
    (bs : List Byte) : Except (Cause × Nat) Unit × State :=
  match s.ctlXlat ptbase plate .write va bs.length with
  | (.error e, s) => (.error e, s)
  | (.ok l, s) =>
    if l.any fun p => writeBad s p.1 p.2 then (.error (.uncorr, va), s.countUncorr)
    else (.ok (), State.putPieces put s l bs)

/-! Kicks. -/

/-- Ring base and log2 size of a QCB's first dword; none when malformed (R154, R155). -/
def qcbRing (d : Nat) : Option (Nat × Nat) :=
  let base := fld d 0 48
  let lg := fld d 60 4
  if 4 ≤ lg ∧ base % (64 * 2 ^ lg) = 0 then some (base, lg) else none

/-- Sets bit n of a region's kick bitmap (R156, R182). -/
def State.setKickBit (s : State) (rcb n : Nat) : State :=
  s.devPoke (rcb + 0x80 + n / 8) (toBytes 1 (s.nat (rcb + 0x80 + n / 8) 1 ||| 2 ^ (n % 8)))

/-- Address of QCB n of a region (R154). -/
def State.qcbAt (s : State) (rcb n : Nat) : Nat := s.rcbFld rcb 0x58 6 42 * 64 + 64 * n

/-- A kick of queue n of a region with a new write index (R155, R156, R367). A QCB that cannot be reached, or a region control block
that cannot be read, makes the kick fail as a malformed QCB does (log 11). -/
def State.kick (s : State) (rcb n widx : Nat) : State :=
  let pt := (s.ctxOf rcb).ptbase
  let q := s.qcbAt rcb n
  let failed : State → State := fun s => (s.setKickBit rcb n).raiseIp ipFault
  if s.rcbBad rcb then failed s.countUncorr
  else match s.ctlRead pt q 64 with
  | (.error _, s) => failed s
  | (.ok bs, s) =>
    match qcbRing (ofBytes (bs.take 8)) with
    | none => failed s
    | some _ =>
      match s.ctlPut State.storeLow pt false (q + 0x18) (toBytes 4 widx) with
      | (.error _, s) => failed s
      | (.ok _, s) =>
        if (ofBytes (bs.drop 0x10)).testBit 8 then s else (s.setKickBit rcb n).raiseIp ipKick

/-- The binding of doorbell page i (R403): the region's RCB. -/
def State.doorbell (s : State) (i : Nat) : Option Nat :=
  let d := s.nat (ioBase + 0x80_0000 + 8 * i) 8
  if d.testBit 63 then some (fld d 0 48) else none

/-- A store to doorbell page i at an offset (R403): 8 bytes at 8n, with n < 512, kick queue n of the bound region; else dropped. -/
def State.doorbellStore (s : State) (i off : Nat) (bs : List Byte) : State :=
  if bs.length = 8 ∧ off % 8 = 0 ∧ off / 8 < 512 then
    match s.doorbell i with
    | some rcb => s.kick rcb (off / 8) (ofBytes bs % 2 ^ 32)
    | none => s
  else s

/-- A store to the I/O-die space, performed once with its own size (R122, R125). -/
def State.ioStore (s : State) (a : Nat) (bs : List Byte) : State :=
  if ioBase + 2 ^ 32 ≤ a then s.doorbellStore ((a - ioBase - 2 ^ 32) / 4096) (a % 4096) bs else s.ioTables a bs

/-! Loads and stores at cells. -/

/-- A read of n bytes at a cell: the value, or an uncorrectable error (R128), as a read of a package that no path leads to
is (R407). -/
def State.loadAt (s : State) (k n : Nat) : Except Cause Nat × State :=
  if s.cutKey k then (.error .uncorr, s)
  else if readBad s k n then (.error .uncorr, s.countUncorr) else (.ok (s.nat k n), s)

/-- A write at a cell: memory, scratch with its dirty granule, or the I/O-die space; a partial write of a bad ECC
word changes nothing (R128), and a write to a package that no path leads to is lost (R407). -/
def State.storeAt (s : State) (k : Nat) (bs : List Byte) : Option Cause × State :=
  if isIo k then (none, s.ioStore k bs)
  else if writeBad s k bs.length then (some .uncorr, s.countUncorr)
  else (none, s.storeMem k bs)

/-! Writes of the control agent. -/

/-- A range written as memory, its pieces through the I/O-die space as DEVICE accesses (R122). -/
def State.ctlWriteAs (s : State) (ptbase : Nat) (plate : Bool) (va : Nat) (bs : List Byte) :
    Except (Cause × Nat) Unit × State :=
  s.ctlPut (fun s k bs => (s.storeAt k bs).2) ptbase plate va bs

/-- A range written as a copy engine writes (R159). -/
def State.ctlWrite (s : State) (ptbase va : Nat) (bs : List Byte) : Except (Cause × Nat) Unit × State :=
  s.ctlWriteAs ptbase false va bs

/-- A device write to a table in paged memory, dropped when it cannot be made (R173). -/
def State.ctlWriteD (s : State) (ptbase va : Nat) (bs : List Byte) : State := (s.ctlWrite ptbase va bs).2

/-! The fault log. -/

/-- Appends a fault record to a region's log, or counts it lost (R190). -/
def State.logFault (s : State) (rcb : Nat) (r : FRec) : State :=
  let base := s.rcbFld rcb 0x68 8 40 * 256
  let lg := s.rcbFld rcb 0x68 60 4
  let head := s.rcbFld rcb 0x70 0 32
  let tail := s.rcbFld rcb 0x70 32 32
  let lost : State → State := fun s => s.devPoke (rcb + 0xD8) (toBytes 4 ((s.nat (rcb + 0xD8) 4 + 1) % 2 ^ 32))
  if readBad s (rcb + 0x68) 16 then lost s.countUncorr
  else if base = 0 ∨ lg < 4 ∨ 12 < lg ∨ (head + 2 ^ 32 - tail) % 2 ^ 32 = 2 ^ lg then lost s
  else
    match s.ctlWrite (s.ctxOf rcb).ptbase (base + 256 * (head % 2 ^ lg)) r.bytes with
    | (.error _, s) => lost s
    | (.ok _, s) => (s.devPoke (rcb + 0x70) (toBytes 4 (head + 1))).raiseIp ipFault

end Sys2Proof.Machine
end

