-- ==== Sys2Proof/Machine/L1.lean ====
section
/-! DEFINITION. The L1 data caches of the bays (R124): what an A-stream reads and writes through them, the snoops of the
E-streams, and their releases and acquires. Everything else is performed at its home (R123). -/

namespace Sys2Proof.Machine

/-- Bytes of a line (log 81). -/
def lineBytes : Nat := 8 * 2 ^ (Config.l1Line % 6)

/-- Are two cells of one line? -/
def sameLine (a b : Nat) : Bool := a / lineBytes == b / lineBytes

/-- Does a cell lie in a line that some of n bytes from k lie in? -/
def inLines (k n c : Nat) : Bool := decide (k / lineBytes ≤ c / lineBytes) && decide (c / lineBytes ≤ (k + n - 1) / lineBytes)

/-- The cells of the lines of n bytes from k. -/
def lineCells (k n : Nat) : List Nat :=
  let lo := k / lineBytes * lineBytes
  span lo (roundUp (k + n) lineBytes - lo)

/-- Does an A-stream access to this place go through the L1 (R120, R124, R125)? -/
def Phys.cached (p : Phys) : Bool := !p.dev && !(isScratch p.key)

/-- Do the L1s snoop an E-stream's access to this place (R120, R124)? To paged memory they do, whatever the kind of its mapping. -/
def Phys.snooped (p : Phys) : Bool := !(isScratch p.key)

/-- Does the cache hold a cell? -/
def L1.holds (c : L1) (k : Nat) : Bool := (tget c.dirty k).isSome || (tget c.clean k).isSome

/-- Does it hold all of n bytes? -/
def L1.holdsAll (c : L1) (k n : Nat) : Bool := (span k n).all c.holds

/-- The byte of a cell through the cache. -/
def L1.view (c : L1) (m : List Host.Cell) (k : Nat) : Byte := ((tget c.dirty k).orElse fun _ => tget c.clean k).getD (memGet m k)

/-- Does a read of these bytes meet a bad word of the cache (R128)? -/
def L1.readBad (c : L1) (k n : Nat) : Bool := c.bad.any fun w => decide (w < k + n) && decide (k < w + 8)

/-- Does a write cover a bad word of the cache only in part (R128)? -/
def L1.writeBad (c : L1) (k n : Nat) : Bool :=
  c.bad.any fun w => decide (w < k + n) && decide (k < w + 8) && !(decide (k ≤ w) && decide (w + 8 ≤ k + n))

/-- Lines that an L1 of 64 KiB has (R15). -/
def l1Lines : Nat := 65536 / lineBytes

/-- In how many lines do these cells lie? -/
def lineCount (ks : List Nat) : Nat := ((ks.map (· / lineBytes)).eraseDups).length

/-- Would the dirty lines, with the line of n bytes from k, be more than the cache has? Fewer than 256 dirty bytes never are. -/
def L1.full (c : L1) (k n : Nat) : Bool :=
  decide (256 ≤ c.dirty.length) && decide (l1Lines < lineCount (c.dirty.map (·.1) ++ span k n))

/-- The clean copies that are left where a fill for n bytes from k gives t: all, where the cache has room for their lines; else
those of the lines of the n bytes, or none (log 81). -/
def L1.keepClean (c : L1) (k n : Nat) (t : Tab Byte) : Tab Byte :=
  let fits := fun (l : Tab Byte) => decide (lineCount ((c.dirty ++ l).map (·.1)) ≤ l1Lines)
  let new := t.filter fun b => inLines k n b.1
  if fits t then t else if fits new then new else []

/-- The lines of n bytes come in, but for words whose home cannot be read. -/
def State.l1Fill (s : State) (c : L1) (k n : Nat) : L1 :=
  { c with clean := c.keepClean k n ((lineCells k n).foldl (fun t x =>
      if (tget c.dirty x).isSome || (tget t x).isSome || readBad s x 1 then t else tput t x (memGet s.mem x)) c.clean) }

/-- A load of n bytes through a bay's L1 (R124). -/
def State.l1Load (s : State) (bay k n : Nat) : Except Cause Nat × State :=
  let c := s.l1Of bay
  if c.readBad k n || (Machine.readBad s k n && !(c.holdsAll k n)) then (.error .uncorr, s.countUncorr)
  else (.ok (ofBytes ((span k n).map (c.view s.mem))), s.setL1 bay (s.l1Fill c k n))

/-- One write that a write-back has lost: the home keeps its older bytes, and IPEND.UNCORR is raised (R398). -/
def State.lostWrite (s : State) : State := s.countUncorr.raiseIp ipUncorr

/-- The dirty bytes of a bay whose cells satisfy p go to their homes, and their lines leave the cache whole, so that no unit is left
with copies of different ages (R127). A bad word of the cache is lost, and so are bytes that cover a bad ECC word of the home only
in part (R128, R398). -/
def State.l1WriteBack (s : State) (bay : Nat) (p : Nat → Bool) : State :=
  let c := s.l1Of bay
  let out := c.dirty.filter fun b => p b.1
  if out.isEmpty then s
  else
    let lost := c.bad.filter fun w => out.any fun b => decide (w ≤ b.1) && decide (b.1 < w + 8)
    let good := out.filter fun b => !(c.bad.contains (b.1 / 8 * 8))
    let full := fun (w sz : Nat) => (span w sz).all fun k => good.any fun b => b.1 == k
    let hit := s.bad.filter fun w => match eccWord w with
      | some (_, sz) => good.any fun b => decide (w ≤ b.1) && decide (b.1 < w + sz)
      | none => false
    let part := hit.filter fun w => match eccWord w with
      | some (_, sz) => !(full w sz)
      | none => false
    let ok := good.filter fun b => match eccWord b.1 with
      | some (w, _) => !(part.contains w)
      | none => true
    let s := s.setL1 bay
      { dirty := c.dirty.filter fun b => !(p b.1)
        clean := c.clean.filter fun b => !(out.any fun d => sameLine d.1 b.1)
        bad := c.bad.filter fun w => !(lost.contains w) }
    let s := { s with mem := memWriteCells s.mem ok, bad := s.bad.filter fun w => part.contains w || !(hit.contains w) }
    (List.range (lost.length + part.length)).foldl (fun (s : State) (_ : Nat) => s.lostWrite) s

/-- Room for the line of n bytes from k: a cache full of dirty lines writes the others back (log 81). -/
def State.l1Room (s : State) (bay k n : Nat) : State :=
  if (s.l1Of bay).full k n then s.l1WriteBack bay fun x => !(inLines k n x) else s

/-- A store through a bay's L1: the bytes are dirty there until a write-back (R124). -/
def State.l1Store (s : State) (bay k : Nat) (bs : List Byte) : Option Cause × State :=
  let n := bs.length
  let c := s.l1Of bay
  if c.writeBad k n || (Machine.writeBad s k n && !(c.holdsAll k n)) then (some .uncorr, s.countUncorr)
  else
    let s := s.l1Room bay k n
    let c := s.l1Fill (s.l1Of bay) k n
    (none, s.setL1 bay
      { dirty := (span k n).zip bs |>.foldl (fun t p => tput t p.1 p.2) c.dirty
        clean := (span k n).foldl tdel c.clean
        bad := c.bad.filter fun w => !(decide (k ≤ w) && decide (w + 8 ≤ k + n)) })

/-- A release at TRUSS or wider by a hart's A-stream, or at the end or the park of its step (R42, R124, R353). -/
def State.l1Release (s : State) (h : Nat) : State := s.l1WriteBack (bayOf h) fun _ => true

/-- An acquire at TRUSS or wider (R124). -/
def State.l1Acquire (s : State) (h : Nat) : State := s.l1Drop (bayOf h) fun _ => true

/-- The lines of n bytes leave a bay's L1, the dirty ones by way of their homes: what an E-stream's store and an atomic, which are
performed at the home, do first (R124, R125). -/
def State.l1Flush (s : State) (bay k n : Nat) : State := (s.l1WriteBack bay (inLines k n)).l1Drop bay (inLines k n)

/-- An L1 holds nothing any more, the dirty lines by way of their homes. -/
def State.l1Empty (s : State) (bay : Nat) : State := (s.l1WriteBack bay fun _ => true).setL1 bay .empty

/-- n bytes as an E-stream of a bay reads them (R124): a dirty line of the bay's L1 serves the bytes that are dirty, and the home
the others, so that no read goes back behind an earlier one (R355; DESIGN CHOICE, log 81). -/
def State.snoopBytes (s : State) (bay k n : Nat) : List Byte :=
  let c := s.l1Of bay
  if c.dirty.isEmpty then s.bytes k n else (span k n).map fun x => (tget c.dirty x).getD (memGet s.mem x)

/-- Does such a read meet an uncorrectable error? -/
def State.snoopBad (s : State) (bay k n : Nat) : Bool :=
  let c := s.l1Of bay
  if c.dirty.isEmpty then readBad s k n
  else (span k n).any fun x => if (tget c.dirty x).isSome then c.readBad x 1 else readBad s x 1

end Sys2Proof.Machine
end

