-- ==== Sys2Proof/Machine/Block.lean ====
section
/-! DEFINITION. The records the device reads: command headers (R158, R159), operator blocks (R38, R184, R185),
step numbering (R39), tensor descriptors (R174..R177) and the splice test (R376). -/

namespace Sys2Proof.Machine

/-- A field of a 64-byte command record: byte offset, low bit within the dword, length. -/
def recFld (r : BitVec 512) (off lo len : Nat) : Nat := fld r.toNat (8 * off + lo) len

/-- KIND, CONCURRENT, KERNID of a record (R158). -/
def recKind (r : BitVec 512) : Nat := recFld r 0 0 8
def recConc (r : BitVec 512) : Bool := recFld r 0 8 1 == 1
def recKern (r : BitVec 512) : Nat := recFld r 0 32 32

/-- A list of bytes as a record. -/
def recOf (bs : List Byte) : BitVec 512 := BitVec.ofNat 512 (ofBytes bs)

/-- The reserved fields of R158 and R159 that must be 0, and the ranges of body fields; node says whether the record
is a graph node, whose bytes 0x30..0x3F R186 lays out. -/
def recOk (r : BitVec 512) (node : Bool) : Bool :=
  let k := recKind r
  let d8 := recFld r 0x08 0 64
  let d10 := recFld r 0x10 0 64
  let rest := recFld r 0x18 0 192
  (k ≤ 7) && recFld r 0 9 7 == 0 && recFld r 0 24 8 == 0 && (k == 1 || recKern r == 0)
  && (if node then recFld r 0x30 8 8 == 0 && recFld r 0x38 0 64 == 0 else recFld r 0x30 0 128 == 0)
  && rest == 0
  && match k with
    | 0 | 5 => d8 == 0 && d10 == 0
    | 1 => decide (d8 < 2 ^ 48) && d8 % 512 == 0 && d10 == 0
    | 2 => decide (d8 < 2 ^ 48) && d8 % 64 == 0 && d10 == 0
    | 3 => decide (d8 < 2 ^ 48) && d8 % 64 == 0 && decide (d10 < 2 ^ 48) && d10 % 64 == 0
    | 4 => fld d8 8 3 ≤ 5 && decide (d8 < 2 ^ 11)
    | _ => decide (d8 < 2 ^ 51) && d8 % 8 == 0

/-- Successor j and predecessor count of a node record (R186). -/
def nodeSucc (r : BitVec 512) (j : Nat) : Nat := recFld r 0x30 (16 + 8 * j) 8
def nodePreds (r : BitVec 512) : Nat := recFld r 0x30 0 8

/-! Operator blocks. -/

/-- A field of an operator block (R184). -/
def blkFld (b : BitVec 4096) (off lo len : Nat) : Nat := fld b.toNat (8 * off + lo) len

def blkPool (b : BitVec 4096) : Bool := blkFld b 0 0 8 == 1
def blkNdim (b : BitVec 4096) : Nat := blkFld b 0 8 8
def blkNopnd (b : BitVec 4096) : Nat := blkFld b 0 16 8
def blkOrder (b : BitVec 4096) (p : Nat) : Nat := blkFld b 0 (32 + 3 * p) 3
def blkRsize (b : BitVec 4096) : Nat := blkFld b 8 0 16
def blkLanes (b : BitVec 4096) : Nat := blkFld b 8 16 8
def blkTruss (b : BitVec 4096) : Bool := blkFld b 8 24 1 == 1
def blkNosplice (b : BitVec 4096) : Bool := blkFld b 8 25 1 == 1
def blkOnce (b : BitVec 4096) : Bool := blkFld b 8 26 1 == 1
def blkTransOk (b : BitVec 4096) : Bool := blkFld b 8 27 1 == 1
def blkScrb (b : BitVec 4096) : Nat := blkFld b 8 32 32
def blkAentry (b : BitVec 4096) : Nat := blkFld b 0x10 0 48
def blkEentry (b : BitVec 4096) : Nat := blkFld b 0x30 0 48
def blkShape (b : BitVec 4096) (d : Nat) : Nat := blkFld b (0x18 + 2 * d) 0 16
def blkExtent (b : BitVec 4096) (d : Nat) : Nat := blkFld b (0x24 + 2 * d) 0 16

/-- Tensor identifier, role, map entry and offset of operand k (R185). -/
def opndId (b : BitVec 4096) (k : Nat) : Nat := blkFld b (0x100 + 32 * k) 0 7
def opndRole (b : BitVec 4096) (k : Nat) : Nat := blkFld b (0x101 + 32 * k) 0 2
def opndMap (b : BitVec 4096) (k t d : Nat) : Int := sext 4 (blkFld b (0x102 + 32 * k) (4 * (6 * t + d)) 4)
def opndOff (b : BitVec 4096) (k t : Nat) : Int := sext 16 (blkFld b (0x114 + 32 * k + 2 * t) 0 16)

/-- The product of the extents of a block. -/
def blkTotal (b : BitVec 4096) : Nat := ((List.range (blkNdim b)).map (blkExtent b)).foldl (· * ·) 1

/-- Is the order field a permutation (R38)? -/
def blkOrderOk (b : BitVec 4096) : Bool :=
  let n := blkNdim b
  (List.range n).all fun d => (List.range n).any fun p => blkOrder b p == d

/-- The items of R38 and R41 that the block itself decides; a block that breaks one ends BADBLOCK. Reserved bits are
ignored (R11), but for those that make an entry point longer than 48 bits. -/
def blkOk (b : BitVec 4096) : Bool :=
  let n := blkNdim b
  (blkFld b 0 0 8 ≤ 1) && decide (1 ≤ n) && (n ≤ 6) && (blkNopnd b ≤ 8) && blkOrderOk b
  && ((List.range n).all fun d => decide (1 ≤ blkShape b d))
  && ((List.range (blkNopnd b)).all fun k => opndRole b k != 3)
  && blkFld b 0x10 0 64 % 4 == 0 && decide (blkFld b 0x10 0 64 < 2 ^ 48)
  && blkFld b 0x30 0 64 % 4 == 0 && decide (blkFld b 0x30 0 64 < 2 ^ 48)
  && (blkLanes b == 4 || blkLanes b == 8 || blkLanes b == 16 || blkLanes b == 32)
  && decide (8 ≤ blkRsize b) && (blkRsize b ≤ 1024) && blkRsize b % 8 == 0
  && (blkScrb b ≤ 2 ^ 23) && blkScrb b % 4096 == 0
  && (blkTotal b ≤ 2 ^ 32) && (!(blkPool b) || blkScrb b != 0)

/-- The step index of linear step n (R39), dimension by dimension; the digits of n stand in ORDER, innermost last. -/
def blkIndex (b : BitVec 4096) (n : Nat) : List Nat :=
  let k := blkNdim b
  let weight : Nat → Nat := fun p => ((span (p + 1) (k - 1 - p)).map fun q => blkExtent b (blkOrder b q)).foldl (· * ·) 1
  (List.range k).map fun d =>
    match (List.range k).find? fun p => blkOrder b p == d with
    | some p => n / weight p % (max 1 (blkExtent b d))
    | none => 0

/-- The linear number of a step index (R39). -/
def blkLinear (b : BitVec 4096) (i : List Nat) : Nat :=
  (List.range (blkNdim b)).foldl (fun acc p => acc * blkExtent b (blkOrder b p) + i.getD (blkOrder b p) 0) 0

/-! Tensor descriptors (R174). -/

/-- A field of a descriptor. -/
def tdFld (t : BitVec 1024) (off lo len : Nat) : Nat := fld t.toNat (8 * off + lo) len

def tdFmt (t : BitVec 1024) : Nat := tdFld t 0 0 4
def tdRank (t : BitVec 1024) : Nat := tdFld t 0 4 3
def tdLayout (t : BitVec 1024) : Nat := tdFld t 0 8 2
def tdValid (t : BitVec 1024) : Bool := tdFld t 0 10 1 == 1
def tdTransient (t : BitVec 1024) : Bool := tdFld t 0 11 1 == 1
def tdRdonly (t : BitVec 1024) : Bool := tdFld t 0 12 1 == 1
def tdElided (t : BitVec 1024) : Bool := tdFld t 0 13 1 == 1
def tdBase (t : BitVec 1024) : Nat := tdFld t 8 0 48
def tdScale (t : BitVec 1024) : Nat := tdFld t 0x10 0 48
def tdDim (t : BitVec 1024) (d : Nat) : Nat := tdFld t (0x18 + 4 * d) 0 32
def tdTile (t : BitVec 1024) (d : Nat) : Nat := tdFld t (0x30 + 2 * d) 0 16
def tdStride (t : BitVec 1024) (d : Nat) : Int := sext 64 (tdFld t (0x40 + 8 * d) 0 64)
def tdGen (t : BitVec 1024) : Nat := tdFld t 0x70 0 64

/-- Width in bits of a format (R69); 0 for the reserved codes. -/
def fmtWidth (f : Nat) : Nat :=
  match f with
  | 0 | 1 | 9 | 10 | 12 => 8
  | 2 | 3 | 7 | 8 => 16
  | 4 | 5 | 6 => 32
  | 11 | 13 => 4
  | _ => 0

/-- Is the format scaled (R69)? -/
def fmtScaled (f : Nat) : Bool := decide (9 ≤ f) && decide (f ≤ 13)

/-- The feature a format belongs to is accepted (R4, R69). -/
def State.fmtAccepted (s : State) (f : Nat) : Bool :=
  if f = 11 then s.has .fp4 else if f = 12 ∨ f = 13 then s.has .dFormats else true

/-- What a use of a descriptor would do (R177, R267, R340): 0 proceed, 1 BOUNDS, 2 FEATURE, 3 ELIDED. -/
def State.tdUse (s : State) (t : BitVec 1024) : Nat :=
  let r := tdRank t
  let badDim := (List.range r).any fun d => tdDim t d == 0 || tdTile t d == 0
  let sillFmt := fmtScaled (tdFmt t) || tdFmt t == 7 || tdFmt t == 8
  if !(tdValid t) || decide (14 ≤ tdFmt t) || r == 0 || decide (6 < r) || badDim || decide (2 ≤ tdLayout t)
      || (tdLayout t == 1 && (r != 2 || !sillFmt)) then 1
  else if !(s.fmtAccepted (tdFmt t)) || (tdLayout t == 1 && !(s.has .sill)) then 2
  else if tdElided t then 3
  else 0

/-- Tiles along each dimension (R176). -/
def tdGrid (t : BitVec 1024) : List Nat := (List.range (tdRank t)).map fun d => ceilDiv (tdDim t d) (tdTile t d)

/-- Row-major coordinates of a number in a box of these extents. -/
def unravel : List Nat → Nat → List Nat
  | [], _ => []
  | _ :: t, n => (n / t.foldl (· * ·) 1) :: unravel t (n % t.foldl (· * ·) 1)

/-- Row-major number of coordinates. -/
def ravel (ext : List Nat) (c : List Nat) : Nat := (ext.zip c).foldl (fun acc p => acc * p.1 + p.2) 0

/-- Tile extents of a descriptor. -/
def tdTiles (t : BitVec 1024) : List Nat := (List.range (tdRank t)).map (tdTile t)

/-- Elements of one tile. -/
def tdTileElems (t : BitVec 1024) : Nat := (tdTiles t).foldl (· * ·) 1

/-- Bytes of one tile in dense row-major order. -/
def tdTileBytes (t : BitVec 1024) : Nat := ceilDiv (tdTileElems t * fmtWidth (tdFmt t)) 8

/-- Number of tiles of a tensor. -/
def tdTileCount (t : BitVec 1024) : Nat := (tdGrid t).foldl (· * ·) 1

/-- Bytes of a slice row of a SILL tensor (R141). -/
def tdSliceBytes (t : BitVec 1024) : Nat := 64 * fmtWidth (tdFmt t)

/-- Address of an element (R141, R175), as an integer. -/
def tdElemAddr (t : BitVec 1024) (e : List Nat) : Int :=
  let w := fmtWidth (tdFmt t)
  if tdLayout t = 1 then
    let y := e.getD 0 0
    let k := e.getD 1 0
    (tdBase t + (k / 512 * roundUp (tdDim t 0) 32 + y) * tdSliceBytes t + k % 512 * w / 8 : Nat)
  else
    let r := tdRank t
    (tdBase t : Int) + ((List.range (r - 1)).map fun d => (e.getD d 0 : Int) * tdStride t d).foldl (· + ·) 0
      + (e.getD (r - 1) 0 * w / 8 : Nat)

/-- Address of an element's scale (R141, R175). -/
def tdScaleAddr (t : BitVec 1024) (e : List Nat) : Nat :=
  if tdLayout t = 1 then
    let y := e.getD 0 0
    let k := e.getD 1 0
    tdScale t + (k / 512 * roundUp (tdDim t 0) 32 + y) * 16 + k % 512 / 32
  else
    let r := tdRank t
    let dims := (List.range (r - 1)).map (tdDim t)
    tdScale t + ravel dims (e.take (r - 1)) * ceilDiv (tdDim t (r - 1)) 32 + e.getD (r - 1) 0 / 32

/-- Is an element inside the tensor? -/
def tdInside (t : BitVec 1024) (e : List Nat) : Bool :=
  (List.range (tdRank t)).all fun d => decide (e.getD d 0 < tdDim t d)

/-- Element j of tile number n, in row-major order of the tile (R176). -/
def tdTileElem (t : BitVec 1024) (n j : Nat) : List Nat :=
  let c := unravel (tdGrid t) n
  let o := unravel (tdTiles t) j
  (c.zip ((tdTiles t).zip o)).map fun p => p.1 * p.2.1 + p.2.2

/-! The splice test (R376). -/

/-- The operand of a block that names tensor T, when exactly one does. -/
def opndOnly (b : BitVec 4096) (tid : Nat) : Option Nat :=
  match (List.range (blkNopnd b)).filter fun k => opndId b k == tid with
  | [k] => some k
  | _ => none

/-- Row of a selection map that holds +1 in column d. -/
def selRow (b : BitVec 4096) (k n d : Nat) : Option Nat := (List.range n).find? fun t => opndMap b k t d == 1

/-- Is the map a selection map of n rows and n columns (R376 item 1)? -/
def selMap (b : BitVec 4096) (k n : Nat) : Bool :=
  ((List.range n).all fun t =>
    ((List.range n).filter fun d => opndMap b k t d == 1).length == 1
      && (List.range n).all fun d => opndMap b k t d == 1 || opndMap b k t d == 0)
  && (List.range n).all fun d => ((List.range n).filter fun t => opndMap b k t d != 0).length ≤ 1

/-- Column d of P that row d of G = transpose(Mp) Mc selects, when G is a permutation. -/
def spliceG (p c : BitVec 4096) (kp kc n d : Nat) : Option Nat :=
  match selRow p kp n d with
  | some t => (List.range n).find? fun e => opndMap c kc t e == 1
  | none => none

/-- The composition test of R376. -/
def spliceFits (p c : BitVec 4096) (kp kc : Nat) (td : BitVec 1024) : Bool :=
  let n := blkNdim p
  tdRank td == n && selMap p kp n && blkNdim c == n && selMap c kc n
  && ((List.range n).all fun t => opndOff p kp t == opndOff c kc t)
  && ((List.range n).all fun d => match spliceG p c kp kc n d with
      | some e => blkExtent p d == blkExtent c e
      | none => false)
  && ((List.range n).all fun t =>
      match (List.range n).find? fun d => opndMap p kp t d == 1 with
      | some d => decide (0 ≤ opndOff p kp t) &&
          decide ((blkExtent p d : Int) + opndOff p kp t ≤ (ceilDiv (tdDim td t) (tdTile td t) : Nat))
      | none => false)

/-- P's step G i that a spliced step pairs with C's step i (R376). -/
def spliceIndex (p c : BitVec 4096) (kp kc : Nat) (i : List Nat) : List Nat :=
  (List.range (blkNdim p)).map fun d => match spliceG p c kp kc (blkNdim p) d with
    | some e => i.getD e 0
    | none => 0

/-- The tile coordinate an operand names in a step (R39). -/
def opndTile (b : BitVec 4096) (k rank : Nat) (i : List Nat) : List Nat :=
  (List.range rank).map fun t =>
    (((List.range (blkNdim b)).map fun d => opndMap b k t d * (i.getD d 0 : Int)).foldl (· + ·) (opndOff b k t)).toNat

end Sys2Proof.Machine
end

