-- ==== Sys2Proof/Machine/Unit.lean ====
section
/-! DEFINITION. The matrix unit of a bay (R296, R383): how long a row occupies it, and which hart it turns to. -/

namespace Sys2Proof.Machine

/-- VLEN of a hart, which has at most 32 lanes (R97). -/
def State.vlen (s : State) (h : Nat) : Nat := 32 * min 32 (s.hart h).id.lanes

/-- K = N of a row (R296). -/
def rowK (vlen f : Nat) : Nat := vlen / max 1 (fmtWidth f)

/-- MAC per clk of a source width, and the occupancy of a row (R296). -/
def rowRate (w : Nat) : Nat := if w = 4 then 8192 else if w = 8 then 4096 else 1024
def rowOcc (vlen f : Nat) : Nat := max 1 (ceilDiv (rowK vlen f * rowK vlen f) (rowRate (fmtWidth f)))

/-- The oldest row of a hart that the unit has not served. -/
def MRegs.waitRow (m : MRegs) : Option Row := m.rows.find? fun r => r.occEnd.isNone

/-- The unit serves a hart's oldest waiting row until clk t. -/
def servedTo (t : Nat) : List Row → List Row
  | [] => []
  | r :: rs => if r.occEnd.isNone then { r with occEnd := some t } :: rs else r :: servedTo t rs

/-- The clk at which the unit of a bay turns to its next row: it is free, and a row waits. -/
def State.mxNext (s : State) (bay : Nat) : Option Nat :=
  match (List.range 8).filterMap fun i => (s.hart (bay * 8 + i)).m.waitRow.map (·.issued) with
  | [] => none
  | t :: ts => some (max (tgetD s.mxBusy bay 0) (ts.foldl min t))

/-- The hart whose row it takes at a clk, going round from its pointer, and when that row leaves the unit. -/
def State.mxPick (s : State) (bay t : Nat) : Option (Nat × Nat) :=
  (List.range 8).findSome? fun i =>
    let g := bay * 8 + (tgetD s.mxTurn bay 0 + i) % 8
    (s.hart g).m.waitRow.bind fun r =>
      if r.issued ≤ t then some (g, t + rowOcc (s.vlen g) r.sfmt.toNat) else none

/-- It takes that row. -/
def State.mxTake (s : State) (bay t : Nat) : State :=
  match s.mxPick bay t with
  | none => s
  | some (g, e) =>
    ({ s with mxBusy := tput s.mxBusy bay e, mxTurn := tput s.mxTurn bay ((g + 1) % 8) } : State).modM g
      fun m => { m with rows := servedTo e m.rows }

/-- The unit of a bay up to this clk, at most n rows of it. -/
def State.mxServeN (s : State) (bay : Nat) : Nat → State
  | 0 => s
  | n + 1 =>
    match s.mxNext bay with
    | some t => if t ≤ s.cycle then (s.mxTake bay t).mxServeN bay n else s
    | none => s

/-- The unit of a bay up to this clk: no more rows can wait than its eight harts have. -/
def State.mxServe (s : State) (bay : Nat) : State := s.mxServeN bay 64

end Sys2Proof.Machine
end

