-- ==== Sys2Proof/Machine/Scarf.lean ====
section
/-! DEFINITION. Commands that have been read, when they become ready (R33..R35), what their steps need (R38, R40), and the splice
decision, which is taken once, as a producer becomes ready (R375..R377). -/

namespace Sys2Proof.Machine

/-! Commands and queues. -/

/-- A command under way. -/
def State.cmd? (s : State) (id : Nat) : Option Cmd := s.cmds.find? fun c => c.id == id

/-- Changes a command. -/
def State.modCmd (s : State) (id : Nat) (f : Cmd → Cmd) : State :=
  { s with cmds := s.cmds.map fun c => if c.id = id then f c else c }

/-- Key of a region's queue in State.queues. -/
def queueKey (rcb n : Nat) : Nat := rcb * 512 + n

def QueueSt.zero : QueueSt := { run := 0, lens := [], failed := [], fences := [], held := none, skip := [] }

def State.queue (s : State) (rcb n : Nat) : QueueSt := tgetD s.queues (queueKey rcb n) QueueSt.zero

def State.modQueue (s : State) (rcb n : Nat) (f : QueueSt → QueueSt) : State :=
  { s with queues := tput s.queues (queueKey rcb n) (f (s.queue rcb n)) }

/-- Unended commands of a queue, oldest first. -/
def State.queueCmds (s : State) (rcb n : Nat) : List Cmd :=
  s.cmds.filter fun c => c.rcb == rcb && match c.src with
    | .queue m _ _ => m == n
    | .node _ _ => false

/-- Index and run of a queue command. -/
def CmdSrc.idx : CmdSrc → Nat
  | .queue _ i _ => i
  | .node _ i => i
def CmdSrc.run : CmdSrc → Nat
  | .queue _ _ r => r
  | .node _ _ => 0

/-- Number of a command's queue. -/
def CmdSrc.num : CmdSrc → Nat
  | .queue n _ _ => n
  | .node _ _ => 0

/-- Is this command a graph node? -/
def CmdSrc.isNode : CmdSrc → Bool
  | .node _ _ => true
  | .queue _ _ _ => false

/-- Is the record one that may stand where it does (R33, R35, R158, R159)? -/
def Cmd.legal (c : Cmd) : Bool :=
  let k := recKind c.rec_
  recOk c.rec_ c.src.isNode && (if c.src.isNode then k != 3 && k != 5 else k != 4)

/-- The first body dword's address, and the second dword (R159). -/
def recAddr (r : BitVec 512) : Nat := recFld r 8 0 48
def recVal (r : BitVec 512) : W64 := w64 (recFld r 0x10 0 64)

/-- Page table of a command's context (R159). -/
def State.cmdPt (s : State) (c : Cmd) : Nat := (s.ctxOf c.rcb).ptbase

/-! Readiness. -/

/-- Have the dependences of a command all ended (R34, R35)? A node's command exists only once its counter is 0. -/
def State.depsMet (s : State) (c : Cmd) : Bool :=
  match c.src with
  | .node _ _ => true
  | .queue n _ run =>
    let older := (s.queueCmds c.rcb n).filter fun d => decide (d.id < c.id)
    if recKind c.rec_ = 5 then older.isEmpty else older.all fun d => d.src.run + 1 != run

/-- Commands of a region whose dependences have now ended become ready (R33), at this clk (R369). -/
def State.markReady (s : State) (rcb : Nat) : State :=
  { s with cmds := s.cmds.map fun c =>
      if c.rcb == rcb && !c.ready && s.depsMet c then { c with ready := true, readyAt := s.cycle } else c }

/-! Needs and budgets. -/

/-- What each hart of a node's steps needs (R38, R377). -/
structure Needs where
  lanes : Nat
  rsize : Nat
  scrb : Nat
  truss : Bool
  deriving DecidableEq, Repr

/-- The needs of a block. -/
def blkNeeds (b : BitVec 4096) : Needs := ⟨blkLanes b, blkRsize b, blkScrb b, blkTruss b⟩

/-- The needs of a spliced pair (R377). -/
def pairNeeds (p c : BitVec 4096) (z : Nat) : Needs :=
  ⟨blkLanes c, max (blkRsize p) (blkRsize c), blkScrb p + blkScrb c + z, false⟩

/-- The needs of a node. -/
def RunNode.needs (r : RunNode) : Needs :=
  match r.splice with
  | some sp => pairNeeds sp.pblk r.blk sp.zbytes
  | none => blkNeeds r.blk

/-- Harts of one step. -/
def Needs.harts (n : Needs) : Nat := if n.truss then 8 else 1

/-- Could a step of these needs ever be placed (R40)? -/
def State.needsFit (s : State) (rcb : Nat) (n : Needs) : Bool :=
  let k := n.harts
  decide (n.lanes ≤ s.effMaxlanes rcb)
  && ((s.path rcb).all fun p => decide (k * n.rsize ≤ s.effRegs p) && decide (k * n.scrb ≤ s.effScratch p)
        && (!n.truss || decide (8 ≤ s.effMaxharts p)))
  && (!n.truss || (List.range 64).any s.trussCapable)

/-- A node without a step yet. -/
def RunNode.start (b : BitVec 4096) (sp : Option Splice) : RunNode :=
  { blk := b, next := 0, total := blkTotal b, live := 0, retired := 0, killed := 0, failed := false, lastBay := none,
    splice := sp }

/-! The splice decision. -/

/-- The operator block of a RUN command, as its node holds it or as memory holds it now. -/
def State.cmdBlock (s : State) (c : Cmd) : Option (BitVec 4096) :=
  match c.run with
  | some r => some r.blk
  | none =>
    if recKind c.rec_ ≠ 1 then none
    else match (s.ctlRead (s.cmdPt c) (recAddr c.rec_) 512).1 with
      | .ok bs => some (BitVec.ofNat 4096 (ofBytes bs))
      | .error _ => none

/-- Does a block name a tensor in any operand? -/
def blkNames (b : BitVec 4096) (tid : Nat) : Bool := (List.range (min 8 (blkNopnd b))).any fun k => opndId b k == tid

/-- Snapshotted graph nodes that have not ended and have no command yet: their counter is not 0 (R201). -/
def Inst.waiting (i : Inst) : List (BitVec 512) :=
  ((List.range i.nodes.length).filter fun k => tgetD i.counts k 0 != 0).map fun k => i.nodes.getD k 0

/-- The RUN nodes of a list of records that name a tensor, by their blocks in the context of a region. -/
def State.recsName (s : State) (rcb tid : Nat) (rs : List (BitVec 512)) : Bool :=
  rs.any fun r => recKind r == 1 && match (s.ctlRead (s.ctxOf rcb).ptbase (recAddr r) 512).1 with
    | .ok bs => blkNames (BitVec.ofNat 4096 (ofBytes bs)) tid
    | .error _ => false

/-- Graphs snapshotted for a launch that has not started yet (R373): of GRAPH commands, steps and plate cores. -/
def State.snapped (s : State) : List GraphSnap :=
  s.cmds.filterMap (·.gsnap) ++ s.harts.filterMap (fun p => p.2.a.gsnap) ++ s.plates.filterMap fun p => p.2.gsnap

/-- Condition 8 of R375: does another unended command or graph node of the context name the tensor? -/
def State.namedElsewhere (s : State) (p c : Cmd) (tid : Nat) : Bool :=
  let asid := (s.ctxOf p.rcb).asid
  (s.cmds.any fun d =>
    d.id != p.id && d.id != c.id && (s.ctxOf d.rcb).asid == asid && match s.cmdBlock d with
      | some b => blkNames b tid
      | none => false)
  || (s.insts.any fun i => (s.ctxOf i.rcb).asid == asid && s.recsName i.rcb tid i.waiting)
  || s.snapped.any fun g => (s.ctxOf g.rcb).asid == asid && s.recsName g.rcb tid g.nodes

/-- Is p the only command of its run, and c in the next (R34, R375 item 5)? -/
def State.onlyDep (s : State) (p c : Cmd) : Bool :=
  match p.src, c.src with
  | .queue n _ rp, .queue m _ rc =>
    p.rcb == c.rcb && n == m && rc == rp + 1 && tgetD (s.queue p.rcb n).lens rp 0 == 1
  | _, _ => false

/-- A block that can be the consumer of p's (R375 items 3, 10). -/
def consumerBlk (p c : BitVec 4096) : Bool :=
  blkOk c && !(blkPool c) && !(blkTruss c) && !(blkNosplice c) && blkLanes p == blkLanes c

/-- T's entry as memory holds it (R375 item 7). -/
def State.spliceEntry (s : State) (rcb tid : Nat) : Option (BitVec 1024) :=
  let x := s.ctxOf rcb
  match (s.ctlRead x.ptbase (x.tdtbase + 128 * tid) 128).1 with
  | .error _ => none
  | .ok bs =>
    let t := BitVec.ofNat 1024 (ofBytes bs)
    if tdValid t ∧ tdLayout t = 0 ∧ tdTransient t ∧ !(tdElided t) then some t else none

/-- Z of a tensor (R377). -/
def spliceBytes (t : BitVec 1024) : Nat := roundUp (tdTileBytes t) 4096

/-- A splice of p into c through the tensor of p's operand kp (R375, R376). -/
def State.spliceTry (s : State) (p c : Cmd) (pb cb : BitVec 4096) (kp : Nat) : Option Splice :=
  let tid := opndId pb kp
  match opndOnly pb tid, opndOnly cb tid, s.spliceEntry p.rcb tid with
  | some _, some kc, some t =>
    let z := spliceBytes t
    let n := pairNeeds pb cb z
    if opndRole pb kp = 1 ∧ opndRole cb kc = 0 ∧ spliceFits pb cb kp kc t ∧ n.scrb ≤ 2 ^ 23 ∧ s.needsFit c.rcb n
        ∧ !(s.namedElsewhere p c tid) then
      some { pcmd := p.id, pblk := pb, popba := BitVec.ofNat 48 (recAddr p.rec_),
             pkern := BitVec.ofNat 32 (recKern p.rec_), tid := tid, td := t, zbytes := z, pdone := [], cdone := [],
             charged := none }
    else none
  | _, _, _ => none

/-- The consumer that R375 admits for p among the commands that have been read, its block, and the splice. The device may splice;
this model always does (log 28). -/
def State.spliceFind (s : State) (p : Cmd) (pb : BitVec 4096) : Option (Nat × BitVec 4096 × Splice) :=
  match p.src with
  | .node _ _ => none
  | .queue n _ _ =>
    if !(s.has .splice) ∨ blkPool pb ∨ blkTruss pb ∨ blkNosplice pb ∨ !(blkTransOk pb) then none
    else
      ((s.queueCmds p.rcb n).filterMap fun c =>
        if c.id = p.id ∨ c.phase ≠ .waiting ∨ c.mergedInto.isSome ∨ !(s.onlyDep p c) ∨ !c.legal then none
        else match s.cmdBlock c with
          | some cb =>
            if consumerBlk pb cb then
              (((List.range (blkNopnd pb)).filterMap fun k => s.spliceTry p c pb cb k).head?).map fun sp => (c.id, cb, sp)
            else none
          | none => none).head?

/-- The device has read the blocks of the context's commands and nodes, and the entries that a producer's operands name: a word of
them that cannot be corrected counts (R398). -/
def State.spliceSeen (s : State) (p : Cmd) (pb : BitVec 4096) : State :=
  let x := s.ctxOf p.rcb
  let mine : Nat → Bool := fun rcb => (s.ctxOf rcb).asid == x.asid
  let recs := (s.cmds.filter fun d => mine d.rcb && d.run.isNone).map (·.rec_)
    ++ (s.insts.filter fun i => mine i.rcb).flatMap Inst.waiting
    ++ (s.snapped.filter fun g => mine g.rcb).flatMap GraphSnap.nodes
  let s := (recs.filter fun r => recKind r == 1).foldl (fun s r => s.ctlSeen x.ptbase (recAddr r) 512) s
  (List.range (min 8 (blkNopnd pb))).foldl (fun s k => s.ctlSeen x.ptbase (x.tdtbase + 128 * opndId pb k) 128) s

/-- The scarf unit considers a command that has just become ready, once (R375, R384). -/
def State.consider (s : State) (id : Nat) : State :=
  match s.cmd? id with
  | none => s
  | some p =>
    if recKind p.rec_ ≠ 1 ∨ p.src.isNode ∨ (s.queueCmds p.rcb (p.src.num)).length < 2 ∨ !(s.has .splice) then s
    else match s.cmdBlock p with
      | none => s
      | some pb => (s.spliceSeen p pb).modCmd id fun d => { d with partner := s.spliceFind p pb }

/-- The commands of a region that have just become ready. -/
def State.newReady (s : State) (rcb : Nat) : List Cmd := s.cmds.filter fun c => c.rcb == rcb && !c.ready && s.depsMet c

/-- They become ready (R33, R369), and the scarf unit considers each (R375). -/
def State.becomeReady (s : State) (rcb : Nat) : State :=
  (s.newReady rcb).foldl (fun t c => t.consider c.id) (s.markReady rcb)

end Sys2Proof.Machine
end

