-- ==== Sys2Proof/Machine/Steps.lean ====
section
/-! DEFINITION. Ends: stage barriers and landing chunks (R202, R203, R325), transfers (R318, R319), commands and graph
nodes (R33..R37, R157, R201), RUN nodes (R42) and steps (R42, R264, R390). -/

namespace Sys2Proof.Machine

/-! Stage barriers. -/

/-- A stage barrier's fields (R202). -/
structure Bar where
  pending : Nat
  left : Nat
  count : Nat
  phase : Bool
  deriving DecidableEq, Repr

/-- The barrier at a scratch cell. -/
def State.bar (s : State) (k : Nat) : Bar :=
  let d1 := s.nat (k + 8) 8
  { pending := s.nat k 4, left := fld d1 16 16, count := fld d1 0 16, phase := d1.testBit 32 }

/-- Writes a barrier's two dwords. -/
def State.setBar (s : State) (k : Nat) (b : Bar) : State :=
  s.poke k (toBytes 8 (b.pending % 2 ^ 32) ++
    toBytes 8 (b.count % 2 ^ 16 + b.left % 2 ^ 16 * 2 ^ 16 + b2n b.phase * 2 ^ 32))

/-- The flip test of R203, made after each update. -/
def Bar.flip (b : Bar) : Bar :=
  if b.left = 0 ∧ b.pending = 0 then { b with phase := !b.phase, left := b.count } else b

/-- BEXPECT, a credit and an arrival (R203, R329). -/
def Bar.expect (b : Bar) (n : Nat) : Bar := Bar.flip { b with pending := (b.pending + n) % 2 ^ 32 }
def Bar.credit (b : Bar) (n : Nat) : Bar := Bar.flip { b with pending := (b.pending + 2 ^ 32 - n % 2 ^ 32) % 2 ^ 32 }
def Bar.arrive (b : Bar) : Bar := Bar.flip { b with left := b.left - 1 }

/-! Commands. -/

/-- Is a status of the failed class (R36)? -/
def stFailed (st : Nat) : Bool := decide (1 ≤ st) && decide (st ≤ 8)

/-- DONEIDX of a queue: the oldest unended record, else RIDX (R154, R157). -/
def State.doneIdx (s : State) (rcb n ridx : Nat) : Nat :=
  match s.queueCmds rcb n with
  | [] => ridx
  | c :: _ => c.src.idx

/-- Writes DONEIDX of a queue's control block, where RIDX and DONEIDX can be read. -/
def State.putDone (s : State) (rcb n : Nat) : State :=
  let pt := (s.ctxOf rcb).ptbase
  let q := s.qcbAt rcb n
  match s.ctlRead pt (q + 0x1C) 8 with
  | (.error _, s) => s
  | (.ok bs, s) =>
    let d := s.doneIdx rcb n (ofBytes (bs.take 4))
    if ofBytes (bs.drop 4) = d then s else s.ctlWriteD pt (q + 0x20) (toBytes 4 d)

/-- The earliest run that a queue's commands, read or still to be read, belong to. -/
def State.firstRun (s : State) (rcb n : Nat) : Nat :=
  (s.queueCmds rcb n).foldl (fun m c => min m c.src.run) (s.queue rcb n).run

/-- A queue command ends: its status byte, what depends on a failure, what becomes ready, DONEIDX (R33, R36, R157). A failure
is kept for as long as a command of the run after it may still have to end SKIPUP. -/
def State.endQueued (s : State) (c : Cmd) (n run st : Nat) : State :=
  let s := s.ctlWriteD (s.ctxOf c.rcb).ptbase (c.va + 2) [BitVec.ofNat 8 st]
  let s := { s with cmds := s.cmds.filter fun d => d.id != c.id }
  let first := s.firstRun c.rcb n
  let s := s.modQueue c.rcb n fun q =>
    { q with failed := ((if stFailed st then [(run, c.id)] else []) ++ q.failed).filter fun p => first ≤ p.1 + 1 }
  (s.becomeReady c.rcb).putDone c.rcb n

/-- An instance under way. -/
def State.inst? (s : State) (id : Nat) : Option Inst := s.insts.find? fun i => i.id == id

def State.modInst (s : State) (id : Nat) (f : Inst → Inst) : State :=
  { s with insts := s.insts.map fun i => if i.id = id then f i else i }

/-- How a node ended, toward one successor: failed, ran or untaken (R36, R37). -/
def classBit (st : Nat) : Nat := if stFailed st then 1 else if st = 9 then 4 else 2

/-- The command of node i of an instance, ready now (R35, R373). -/
def nodeCmd (i : Inst) (k id now : Nat) : Cmd :=
  { id := id, rcb := i.rcb, src := .node i.id k, va := i.area + 64 + 128 * k, rec_ := i.nodes.getD k 0,
    phase := .waiting, ready := true, readyAt := now, run := none, xfer := none, inst := none, gsnap := none,
    partner := none, mergedInto := none }

/-- One predecessor of node k has ended (R201): its counter falls by one; at 0 the node becomes ready. -/
def State.release (s : State) (iid k bit : Nat) : State :=
  match s.inst? iid with
  | none => s
  | some i =>
    let cnt := tgetD i.counts k 0
    if cnt = 0 then s
    else
      let s := s.ctlWriteD (s.ctxOf i.rcb).ptbase (i.area + 128 + 128 * k) [BitVec.ofNat 8 (cnt - 1)]
      let s := s.modInst iid fun i =>
        { i with counts := tput i.counts k (cnt - 1), preds := tput i.preds k (tgetD i.preds k 0 ||| bit) }
      if cnt = 1 then { s with cmds := s.cmds ++ [nodeCmd i k s.nextId s.cycle], nextId := s.nextId + 1 } else s

/-- The releases of a node's successors (R35..R37); taken is a SELECT's choice. -/
def State.releaseAll (s : State) (iid : Nat) (r : BitVec 512) (st : Nat) (taken : Option Bool) : State :=
  (List.range 6).foldl (fun s j =>
    let k := nodeSucc r j
    if k = 0xFF then s
    else
      let bit := match taken with
        | some b => if b == decide (j < 3) then 2 else 4
        | none => classBit st
      s.release iid k bit) s

/-- A command or node ends with a status (R36, R43); taken is a SELECT's choice. When the last node of an instance
ends, the GRAPH command ends (R33, R36). -/
def State.endCmd (s : State) (id st : Nat) (taken : Option Bool := none) : State :=
  match s.cmd? id with
  | none => s
  | some c =>
    match c.src with
    | .queue n _ run => s.endQueued c n run st
    | .node iid _ =>
      let s := s.ctlWriteD (s.ctxOf c.rcb).ptbase (c.va + 2) [BitVec.ofNat 8 st]
      let s := { s with cmds := s.cmds.filter fun d => d.id != c.id }
      let s := s.modInst iid fun i => { i with left := i.left - 1, failed := i.failed || stFailed st }
      let s := s.releaseAll iid c.rec_ st taken
      match s.inst? iid with
      | none => s
      | some i =>
        if i.left = 0 then
          let s := { s with insts := s.insts.filter fun j => j.id != iid }
          match i.cmd with
          | none => s
          | some g =>
            match s.cmd? g with
            | some gc => match gc.src with
              | .queue n _ run => s.endQueued gc n run (if i.failed then 1 else 0)
              | .node _ _ => s
            | none => s
        else s

/-- A fault record of KIND COMMAND (R159, R190). -/
def State.logCmd (s : State) (c : Cmd) (cause : Cause) (st va : Nat) : State :=
  s.logFault c.rcb { FRec.zero with
    kind := 4, cause := cause.code, status := st, kernid := recKern c.rec_, eval := va, cmdaddr := c.va }

/-- An address of the command's own cannot be used (R159): a missing page holds the command and posts a notice,
anything else ends it FAILED with a record. acc is 0 for a read, 1 for a write. -/
def State.cmdFault (s : State) (c : Cmd) (e : Cause × Nat) (acc : Nat) : State :=
  if e.1 = .pfault then
    let x := s.ctxOf c.rcb
    (s.modCmd c.id fun d => { d with phase := .held e.2 acc }).postNotice
      (noticeOf 3 Cause.pfault.code acc x.asid e.2 c.rcb c.va 0 0)
  else (s.logCmd c e.1 1 e.2).endCmd c.id 1

/-! Transfers. -/

/-- The transfer a reference names. -/
def State.xfer? (s : State) : XRef → Option Xfer
  | .slot h i g =>
    let x := tgetD (s.hart h).r.slots i Xfer.zero
    if x.gen = g ∧ x.state ≠ .free then some x else none
  | .cmd id => (s.cmd? id).bind (·.xfer)
  | .parked _ _ _ _ => none

/-- Replaces a transfer. -/
def State.setXfer (s : State) (r : XRef) (x : Xfer) : State :=
  match r with
  | .slot h i _ => s.modR h fun v => { v with slots := tput v.slots i x }
  | .cmd id => s.modCmd id fun c => { c with xfer := some x }
  | .parked _ _ _ _ => s

/-- A transfer leaves its engine's queue (R167, R168). -/
def State.unqueue (s : State) (r : XRef) : State :=
  { s with
    copyq := s.copyq.map fun p => (p.1, p.2.filter fun q => q != r)
    sillq := s.sillq.map fun p => (p.1, p.2.filter fun q => q.ref != r) }

/-- A slot whose ended transfer is covered whole becomes FREE (R318). -/
def Xfer.settle (x : Xfer) : Xfer :=
  if (x.state = .done ∨ x.state = .failed) ∧ x.covered = BitVec.allOnes 64 then { x with state := .free } else x

/-- The barrier that a landing chunk credits (R203, R325): that of CPBAR in the launching hart's running allocation. -/
def State.creditAt (s : State) (r : XRef) (x : Xfer) : Option Nat :=
  match r with
  | .slot h _ _ =>
    if x.sh.bar.getLsbD 0 ∧ !x.sill then
      let v := (s.hart h).r
      some (scratchKey (bayOf h) (v.alloc + v.base + 16 * fld x.sh.bar.toNat 4 19))
    else none
  | .cmd _ | .parked _ _ _ _ => none

/-- A landing chunk credits its barrier. -/
def State.credit (s : State) (r : XRef) (x : Xfer) (bytes : Nat) : State :=
  match s.creditAt r x with
  | some k => (s.setBar k ((s.bar k).credit bytes)).markDirty k 16
  | none => s

/-- The cells of bad ECC words that these cells cover only in part (R128). -/
def State.cellsBad (s : State) (cs : List Host.Cell) : Bool :=
  s.bad.any fun w => match eccWord w with
    | some (_, sz) =>
      let n := (cs.filter fun c => decide (w ≤ c.1) && decide (c.1 < w + sz)).length
      decide (0 < n) && decide (n < sz)
    | none => false

/-- Cells gathered into runs of consecutive ones. -/
def cellRuns : List Host.Cell → List (Nat × List Byte)
  | [] => []
  | c :: t =>
    match cellRuns t with
    | [] => [(c.1, [c.2])]
    | (k, bs) :: r => if c.1 + 1 = k then (c.1, c.2 :: bs) :: r else (c.1, [c.2]) :: (k, bs) :: r

/-- Writes cells as an engine does: memory with its dirty granules, and each run of the I/O-die space as one DEVICE access
(R122, R125). What goes to a package that no path leads to is lost, and IPEND.UNCORR is raised (R407). -/
def State.storeCells (s : State) (cs : List Host.Cell) : State :=
  let bad := s.bad.filter fun w => match eccWord w with
    | some (_, sz) => (cs.filter fun c => decide (w ≤ c.1) && decide (c.1 < w + sz)).length < sz
    | none => true
  let s := if cs.any fun c => s.cutKey c.1 then s.raiseIp ipUncorr else s
  let s := (cs.filter fun c => !(isIo c.1) && !(s.cutKey c.1)).foldl (fun (s : State) c =>
    ({ s with mem := memPut s.mem c.1 c.2 } : State).markDirty c.1 1) { s with bad := bad }
  (cellRuns (cs.filter fun c => isIo c.1)).foldl (fun (s : State) r => s.ioStore r.1 r.2) s

/-- The cause code beside a transfer status of the same name (R319, R385); 0 for the others (log 13). -/
def xferCause (st : Nat) : Nat :=
  match st with
  | 1 => Cause.pfault.code
  | 2 => Cause.pprot.code
  | 3 => Cause.bounds.code
  | 4 => Cause.uncorr.code
  | _ => 0

/-- The command of the body that a hart runs (R190): the producer's while a spliced step runs that, and the node's else. -/
def State.bodyCmd (s : State) (v : Hart) : Option Cmd :=
  match s.cmd? v.id.node with
  | none => none
  | some c =>
    if v.id.spliced && !v.r.bodyC then
      match c.run.bind (·.splice) with
      | some sp => s.cmd? sp.pcmd
      | none => some c
    else some c

/-- CMDADDR of that command. -/
def State.bodyVa (s : State) (v : Hart) : Nat := ((s.bodyCmd v).map (·.va)).getD 0

/-- The region and the identity a transfer's fault record carries (R190). -/
def State.logXfer (s : State) (r : XRef) (x : Xfer) (st : Nat) : State :=
  let sh := [x.sh.src, x.sh.dst, x.sh.shape, x.sh.sstr, x.sh.dstr, x.sh.opt, x.sh.pad, x.sh.bar]
  let cause := xferCause st
  match r with
  | .slot h i g =>
    let v := s.hart h
    s.logFault v.ctx.rcb { FRec.zero with
      kind := 1, cause := cause, status := st, kernid := v.id.kernid.toNat, stepid := v.id.stepid.toNat,
      hartid := s.hartId h, elaunch := x.launchPc.toNat, etid := i + 256 * g.toNat,
      stepix := v.id.stepix.take 7, shadows := sh, cmdaddr := s.bodyVa v }
  | .cmd id =>
    match s.cmd? id with
    | none => s
    | some c => s.logFault c.rcb { FRec.zero with
        kind := 1, cause := cause, status := st, kernid := recKern c.rec_, shadows := sh, cmdaddr := c.va }
  | .parked _ _ _ _ => s

/-- A chunk lands (R325): its writes, its bit and the barrier credit in one step. The answer says whether the writes
could be made; a chunk with bytes that could not gets no bit and no credit (R359, R360, R407), and one whose barrier cannot be read
is not written (R398; log 100). -/
def State.landOne (s : State) (r : XRef) (f : Flight) : Bool × State :=
  match s.xfer? r with
  | none => (true, s)
  | some x =>
    let dropped := s.setXfer r { x with flight := x.flight.filter fun g => g.chunk != f.chunk }
    if s.cellsBad f.writes || (s.creditAt r x).any (fun k => readBad s k 16) then (false, dropped.countUncorr)
    else if f.writes.any fun c => s.cutKey c.1 then (false, dropped.storeCells f.writes)
    else
      let s := s.storeCells f.writes
      let s := s.setXfer r { x with
        bitmap := x.bitmap ||| BitVec.ofNat 64 (2 ^ f.chunk)
        flags := x.flags ||| f.flags
        flight := x.flight.filter fun g => g.chunk != f.chunk }
      (true, s.credit r x f.bytes)

/-- Every chunk in flight of a transfer lands. -/
def State.landAll (s : State) (r : XRef) : State :=
  match s.xfer? r with
  | none => s
  | some x => x.flight.foldl (fun s f => (s.landOne r f).2) s

/-- A transfer fails (R318, R319): chunks in flight land, the rest never start, a record is appended; a COPY command
ends FAILED. A failure that no CPWAIT or VCKM reports stays pending (R42). -/
def State.failXfer (s : State) (r : XRef) (st : Nat) : State :=
  let s := s.landAll r
  match s.xfer? r with
  | none => s
  | some x =>
    if x.state ≠ .active then s
    else
      let s := (s.logXfer r x st).unqueue r
      let x := Xfer.settle { x with state := .failed, status := BitVec.ofNat 8 st, paused := [] }
      let s := s.setXfer r x
      match r with
      | .slot h i g => s.modR h fun v =>
          { v with pendFail := tput v.pendFail x.launched (w64 (i + 256 * g.toNat), x.launchPc) }
      | .cmd id => s.endCmd id 1
      | .parked _ _ _ _ => s

/-- A transfer whose last chunk has landed ends DONE (R318); a COPY command ends. -/
def State.doneXfer (s : State) (r : XRef) : State :=
  match s.xfer? r with
  | none => s
  | some x =>
    if x.state = .active ∧ x.flight.isEmpty ∧ (x.bitmap = BitVec.allOnes 64 ∨ x.cancelled) then
      let s := s.unqueue r
      let s := s.setXfer r (Xfer.settle { x with state := .done, paused := [] })
      match r with
      | .slot _ _ _ => s
      | .cmd id => s.endCmd id 0
      | .parked _ _ _ _ => s
    else s

/-- Cancels a transfer (R322): chunks in flight land, the others never start, and it ends DONE. A subscription ends as
SSTOP ends it. -/
def State.cancelXfer (s : State) (r : XRef) (st : Nat) : State :=
  let s := s.landAll r
  match s.xfer? r with
  | none => s
  | some x =>
    if x.state ≠ .active then s
    else
      let s := s.setXfer r { x with cancelled := true, status := BitVec.ofNat 8 st }
      match x.job with
      | .ssub .. => s
      | _ => s.doneXfer r

/-- References of the transfers a hart has under way. -/
def State.hartXfers (s : State) (h : Nat) : List XRef :=
  (s.hart h).r.slots.filterMap fun p => if p.2.state = .active then some (.slot h p.1 p.2.gen) else none

/-! Budgets (R31, R182). -/

/-- New USE fields of one node; in a word that cannot be corrected they stay as they are, and the error counts (R128, R145). -/
def State.useSet (s : State) (r harts scratch regs : Nat) : State :=
  if readBad s (r + 0xC0) 24 then s.countUncorr
  else ((s.pokeNat (r + 0xC0) 4 harts).pokeNat (r + 0xC8) 4 scratch).pokeNat (r + 0xD0) 4 regs

/-- Adds to the USE fields of every node on a region's path. -/
def State.useAdd (s : State) (rcb harts scratch regs : Nat) : State :=
  (s.path rcb).foldl (fun s r =>
    s.useSet r (s.rcbFld r 0xC0 0 13 + harts) (s.rcbFld r 0xC8 0 32 + scratch) (s.rcbFld r 0xD0 0 23 + regs)) s

/-- Subtracts from them. -/
def State.useSub (s : State) (rcb harts scratch regs : Nat) : State :=
  (s.path rcb).foldl (fun s r =>
    s.useSet r (s.rcbFld r 0xC0 0 13 - harts) (s.rcbFld r 0xC8 0 32 - scratch) (s.rcbFld r 0xD0 0 23 - regs)) s

/-! Harts leave their steps. -/

/-- Is the entry one of hart h, or one of a step that has left its harts? -/
def XRef.ofHart (r : XRef) (h : Nat) : Bool :=
  match r with
  | .slot g _ _ => g == h
  | .cmd _ | .parked _ _ _ _ => false
def XRef.ofParked (r : XRef) (id : W64) : Bool :=
  match r with
  | .parked j _ _ _ => j == id
  | .cmd _ | .slot _ _ _ => false

/-- The hart is freed: its stores reach their homes (R42, R353), its engine entries go, and the caches of a context whose last
step leaves (R135, R178). -/
def State.vacate (s : State) (h : Nat) : State :=
  let s := (s.mxServe (bayOf h)).l1Release h
  let v := s.hart h
  let s := s.setHart h Hart.free
  let s := { s with
    copyq := s.copyq.map fun p => (p.1, p.2.filter fun q => !(q.ofHart h))
    sillq := s.sillq.map fun p => (p.1, p.2.filter fun q => !(q.ref.ofHart h)) }
  let others := s.harts.filter fun p => p.2.occ && p.2.ctx.asid == v.ctx.asid
  let s := if others.any fun p => bayOf p.1 == bayOf h then s
    else { s with tdc := tput s.tdc (bayOf h) ((tgetD s.tdc (bayOf h) []).filter fun e => e.asid != v.ctx.asid) }
  if others.any fun p => chipletOf p.1 == chipletOf h then s
  else { s with vtts := tdel s.vtts (chipletOf h * 4096 + v.ctx.asid) }

/-- How a step ends (R42). -/
inductive StepEnd where
  | retired | killed | failed
  deriving DecidableEq, Repr

/-- The kernel record of a spliced pair's partner (R400). -/
def State.logPartner (s : State) (c : Cmd) (r : RunNode) (sp : Splice) : State :=
  match sp.charged with
  | none => s
  | some pCharged =>
    let done := if pCharged then sp.cdone else sp.pdone
    s.logFault c.rcb { FRec.zero with
      kind := 2, status := 2
      kernid := if pCharged then recKern c.rec_ else sp.pkern.toNat
      nsteps := r.total
      donecnt := done.length
      cmdaddr := if pCharged then c.va else ((s.cmd? sp.pcmd).map (·.va)).getD 0
      bitmap := (done.filter fun n => decide (n < 512)).foldl (fun acc n => acc ||| 2 ^ n) 0 }

/-- Key of a shard of a region's pool. -/
def shardKey (rcb t : Nat) : Nat := rcb * 64 + t

/-- Is this a record of a region's pool that has been stolen and is still on its way (R163, R381)? -/
def RqRec.stolen (q : RqRec) (rcb : Nat) : Bool :=
  match q.kind with
  | .steal _ _ => q.ctx.rcb == rcb
  | .enqueue _ => false

/-- Does a region's pool hold no record, LENT ones and stolen ones on their way included (R41, R381)? -/
def State.poolEmpty (s : State) (rcb : Nat) : Bool :=
  !(s.rq.any (·.stolen rcb)) && (List.range 64).all fun t => match tget s.shards (shardKey rcb t) with
    | some sh => sh.entries.isEmpty
    | none => true

/-- Has a RUN node reached its end (R41, R42)? A failure stops the walker of a LOOP node; the steps of a POOL node come from the
pool and not from the walker, so such a node goes on until its pool is empty (log 83). -/
def State.nodeOver (s : State) (c : Cmd) (r : RunNode) : Bool :=
  r.live == 0 && (if blkPool r.blk then s.poolEmpty c.rcb else r.failed || decide (r.total ≤ r.next))

/-- A RUN node ends (R42, R48, R400): a spliced pair ends together. -/
def State.endRun (s : State) (c : Cmd) (r : RunNode) : State :=
  match r.splice with
  | none => s.endCmd c.id (if r.failed then 1 else 0)
  | some sp =>
    let s := s.logPartner c r sp
    let pst := match sp.charged with | none => 0 | some true => 1 | some false => 2
    let cst := match sp.charged with | none => 0 | some true => 2 | some false => 1
    (s.endCmd sp.pcmd pst).endCmd c.id cst

/-- Ends every RUN node that is over (R41, R42). -/
def State.settleRuns (s : State) : State :=
  s.cmds.foldl (fun s c =>
    match s.cmd? c.id with
    | some c => match c.run with
      | some r => if c.phase = .active ∧ s.nodeOver c r then s.endRun c r else s
      | none => s
    | none => s) s

/-- A saturating 32-bit count (R198). -/
def sat32 (n : Nat) : Nat := min n (2 ^ 32 - 1)

/-- P's linear step of a spliced step (R376). -/
def spliceLin (sp : Splice) (c : BitVec 4096) (lin : Nat) : Nat :=
  match opndOnly sp.pblk sp.tid, opndOnly c sp.tid with
  | some kp, some kc => blkLinear sp.pblk (spliceIndex sp.pblk c kp kc (blkIndex c lin))
  | _, _ => 0

/-- The node of a step counts its end (R42, R198). -/
def RunNode.count (r : RunNode) (k : StepEnd) (lin : Nat) : RunNode :=
  match k with
  | .retired => { r with
      live := r.live - 1, retired := sat32 (r.retired + 1)
      splice := r.splice.map fun sp => { sp with cdone := lin :: sp.cdone, pdone := spliceLin sp r.blk lin :: sp.pdone } }
  | .killed => { r with live := r.live - 1, killed := sat32 (r.killed + 1) }
  | .failed => { r with live := r.live - 1, failed := true }

/-- A step ends (R42, R264, R390): its transfers end, its harts and budgets are freed, and its node counts it. -/
def State.endStep (s : State) (h : Nat) (k : StepEnd) : State :=
  let hs := s.stepHarts h
  let v := s.hart h
  let s := hs.foldl (fun s g => (s.hartXfers g).foldl (fun s r => s.landAll r) s) s
  let s := hs.foldl State.vacate s
  let s := s.useSub v.ctx.rcb hs.length (hs.length * v.r.allocSize) (hs.length * v.id.rsize)
  let s := s.modCmd v.id.node fun c => { c with run := c.run.map fun r => r.count k v.id.lin }
  s.settleRuns

end Sys2Proof.Machine
end

