-- ==== Sys2Proof/Machine/Reset.lean ====
section
/-! DEFINITION. The reset and replay of a fault domain (R391, R346), and the frame slots of a region (R183). -/

namespace Sys2Proof.Machine

/-- Frame area of a region: base, count and log2 size of its slots; no slot fits when the size is out of range
(R182, R183). -/
def State.frameArea (s : State) (rcb : Nat) : Nat × Nat × Nat :=
  let base := s.rcbFld rcb 0x78 12 36 * 4096
  let cnt := s.rcbFld rcb 0x78 48 10
  let lg := s.rcbFld rcb 0x78 58 6
  (base, if 12 ≤ lg ∧ lg ≤ 24 then cnt else 0, lg)

/-- Address of a frame slot. -/
def State.frameSlot (s : State) (rcb i : Nat) : Nat :=
  let a := s.frameArea rcb
  a.1 + 4096 + i * 2 ^ a.2.2

/-- Sets or clears a slot's bit in the slot-use bitmap (R183). Which bit stands for a slot is the model's choice (DESIGN CHOICE,
log 84): slot i is bit i mod 8 of byte i / 8. -/
def State.frameMark (s : State) (rcb i : Nat) (on : Bool) : State :=
  let pt := (s.ctxOf rcb).ptbase
  let a := (s.frameArea rcb).1 + i / 8
  match s.ctlRead pt a 1 with
  | (.error _, s) => s
  | (.ok bs, s) =>
    let b := ofBytes bs
    let b := if on then b ||| 2 ^ (i % 8) else b &&& (255 - 2 ^ (i % 8))
    (s.ctlWriteAs pt true a [BitVec.ofNat 8 b]).2

/-- The lowest free slots, n of them, when there are so many (R183). A slot whose bit cannot be read is not free. Which free ones a step
takes is the model's choice (DESIGN CHOICE, log 84). -/
def State.frameFree (s : State) (rcb n : Nat) : Option (List Nat) :=
  let a := s.frameArea rcb
  let pt := (s.ctxOf rcb).ptbase
  let l := (List.range a.2.1).filter fun i => match (s.ctlRead pt (a.1 + i / 8) 1).1 with
    | .ok bs => !((ofBytes bs).testBit (i % 8))
    | .error _ => false
  if n ≤ l.length then some (l.take n) else none

/-- Does a region lie below a node (R391)? -/
def State.below (s : State) (node rcb : Nat) : Bool := (s.path rcb).contains node

/-- The fault domain of a region (R391): where the effective POLICY is set, or its context node. -/
def State.faultDomain (s : State) (rcb : Nat) : Nat :=
  let n := s.effNode rcb 7
  if s.rcbLevel n ≤ 1 then s.ctxNode rcb else n

/-- The doorbell pages that firmware has bound (R403). -/
def State.boundPages (s : State) : List Nat :=
  let base := ioBase + 0x80_0000
  ((s.mem.filter fun c => decide (base ≤ c.1) && decide (c.1 < base + 0x80_0000)).map fun c => (c.1 - base) / 8).eraseDups

/-- Regions the device knows of: bound to a doorbell page or a queue slot, or with something of theirs under way. -/
def State.regions (s : State) : List Nat :=
  let a : List Nat := s.queues.map fun p => p.1 / 512
  let b : List Nat := s.cmds.map fun c => c.rcb
  let c : List Nat := s.shards.map fun p => p.1 / 64
  let d : List Nat := s.parked.map fun p => p.rcb
  let e : List Nat := s.placed.map fun h => (s.hart h).ctx.rcb
  let f : List Nat := (s.qslots.filter fun p => p.2.state != .free).map fun p => p.2.rcb
  let g : List Nat := s.boundPages.filterMap s.doorbell
  (a ++ b ++ c ++ d ++ e ++ f ++ g).eraseDups

/-- A placed step is ended by a reset: chunks in flight land, the rest end ABORTED without records (R391). -/
def State.abortStep (s : State) (h : Nat) : State :=
  let hs := s.stepHarts h
  let v := s.hart h
  let s := hs.foldl (fun s g => (s.hartXfers g).foldl (fun s r => s.landAll r) s) s
  let s := hs.foldl State.vacate s
  s.useSub v.ctx.rcb hs.length (hs.length * v.r.allocSize) (hs.length * v.id.rsize)

/-- A parked step is ended by a reset: its frame slots are freed, and what it left in the engines' queues goes. -/
def State.abortParked (s : State) (p : Parked) : State :=
  let v := p.harts.headD Hart.free
  let n := p.harts.length
  let s := p.frames.foldl (fun s f => s.frameMark p.rcb f.2 false) s
  let s : State := { s with
    parked := s.parked.filter fun q => q.stepid != p.stepid
    copyq := s.copyq.map fun e => (e.1, e.2.filter fun r => !(r.ofParked p.stepid))
    sillq := s.sillq.map fun e => (e.1, e.2.filter fun c => !(c.ref.ofParked p.stepid)) }
  s.useSub p.rcb n (n * v.r.allocSize) (n * v.id.rsize)

/-- A pool loses its records, LENT ones and stolen ones still on their way included, whose credits return, and its counts return to 0
(R381, R391, R206). -/
def State.poolClear (s : State) (rcb : Nat) : State :=
  let d := s.rcbFld rcb 0x60 6 42 * 64
  let n := (s.rq.filter (·.stolen rcb)).length
  let s := { s with
    rq := s.rq.filter fun q => !(q.stolen rcb)
    credits := if n = 0 then s.credits else tput s.credits s.pkgNum (tgetD s.credits s.pkgNum 64 + n)
    shards := s.shards.map fun p =>
    if p.1 / 64 = rcb then (p.1, { p.2 with entries := [], probed := [], stealing := false, asleep := false }) else p }
  if d = 0 then s else s.ctlWriteD (s.ctxOf rcb).ptbase (d + 0x10) (List.replicate 32 0)

/-- One record of a rewound queue (R391). The answer says whether the replay skips it, and with which status. -/
def State.rewindOne (s : State) (rcb ring lg k : Nat) : Option Nat × State :=
  let pt := (s.ctxOf rcb).ptbase
  let a := ring + 64 * (k % 2 ^ lg)
  match s.ctlRead pt a 64 with
  | (.error _, s) => (none, s)
  | (.ok bs, s) =>
    let r := recOf bs
    let once : Bool × State :=
      if recKind r = 1 then
        match s.ctlRead pt (recFld r 8 0 48) 512 with
        | (.ok b, s) => (blkOnce (BitVec.ofNat 4096 (ofBytes b)), s)
        | (.error _, s) => (false, s)
      else (false, s)
    let s := once.2
    let log : State → Nat → State := fun s st =>
      s.logFault rcb { FRec.zero with kind := 3, status := st, kernid := recKern r, cmdaddr := a }
    if once.1 then
      if recFld r 0 16 8 = 0 then (some 0, log s 0)
      else (some 1, log (s.ctlWriteD pt (a + 2) [1]) 1)
    else (none, s.ctlWriteD pt (a + 2) [0xFF])

/-- Records from index k, n of them. -/
def State.rewindRecs (s : State) (rcb ring lg : Nat) : Nat → Nat → List (Nat × Nat) → List (Nat × Nat) × State
  | 0, _, acc => (acc, s)
  | n + 1, k, acc =>
    match s.rewindOne rcb ring lg k with
    | (some st, s) => s.rewindRecs rcb ring lg n ((k + 1) % 2 ^ 32) (acc ++ [(k, st)])
    | (none, s) => s.rewindRecs rcb ring lg n ((k + 1) % 2 ^ 32) acc

/-- A queue is rewound to its last fence record (R391). A queue whose control block or fence record cannot be read
keeps its indices (log 14). -/
def State.rewindQueue (s : State) (rcb n : Nat) : State :=
  let pt := (s.ctxOf rcb).ptbase
  let q := s.qcbAt rcb n
  match s.ctlRead pt q 64 with
  | (.error _, s) => s
  | (.ok bs, s) =>
    match qcbRing (ofBytes (bs.take 8)), s.ctlRead pt (ofBytes ((bs.drop 0x28).take 8) % 2 ^ 48) 16 with
    | some (ring, lg), (.ok fr, s) =>
      let r := ofBytes (fr.drop 8) % 2 ^ 32
      let ridx := ofBytes ((bs.drop 0x1C).take 4)
      let cnt := min ((ridx + 2 ^ 32 - r) % 2 ^ 32) (2 ^ lg)
      let x := s.rewindRecs rcb ring lg cnt r []
      let s := x.2
      let s := s.ctlWriteD pt (q + 0x1C) (toBytes 4 r ++ toBytes 4 r)
      s.modQueue rcb n fun _ => { QueueSt.zero with skip := x.1 }
    | _, (_, s) => s

/-- A fault domain is reset (R391): steps stopped, instances abandoned, pools emptied, queues rewound. The domain is what lies below
its node when the reset starts. -/
def State.domainReset (s : State) (node : Nat) : State :=
  let below := s.below node
  let regs := s.regions.filter below
  let s := s.placed.foldl (fun s h => if (s.hart h).occ && below (s.hart h).ctx.rcb then s.abortStep h else s) s
  let s := s.parked.foldl (fun s p => if below p.rcb then s.abortParked p else s) s
  let gone := s.cmds.filter fun c => below c.rcb
  let s := gone.foldl (fun s c => if c.xfer.isSome then (s.landAll (.cmd c.id)).unqueue (.cmd c.id) else s) s
  let s := { s with
    cmds := s.cmds.filter fun c => !(below c.rcb)
    insts := s.insts.filter fun i => !(below i.rcb) }
  let s := regs.foldl State.poolClear s
  (s.queues.map (·.1)).foldl (fun s k => if below (k / 512) then s.rewindQueue (k / 512) (k % 512) else s) s

end Sys2Proof.Machine
end

