-- ==== Sys2Proof/Machine/Ops.lean ====
section
/-! DEFINITION. Operations shared by every instruction: taking an exception (R248, R387..R392) and returning from one,
program counters, waiting, and the A-stream's memory accesses (R227, R234..R237). -/

namespace Sys2Proof.Machine

/-! Taking an exception. -/

/-- What a trap carries (R387); acc is the ACCESS code of a park notice (R394). -/
structure TrapInfo where
  cause : Cause
  eval : W64
  elaunch : W64
  etid : W64
  eelem : W64
  acc : Nat
  deriving DecidableEq, Repr

/-- A trap with a cause and an EVAL, every other register 0. -/
def TrapInfo.of (c : Cause) (eval : W64) : TrapInfo := ⟨c, eval, 0, 0, 0, 0⟩

/-- ECAUSE (R386). -/
def ecauseOf (c : Cause) (estr hnd : Bool) : W64 := w64 (c.code + 2 ^ 8 * b2n estr + 2 ^ 9 * b2n hnd)

/-- HND of a hart (R386). -/
def ARegs.hnd (a : ARegs) : Bool := a.ecause.getLsbD 9

/-- The trap registers written together (R387); a wait of the A-stream is abandoned, and redone from its start. -/
def ARegs.trapRegs (a : ARegs) (pc : W64) (estr hnd : Bool) (t : TrapInfo) : ARegs :=
  { a with gsnap := none, epc := pc, ecause := ecauseOf t.cause estr hnd, eval := t.eval, elaunch := t.elaunch,
           etid := t.etid, eelem := t.eelem }

/-- Does an A-stream trap enter the user handler (R388)? -/
def handlerOk (etvec : Addr) (hnd : Bool) (c : Cause) : Bool :=
  c.handled && etvec != 0 && etvec.extractLsb' 0 2 == 0 && !hnd

/-- The fault record of a step (R190, R400). -/
def State.logStep (s : State) (h : Nat) (c : Cause) : State :=
  let v := s.hart h
  s.logFault v.ctx.rcb { FRec.zero with
    kind := 0, cause := c.code, status := 1, kernid := v.id.kernid.toNat, stepid := v.id.stepid.toNat,
    hartid := s.hartId h, epc := v.a.epc.toNat, eval := v.a.eval.toNat, elaunch := v.a.elaunch.toNat,
    etid := v.a.etid.toNat, eelem := v.a.eelem.toNat, stepix := v.id.stepix.take 7,
    cmdaddr := s.bodyVa v }

/-- The first charge of a spliced pair (R400). -/
def State.charge (s : State) (h : Nat) : State :=
  let v := s.hart h
  s.modCmd v.id.node fun c => { c with run := c.run.map fun r =>
    { r with splice := r.splice.map fun sp =>
        { sp with charged := match sp.charged with | none => some (!v.r.bodyC) | some b => some b } } }

/-- A step ends FAILED (R390, STOP). -/
def State.failStep (s : State) (h : Nat) (c : Cause) : State := ((s.logStep h c).charge h).endStep h .failed

/-- A request that a hart's step leave its harts, taken up by the device at the next point of R395. -/
def State.askPark (s : State) (h : Nat) (r : ParkReq) : State := s.modR h fun v => { v with pend := some r, presumed := false }

/-- A fault of a step meets its policy (R389, R390, R392): it ends, or asks the device to park it, or to reset its
domain. -/
def State.stepFault (s : State) (h : Nat) (pc : W64) (t : TrapInfo) : State :=
  let v := s.hart h
  let s := s.capture v.id.capture t.cause
  if t.cause = .pfault then s.askPark h ⟨0, .pfault, t.eval, t.acc⟩
  else match v.id.policy with
    | 1 => if t.cause = .timeout then s.failStep h t.cause else s.askPark h ⟨0, t.cause, pc, 2⟩
    | 2 => (s.logStep h t.cause).askPark h ⟨3, t.cause, pc, 2⟩
    | _ => s.failStep h t.cause

/-- Puts latched entries back at the heads of the A→E queues they came from, in their order (R149). -/
def HRes.unpop (r : HRes) (qs : List Nat) (latch : List VReg) : HRes :=
  { r with ae := (qs.zip latch).reverse.foldl (fun t p => tput t p.1 (AEntry.full p.2 :: tgetD t p.1 [])) r.ae }

/-- Does the stream start its instruction with what an earlier start of it popped and reserved (R149)? -/
def ERegs.inside (e : ERegs) : Bool := e.kept || e.prog.isSome

/-- The registers once an instruction is over or starts anew: nothing is kept of it (R149). -/
def ERegs.unkeep (e : ERegs) : ERegs :=
  { e with kept := false, latch := [], latchQ := [], reserved := none, staging := none, prog := none }

/-- An E-stream stops where it stands, by a trap or a park (R99, R149): VSTART shows how far its instruction has come, with KEPT;
with VSTART 0 the popped entries go back to their queues and the reservation ends. -/
def Hart.stopE (v : Hart) : Hart :=
  let e := match v.e.prog with
    | some p => { v.e with vstart := p.elem, kept := true, prog := none }
    | none => v.e
  if e.kept && e.vstart == 0 then { v with r := v.r.unpop e.latchQ e.latch, e := e.unkeep } else { v with e := e }

/-- Taking an exception, for every agent and cause (R248, R387..R392). A plate core enters its firmware vector, or
halts where it has none; an A-stream enters its handler where R388 admits the trap; any other trap is a fault of
the step. -/
def State.trap (s : State) (ag : Agent) (t : TrapInfo) : State :=
  match ag with
  | .plate p => s.modPlate p fun c =>
      let c : Plate := { c with gsnap := none, epc := c.pc, ecause := ecauseOf t.cause false false, eval := t.eval }
      if c.etvec ≠ 0 ∧ c.etvec.extractLsb' 0 2 = 0 then { c with pc := c.etvec } else { c with run := .halted }
  | .aStream h =>
    let v := s.hart h
    if handlerOk v.id.etvec v.a.hnd t.cause then
      s.modA h fun a => { a.trapRegs a.pc false true t with pc := v.id.etvec.setWidth 64, wait := .none, ended := false }
    else
      (s.modA h fun a => { a.trapRegs a.pc false a.hnd t with wait := .none }).stepFault h v.a.pc t
  | .eStream h =>
    let v := s.hart h
    let s := s.modHart h Hart.stopE
    ((s.modA h fun a => a.trapRegs v.e.pc true a.hnd t).modE h fun e => { e with wait := .none }).stepFault h v.e.pc t

/-- The executing agent traps. -/
def State.raise (s : State) (c : Cause) (eval : W64) : State := s.trap s.cur (TrapInfo.of c eval)

/-- The executing agent traps at an access of this kind. -/
def State.raiseAcc (s : State) (c : Cause) (va : W64) (acc : Nat) : State :=
  s.trap s.cur { TrapInfo.of c va with acc := acc }

/-! Program counters and completion. -/

/-- The program counter of an agent. -/
def State.pcOf (s : State) : Agent → W64
  | .aStream h => (s.hart h).a.pc
  | .eStream h => (s.hart h).e.pc
  | .plate p => (s.plate p).pc

/-- The executing stream goes to an address: its instruction has completed, so it waits no more and INSTRET counts it
(R197, R209). -/
def State.goto (s : State) (pc : W64) : State :=
  match s.cur with
  | .aStream h => s.modA h fun a => { a with pc := pc, wait := .none, instret := a.instret + 1 }
  | .eStream h => s.modHart h fun v =>
      { v with e := { v.e with pc := pc, wait := .none }, a := { v.a with instret := v.a.instret + 1 } }
  | .plate p => s.modPlate p fun c => { c with pc := pc, instret := c.instret + 1 }

/-- The instruction completes and the next one follows it (R209). -/
def State.advance (s : State) : State := s.goto (s.pcOf s.cur + 4)

/-- The executing stream stands at its instruction, which waits (R148, R395). -/
def State.standAt (s : State) (w : Wait) : State :=
  match s.cur with
  | .aStream h => s.modA h fun a => { a with wait := w }
  | .eStream h => s.modE h fun e => { e with wait := w }
  | .plate _ => s

/-- EPC of the executing agent. -/
def State.epcOf (s : State) : Agent → W64
  | .aStream h => (s.hart h).a.epc
  | .eStream h => (s.hart h).a.epc
  | .plate p => (s.plate p).epc

/-- Return from an exception (R248, R386): a misaligned EPC traps ALIGN, else the pc is EPC and HND is clear. -/
def State.eret (s : State) : State :=
  let epc := s.epcOf s.cur
  if epc.extractLsb' 0 2 != 0 then s.raise .align epc
  else
    let s := s.goto epc
    match s.cur with
    | .aStream h => s.modA h fun a => { a with ecause := a.ecause &&& ~~~(BitVec.ofNat 64 (2 ^ 9)) }
    | _ => s

/-! A-stream memory accesses. -/

/-- ACCESS of a park notice for a kind of access (R394). -/
def Acc.code : Acc → Nat
  | .read => 0 | .write => 1 | .exec => 2 | .atomic => 3

/-- The hart of an agent, if it has one. -/
def Agent.hart? : Agent → Option Nat
  | .aStream h => some h
  | .eStream h => some h
  | .plate _ => none

/-- Where an access of n bytes by an agent lies (R116, R117). -/
def State.placeOf (s : State) (ag : Agent) (va n : Nat) : Place :=
  match ag.hart? with
  | some h => s.placeH h va n
  | none => placeNone va n

/-- The paged path of an agent (R133). -/
def State.paged (s : State) (ag : Agent) (k : Acc) (va : Nat) : Except Cause Phys × State :=
  match ag with
  | .plate p => s.xlatPlate p k va
  | .aStream h => s.xlat (tlbBay h) (s.hart h).ctx.asid (s.hart h).ctx.ptbase false k va
  | .eStream h => s.xlat (tlbBay h) (s.hart h).ctx.asid (s.hart h).ctx.ptbase false k va

/-- The address checks of R235 and R237 in their order: BOUNDS, ALIGN, then translation. -/
def State.aXlat (s : State) (ag : Agent) (k : Acc) (va n : Nat) : Except Cause Phys × State :=
  match s.placeOf ag va n with
  | .bounds => (.error .bounds, s)
  | .scratch key => if va % n = 0 then (.ok ⟨key, false⟩, s) else (.error .align, s)
  | .paged => if va % n = 0 then s.paged ag k va else (.error .align, s)

/-- The bay whose L1 data cache serves an agent's access to a place (R124): an A-stream's, to a page that is cached, whatever other
kind another leaf gives the frame (DESIGN CHOICE, log 106). -/
def Agent.l1? (ag : Agent) (p : Phys) : Option Nat :=
  match ag with
  | .aStream h => if p.cached then some (bayOf h) else none
  | _ => none

/-- A read of a place by an agent. -/
def State.readAs (s : State) (ag : Agent) (p : Phys) (n : Nat) : Except Cause Nat × State :=
  match ag.l1? p with
  | some b => s.l1Load b p.key n
  | none => s.loadAt p.key n

/-- A write to a place by an agent. -/
def State.writeAs (s : State) (ag : Agent) (p : Phys) (bs : List Byte) : Option Cause × State :=
  match ag.l1? p with
  | some b => s.l1Store b p.key bs
  | none => s.storeAt p.key bs

/-- A release by an agent at a scope (R124): at TRUSS or wider a hart's bay writes its L1 back. -/
def State.releaseBy (s : State) (ag : Agent) (scope : Nat) : State :=
  match ag.hart? with
  | some h => if 2 ≤ scope then s.l1Release h else s
  | none => s

/-- An acquire by an agent at a scope (R124): at TRUSS or wider a hart's bay drops the clean copies of its L1. -/
def State.acquireBy (s : State) (ag : Agent) (scope : Nat) : State :=
  match ag.hart? with
  | some h => if 2 ≤ scope then s.l1Acquire h else s
  | none => s

/-- A scalar load (R124, R235). -/
def State.aLoad (s : State) (ag : Agent) (va n : Nat) : Except Cause Nat × State :=
  match s.aXlat ag .read va n with
  | (.error c, s) => (.error c, s)
  | (.ok p, s) => s.readAs ag p n

/-- A scalar store (R124, R235). -/
def State.aStore (s : State) (ag : Agent) (va n v : Nat) : Option Cause × State :=
  match s.aXlat ag .write va n with
  | (.error c, s) => (some c, s)
  | (.ok p, s) => s.writeAs ag p (toBytes n v)

/-- The line of an atomic leaves the L1 of the agent's bay before the atomic is performed at its home (R124, R125). -/
def State.amoFlush (s : State) (ag : Agent) (p : Phys) : State :=
  match ag.l1? p with
  | some b => s.l1Flush b p.key 8
  | none => s

/-- A 64-bit read-modify-write at its home (R125, R237), with the release and the acquire of the scope ar, where it has one; the
function answers the new value, or none for no write. -/
def State.aAmo (s : State) (ag : Agent) (va : Nat) (ar : Option Nat) (f : W64 → Option W64) : Except Cause W64 × State :=
  match s.aXlat ag .atomic va 8 with
  | (.error c, s) => (.error c, s)
  | (.ok p, s) =>
    if isIo p.key || (isHost p.key && p.dev) then (.error .scope, s)
    else match ((s.releaseBy ag (ar.getD 0)).amoFlush ag p).loadAt p.key 8 with
      | (.error c, s) => (.error c, s)
      | (.ok v, s) =>
        match f (w64 v) with
        | none => (.ok (w64 v), s.acquireBy ag (ar.getD 0))
        | some w =>
          match s.storeAt p.key (toBytes 8 w.toNat) with
          | (some c, s) => (.error c, s)
          | (none, s) => (.ok (w64 v), s.acquireBy ag (ar.getD 0))

/-- n dwords read one after another, as A-stream loads; an error names the address (R235, R331). -/
def State.aLoads (s : State) (ag : Agent) : Nat → Nat → Except (Cause × Nat) (List W64) × State
  | _, 0 => (.ok [], s)
  | va, n + 1 =>
    match s.aLoad ag va 8 with
    | (.error c, s) => (.error (c, va), s)
    | (.ok v, s) =>
      match s.aLoads ag (va + 8) n with
      | (.error e, s) => (.error e, s)
      | (.ok l, s) => (.ok (w64 v :: l), s)

/-- The word at an address of a step's code when the step was placed, where the page tables of its context had the page then
(R210). -/
def State.oldWord (s : State) (h pc : Nat) : Option Nat :=
  let v := s.hart h
  let u : State := { s with mem := v.id.code }
  match u.walk v.ctx.ptbase pc with
  | .leaf pte _ _ size => (u.leafPhys pte size pc).map fun p => ofBytes (memRead v.id.code p.key 4)
  | .missing | .uncorr => none

/-- The word that a fetch of v at an address returns (R210): for a step the word that stood there when the step was placed, or v; a
free value chooses between them. -/
def State.oldOrNew (s : State) (ag : Agent) (pc v : Nat) : Word32 × State :=
  match ag.hart?.bind fun h => s.oldWord h pc with
  | none => (BitVec.ofNat 32 v, s)
  | some old =>
    if old = v then (BitVec.ofNat 32 v, s)
    else (BitVec.ofNat 32 (if (Config.freeWord s.free).getLsbD 0 then old else v), { s with free := s.free + 1 })

/-- The word of the instruction that an agent stands inside; it is not fetched again. -/
def State.heldWord (s : State) : Agent → Option Word32
  | .eStream h => (s.hart h).e.prog.map (·.word)
  | _ => none

/-- The word at an agent's program counter (R209, R210). -/
def State.fetchWord (s : State) (ag : Agent) : Except Cause Word32 × State :=
  let pc := (s.pcOf ag).toNat
  match s.heldWord ag with
  | some w => (.ok w, s)
  | none =>
    if 2 ^ 47 ≤ pc then (.error .bounds, s)
    else match s.paged ag .exec pc with
      | (.error c, s) => (.error c, s)
      | (.ok p, s) =>
        match s.loadAt p.key 4 with
        | (.error c, s) => (.error c, s)
        | (.ok v, s) =>
          match s.oldOrNew ag pc v with
          | (w, s) => (.ok w, s)

end Sys2Proof.Machine
end

