-- ==== Sys2Proof/Machine/Operands.lean ====
section
/-! DEFINITION. The checks before an instruction (R219), the operand forms of the A-stream (R213, R227, R148) and of
the E-stream (R149, R213, R214, R265..R270), and how each stream's instruction completes, waits or traps. -/

namespace Sys2Proof.Machine

open Host (Outcome)

/-! The checks of R219. -/

/-- Checks 3 and 4 of R219: the verdict columns of R215 and R217; none means the instruction is legal. -/
def classVerdict (c : StreamClass) (ag : Agent) (truss : Bool) : Option Cause :=
  match c, ag with
  | .aAll, .eStream _ => some .stream
  | .aAll, _ => none
  | .aStep, .aStream _ => none
  | .aStep, _ => some .stream
  | .both, _ => none
  | .stepBoth, .plate _ => some .stream
  | .stepBoth, _ => none
  | .eOnly, .eStream _ => none
  | .eOnly, _ => some .stream
  | .plateOnly, .plate _ => none
  | .plateOnly, .aStream _ => some .priv
  | .plateOnly, .eStream _ => some .stream
  | .stepEnd, .plate _ => some .illop
  | .stepEnd, _ => none
  | .stepA, .aStream _ => none
  | .stepA, .eStream _ => some .stream
  | .stepA, .plate _ => some .illop
  | .trussA, .aStream _ => if truss then none else some .stream
  | .trussA, _ => some .stream
  | .trussE, .eStream _ => if truss then none else some .stream
  | .trussE, _ => some .stream
  | .event, _ => none

/-- Is this agent an E-stream? -/
def Agent.isE : Agent → Bool
  | .eStream _ => true
  | _ => false

/-- Is the executing agent a hart of a TRUSS step? -/
def State.curTruss (s : State) : Bool :=
  match s.cur.hart? with
  | some h => (s.hart h).id.truss
  | none => false

/-- Checks 3 to 5 of R219: stream, privilege, features. -/
def State.gate345 (s : State) (i : Instr) : Option Cause :=
  match classVerdict i.streamClass s.cur s.curTruss with
  | some c => some c
  | none => if i.features.all s.has then none else some .feature

/-- Checks 3 to 6 of R219. -/
def State.gateFail (s : State) (i : Instr) : Option Cause :=
  match s.gate345 i with
  | some c => some c
  | none => if i.fieldsOk s.cur.isE then none else some .illop

/-- EVAL of the checks 1..6: the word itself (R219). -/
def evalOf (i : Instr) : W64 := i.word.setWidth 64

/-- An instruction behind the checks of R219: it traps with the word in EVAL, or does its own work. -/
def gate (i : Instr) (s : State) (body : State → State) : Outcome State Fault Refusal :=
  .next (match s.gateFail i with
    | some c => s.raise c (evalOf i)
    | none => body s)

/-! A-stream operands. -/

/-- Does a code name a queue port (R213)? -/
def isPort (c : RCode) : Bool := decide (4 ≤ c.toNat) && decide (c.toNat ≤ 7)

/-- How many of these fields name port n. -/
def portCount (n : Nat) (l : List RCode) : Nat := (l.filter fun c => c.toNat == n + 4).length

/-- May an A-stream instruction leave (R148)? Sources in pop order, then destinations. A plate core has no queue, so
an instruction that names one waits (log 15). -/
def State.aReady (s : State) (srcs dsts : List RCode) : Bool :=
  match s.cur with
  | .aStream h =>
    let r := (s.hart h).r
    (List.range 4).all fun n => decide (portCount n srcs ≤ (tgetD r.ea n []).length) &&
      decide ((tgetD r.ae n []).length + portCount n dsts ≤ 8)
  | _ => !(srcs.any isPort) && !(dsts.any isPort)

/-- The general registers of the executing agent. -/
def State.xs (s : State) : Tab W64 :=
  match s.cur with
  | .aStream h => (s.hart h).a.x
  | .plate p => (s.plate p).x
  | .eStream _ => []

/-- The value of a source; rank counts the earlier sources of the same port (R56, R227). -/
def State.aSrc (s : State) (c : RCode) (rank : Nat) : W64 :=
  if c = 0 then 0
  else if isPort c then
    match s.cur with
    | .aStream h => (tgetD (s.hart h).r.ea (c.toNat - 4) []).getD rank 0
    | _ => 0
  else tgetD s.xs c.toNat 0

/-- The values of the sources, in pop order (b, then a, then c; log 16). -/
def State.aVals (s : State) : List RCode → List RCode → List W64
  | _, [] => []
  | seen, c :: t => s.aSrc c (portCount (c.toNat - 4) seen) :: s.aVals (seen ++ [c]) t

/-- Removes the popped entries (R148). -/
def State.aPop (s : State) (srcs : List RCode) : State :=
  if srcs.any isPort then
    match s.cur with
    | .aStream h => s.modR h fun r => { r with ea := (List.range 4).foldl (fun q n =>
        let k := portCount n srcs
        if k = 0 then q else tput q n ((tgetD q n []).drop k)) r.ea }
    | _ => s
  else s

/-- Writes a destination (R227): z discards, a port pushes with zeros above bit 63 (R147), x8..x127 take the value. -/
def State.aPut (s : State) (a : RCode) (v : W64) : State :=
  if a = 0 then s
  else if isPort a then
    match s.cur with
    | .aStream h => s.modR h fun r =>
        { r with ae := tput r.ae (a.toNat - 4) (tgetD r.ae (a.toNat - 4) [] ++ [AEntry.full (v.setWidth 1024)]) }
    | _ => s
  else
    match s.cur with
    | .aStream h => s.modA h fun r => { r with x := tput r.x a.toNat v }
    | .plate p => s.modPlate p fun r => { r with x := tput r.x a.toNat v }
    | .eStream _ => s

/-- The ports a list of fields names. -/
def portsOf (l : List RCode) : List Nat := (l.filter isPort).map fun c => c.toNat - 4

/-- The wait of R148, then the action on the values of the sources. -/
def State.aWhen (s : State) (srcs dsts : List RCode) (body : List W64 → State → State) : State :=
  if s.aReady srcs dsts then body (s.aVals [] srcs) s
  else s.standAt (.queue (portsOf srcs) (portsOf dsts))

/-- An A-stream instruction with its operands: it passes the checks, waits for its queues, then acts on the values of
its sources. -/
def withA (i : Instr) (srcs dsts : List RCode) (s : State) (body : List W64 → State → State) :
    Outcome State Fault Refusal :=
  gate i s fun s => s.aWhen srcs dsts body

/-- The instruction completes: pops, the result, the next pc (R227). -/
def State.aDone (s : State) (srcs : List RCode) (a : RCode) (v : W64) : State := ((s.aPop srcs).aPut a v).advance

/-- The instruction completes without a result. -/
def State.aDone0 (s : State) (srcs : List RCode) : State := (s.aPop srcs).advance

/-! E-stream registers. -/

/-- The hart of the executing stream. -/
def State.curHart (s : State) : Nat := (s.cur.hart?).getD 0

/-- Width of VTYPE's format, TLEN and the group size (R102). -/
def ERegs.w (e : ERegs) : Nat := fmtWidth e.fmt.toNat
def ERegs.g (e : ERegs) : Nat := 2 ^ e.group.toNat

/-- TLEN (R69, R102). -/
def tlenOf (vlen : Nat) (e : ERegs) : Nat := if e.vill then 0 else vlen / e.w

/-- The contents of an E-stream register name that is no port (R97, R100). -/
def ERegs.reg (e : ERegs) (c : RCode) : VReg :=
  let n := c.toNat
  if n < 4 then tgetD e.l n 0
  else if n < 8 then 0
  else if n < 16 then tgetD e.o (n - 8) 0
  else tgetD e.main (e.wb + (n - 16)) 0

/-- A register image cut to VLEN bits. -/
def cutV (vlen v : Nat) : Nat := v % 2 ^ vlen

/-- A group of registers as one value: element i of width w at bit i w (R265). A port's popped entry stands in v. -/
def ERegs.groupVal (e : ERegs) (vlen : Nat) (c : RCode) (g : Nat) : Nat :=
  if g ≤ 1 then cutV vlen (e.reg c).toNat
  else (List.range g).foldr (fun j acc => cutV vlen (tgetD e.main (e.wb + (c.toNat - 16) + j) 0).toNat + 2 ^ vlen * acc) 0

/-- Writes a group of main registers. -/
def ERegs.putGroup (e : ERegs) (vlen : Nat) (c : RCode) (g v : Nat) : ERegs :=
  { e with main := (List.range g).foldl (fun m j =>
      tput m (e.wb + (c.toNat - 16) + j) (BitVec.ofNat 1024 (fld v (vlen * j) vlen))) e.main }

/-- Writes one register name; l0 and the queue ports hold nothing of their own. -/
def ERegs.putReg (e : ERegs) (c : RCode) (v : Nat) : ERegs :=
  let n := c.toNat
  if n < 8 then e
  else if n < 16 then { e with o := tput e.o (n - 8) (BitVec.ofNat 1024 v) }
  else { e with main := tput e.main (e.wb + (n - 16)) (BitVec.ofNat 1024 v) }

/-- The push into the last-result file (R98). -/
def ERegs.pushL (e : ERegs) (v : Nat) : ERegs :=
  { e with l := [(0, BitVec.ofNat 1024 v), (1, tgetD e.l 0 0), (2, tgetD e.l 1 0), (3, tgetD e.l 2 0)] }

/-- The checks of R214 on a vector operand. -/
def groupCheck (e : ERegs) (rsize : Nat) (c : RCode) (g : Nat) : Option Cause :=
  let n := c.toNat - 16
  if g > 1 ∧ c.toNat < 16 then some .illop
  else if g > 1 ∧ n % g ≠ 0 then some .illop
  else if 16 ≤ c.toNat ∧ n + g - 1 > 111 then some .illop
  else if 16 ≤ c.toNat ∧ e.wb + n + g - 1 ≥ rsize then some .regrange
  else none

/-- The first failure of a list of checks. -/
def firstFail : List (Option Cause) → Option Cause
  | [] => none
  | some c :: _ => some c
  | none :: t => firstFail t

/-- Main registers a vector operand touches. -/
def touches (e : ERegs) (c : RCode) (g : Nat) : List Nat :=
  if c.toNat < 16 then [] else span (e.wb + (c.toNat - 16)) (max 1 g)

/-! Uncorrectable errors of registers (R128, R398). -/

/-- Does one of these main registers hold a bad word? -/
def ERegs.badIn (e : ERegs) (regs : List Nat) : Bool := e.bad.any fun b => regs.contains (b / 16)

/-- Do element writes of width w touch 8-byte word k of a group? -/
def wordHit (w k : Nat) (ws : List (Nat × Nat)) : Bool :=
  ws.any fun p => decide (p.1 * w < 64 * k + 64) && decide (64 * k < (p.1 + 1) * w)

/-- Do they write all of it? -/
def wordFull (w k : Nat) (ws : List (Nat × Nat)) : Bool :=
  if w ≤ 64 then (span (k * 64 / max 1 w) (64 / max 1 w)).all fun i => ws.any fun p => p.1 == i else wordHit w k ws

/-- The place of a bad word of the main registers in the group at c: none when it lies outside. -/
def ERegs.badAt (e : ERegs) (vlen : Nat) (c : RCode) (g b : Nat) : Option Nat :=
  let r := e.wb + (c.toNat - 16)
  if 16 ≤ c.toNat && decide (r ≤ b / 16) && decide (b / 16 < r + max 1 g) then
    some ((b / 16 - r) * (vlen / 64) + b % 16) else none

/-! E-stream queues. -/

/-- What a pop of the source ports finds (R149, R150, R328). -/
inductive Pops where
  | ready (vals : List VReg)
  | waits
  | failed (va : W64)
  deriving DecidableEq, Repr

/-- The entries the sources would pop, in pop order: all must be there (R148) before a failed one shows (R328). -/
def popsOf (ae : Tab (List AEntry)) : List RCode → List RCode → List VReg → Pops
  | _, [], acc => .ready acc
  | seen, c :: t, acc =>
    if isPort c then
      match (tgetD ae (c.toNat - 4) [])[portCount (c.toNat - 4) seen]? with
      | some (.full v) => popsOf ae (seen ++ [c]) t (acc ++ [v])
      | some (.failed va) => match popsOf ae (seen ++ [c]) t acc with
        | .waits => .waits
        | _ => .failed va
      | _ => .waits
    else popsOf ae seen t acc

/-- What a start of an instruction finds in the queues of its sources: the latch, when it stands inside (R149). -/
def Hart.pops (v : Hart) (srcs : List RCode) : Pops :=
  if v.e.inside then .ready v.e.latch else popsOf v.r.ae [] srcs []

/-- Removes popped entries from the A→E queues. -/
def HRes.popE (r : HRes) (srcs : List RCode) : HRes :=
  { r with ae := (List.range 4).foldl (fun q n =>
      let k := portCount n srcs
      if k = 0 then q else tput q n ((tgetD q n []).drop k)) r.ae }

/-- The pops of an instruction, made once however often it starts (R149). -/
def Hart.popOnce (v : Hart) (srcs : List RCode) : HRes := if v.e.inside then v.r else v.r.popE srcs

/-! E-stream instructions. -/

/-- Where an E-stream instruction's result goes. -/
inductive EDst where
  | none
  /-- a vector destination of g registers and elements of w bits. -/
  | vec (c : RCode) (g w : Nat)
  /-- a mask. -/
  | mask (m : Nat)
  deriving DecidableEq, Repr

/-- The frame of an E-stream instruction (R267): VTYPE class when it depends on VTYPE, derived group sizes, source
fields in pop order, vector operands with their group sizes, destination, and the sources among the vector operands that each
element reads as a scalar (R266). -/
structure EOp where
  cls : Option (Nat → Bool)
  derived : List Nat
  srcs : List RCode
  vecs : List (RCode × Nat)
  dst : EDst
  scal : List RCode := []

/-- Does a group of an element-wise instruction read registers that an earlier group of it has written (R268)? Two operands of
one name and one size hold an element in the same place, which only its own group reads, unless it is read as a scalar. -/
def EOp.clash (op : EOp) : Bool :=
  match op.dst with
  | .vec a g _ => decide (8 ≤ a.toNat) && op.vecs.any fun p =>
      decide (8 ≤ p.1.toNat) && decide (p.1.toNat < a.toNat + max 1 g) && decide (a.toNat < p.1.toNat + max 1 p.2)
        && !(p.1 == a && p.2 == g && !(op.scal.contains p.1))
  | _ => false

/-- A stop inside an instruction: new VSTART, cause, EVAL, lowest offending element, launch and TID (R387). -/
structure EStop where
  vstart : Nat
  cause : Cause
  eval : W64
  elem : Nat
  elaunch : W64
  etid : W64
  deriving DecidableEq, Repr

/-- What an instruction did: element writes in order, flags, where it stopped, if it did, and else the element it has still
to go on with in a later turn, if it has. -/
structure EOut where
  writes : List (Nat × Nat)
  flags : BitVec 5
  stop : Option EStop
  pause : Option Nat := Option.none
  deriving DecidableEq, Repr

/-- Nothing done. -/
def EOut.none : EOut := { writes := [], flags := 0, stop := Option.none }

/-- The destination port, if the destination is one. -/
def EDst.port? : EDst → Option Nat
  | .vec c _ _ => if isPort c then some (c.toNat - 4) else Option.none
  | _ => Option.none

/-- The vector operands and the destination for R214, in the order in which they are checked (R267; DESIGN CHOICE, log 109). -/
def EOp.groups (op : EOp) : List (RCode × Nat) :=
  match op.dst with
  | .vec c g _ => (c, g) :: op.vecs
  | _ => op.vecs

/-- Checks 1 and 2 of R267. -/
def State.eChecks (s : State) (h : Nat) (op : EOp) : Option Cause :=
  let v := s.hart h
  let vt : Option Cause := match op.cls with
    | some f => if v.e.vill || !(f v.e.fmt.toNat) then some .illvt else Option.none
    | Option.none => Option.none
  firstFail (vt :: (if op.derived.any (8 < ·) then some .illvt else Option.none)
    :: op.groups.map fun p => groupCheck v.e v.id.rsize p.1 p.2)

/-- The registers an instruction reads or writes. -/
def EOp.touched (op : EOp) (e : ERegs) : List Nat := op.groups.flatMap fun p => touches e p.1 p.2

/-- Does a row in flight use one of these registers (R271)? -/
def MRegs.rowBusy (m : MRegs) (regs : List Nat) : Bool :=
  m.rows.any fun r => regs.any fun k =>
    decide (r.acc ≤ k) && decide (k < r.acc + 32 / max 1 (fmtWidth r.sfmt.toNat))

/-- The completed row whose enabled flag traps at a use of these registers (R87). -/
def MRegs.rowTrap (m : MRegs) (regs : List Nat) : Option RowTrap :=
  m.rowTraps.find? fun r => regs.any fun k => decide (r.acc ≤ k) && decide (k < r.acc + r.size)

/-- The E-stream of hart h traps outside any element (R267). -/
def State.eTrapPre (s : State) (h : Nat) (t : TrapInfo) : State := s.trap (.eStream h) t

/-- An enabled flag of a completed row traps here (R87). -/
def State.rowTrapAt (s : State) (h : Nat) (r : RowTrap) : State :=
  (s.modM h fun m => { m with rowTraps := m.rowTraps.filter fun q => q != r }).trap (.eStream h)
    (TrapInfo.of (fpCause r.flags) (r.pc))

/-- Element writes applied to a value. -/
def applyWrites (w v : Nat) (ws : List (Nat × Nat)) : Nat := ws.foldl (fun v p => setElem w v p.1 p.2) v

/-- The staging entry at the start (R99, R268): the kept one, or the old value of the single destination register. -/
def ERegs.staged (e : ERegs) (vlen : Nat) (c : RCode) : Nat :=
  if e.inside then (e.staging.getD 0).toNat
  else if c.toNat < 8 then 0 else cutV vlen (e.reg c).toNat

/-- Do the writes cover a bad word of the destination only in part (R128)? -/
def ERegs.badPart (e : ERegs) (vlen : Nat) (d : EDst) (ws : List (Nat × Nat)) : Bool :=
  match d with
  | .vec c g w => e.bad.any fun b => match e.badAt vlen c g b with
    | some k => wordHit w k ws && !(wordFull w k ws)
    | Option.none => false
  | _ => false

/-- The bad words that are left once the writes are made. -/
def ERegs.badLeft (e : ERegs) (vlen : Nat) (d : EDst) (ws : List (Nat × Nat)) : List Nat :=
  match d with
  | .vec c g w => e.bad.filter fun b => match e.badAt vlen c g b with
    | some k => !(wordFull w k ws)
    | Option.none => true
  | _ => e.bad

/-- Applies an instruction's element writes to registers and masks, without a push; the new staging entry beside. -/
def ERegs.writeOut (e : ERegs) (vlen : Nat) (d : EDst) (ws : List (Nat × Nat)) : ERegs × Option Nat :=
  match d with
  | .none => (e, Option.none)
  | .mask m =>
    ({ e with mask := tput e.mask m (BitVec.ofNat 2048 (applyWrites 1 (tgetD e.mask m 0).toNat ws)) }, Option.none)
  | .vec c g w =>
    if g ≤ 1 then
      let st := cutV vlen (applyWrites w (e.staged vlen c) ws)
      ({ e.putReg c (applyWrites w (cutV vlen (e.reg c).toNat) ws % 2 ^ vlen) with bad := e.badLeft vlen d ws }, some st)
    else ({ e.putGroup vlen c g (applyWrites w (e.groupVal vlen c g) ws) with bad := e.badLeft vlen d ws }, Option.none)

/-- VSTART once what the A-stream has done to it has taken effect: the bits that stay, and the bits that become 1 (R109, R110). -/
def vstartAfter (w : Option (BitVec 12 × BitVec 12)) (n : Nat) : Nat :=
  match w with
  | some f => (BitVec.ofNat 12 n &&& f.1 ||| f.2).toNat
  | none => n

/-- VSTART at the boundary after an instruction that leaves it at n: a write of the A-stream that came inside lands now
(R110). -/
def ERegs.atBoundary (e : ERegs) (n : Nat) : ERegs := { e.unkeep with vstart := vstartAfter e.vsw n, vsw := none }

/-- The completion of an E-stream instruction that leaves VSTART clears KEPT and what it kept (R149). -/
def State.dropKept (s : State) (h : Nat) : State := s.modE h fun e => e.atBoundary e.vstart

/-- An E-stream instruction completes (R98, R149, R268): pops, writes, the push, flags, VSTART and KEPT, the pc. -/
def State.eDone (s : State) (h : Nat) (op : EOp) (o : EOut) : State :=
  let vlen := s.vlen h
  (s.modHart h fun v =>
    let r := v.popOnce op.srcs
    let (e, st) := v.e.writeOut vlen op.dst o.writes
    let e := match st, op.dst.port? with
      | some x, Option.none => e.pushL x
      | _, _ => e
    let r := match st, op.dst.port? with
      | some x, some q => { r with ea := tput r.ea q (tgetD r.ea q [] ++ [w64 x]) }
      | _, _ => r
    { v with
      r := r
      e := { e.atBoundary 0 with fflags := accrue e.fflags o.flags } }).advance

/-- What an instruction that has begun keeps of its queues (R149): the popped entries, where they came from, its reservation
and its staging entry. -/
def ERegs.keep (e : ERegs) (op : EOp) (vals : List VReg) (st : Option Nat) : ERegs :=
  { e with latch := vals
           latchQ := if e.inside then e.latchQ else portsOf op.srcs
           reserved := if e.inside then e.reserved else op.dst.port?
           staging := st.map (BitVec.ofNat 1024) }

/-- How far an instruction has come when element n is the next (R88, R110): what it read when it started stays. -/
def Hart.progAt (v : Hart) (word : W64) (n : Nat) : Prog :=
  match v.e.prog with
  | some p => { p with elem := n }
  | none => { elem := n, escope := v.a.escope, fpen := v.e.fpen, frm := v.e.frm, word := word.setWidth 32, smiss := v.e.smiss }

/-- An E-stream instruction has executed some of its groups and stands before the next (R99, R269). -/
def State.ePause (s : State) (h : Nat) (op : EOp) (vals : List VReg) (o : EOut) (p : Prog) : State :=
  let vlen := s.vlen h
  s.modHart h fun v =>
    let (e, st) := v.e.writeOut vlen op.dst o.writes
    { v with
      r := v.popOnce op.srcs
      e := { e.keep op vals st with prog := some p, wait := .none, fflags := accrue e.fflags o.flags } }

/-- An E-stream instruction traps at a group (R99, R149, R268): what the groups before it wrote stays; with VSTART
not 0 the latch, the reservation and the staging entry are kept, else the pops are undone. -/
def State.eStopAt (s : State) (h : Nat) (op : EOp) (vals : List VReg) (o : EOut) (t : EStop) : State :=
  let vlen := s.vlen h
  let s := s.modHart h fun v =>
    let (e, st) := v.e.writeOut vlen op.dst o.writes
    if t.vstart = 0 then
      { v with
        r := if v.e.inside then v.r.unpop v.e.latchQ vals else v.r
        e := { e.unkeep with vstart := 0, fflags := accrue e.fflags o.flags } }
    else
      { v with
        r := v.popOnce op.srcs
        e := { e.keep op vals st with vstart := t.vstart, kept := true, prog := none,
                                      fflags := accrue e.fflags o.flags } }
  s.trap (.eStream h)
    { cause := t.cause, eval := t.eval, elaunch := t.elaunch, etid := t.etid, eelem := w64 t.elem, acc := 0 }

/-- The registers as an instruction sees them: one that goes on reads VSTART, FPEN and FRM as it has them (R88, R110). -/
def ERegs.view (e : ERegs) : ERegs :=
  match e.prog with
  | some p => { e with vstart := p.elem, fpen := p.fpen, frm := p.frm }
  | none => e

/-- What an instruction sees of its operands: VLEN, the registers, ESCOPE, how many groups it may execute in this turn, and the
popped values by field code and rank. -/
structure EIn where
  h : Nat
  vlen : Nat
  e : ERegs
  escope : BitVec 3
  lim : Option Nat
  srcs : List RCode
  vals : List VReg

/-- The popped value of the k-th source, when it is a port: the number of earlier ports names it. -/
def EIn.src (i : EIn) (k : Nat) : Nat :=
  match i.srcs[k]? with
  | some c =>
    if isPort c then cutV i.vlen ((i.vals.getD ((i.srcs.take k).filter isPort).length 0).toNat)
    else cutV i.vlen (i.e.reg c).toNat
  | none => 0

/-- A scalar source (R266). -/
def EIn.sc (i : EIn) (k : Nat) : Nat := i.src k % 2 ^ 64

/-- A vector source of g registers, as one value. -/
def EIn.vec (i : EIn) (k g : Nat) : Nat :=
  match i.srcs[k]? with
  | some c => if g ≤ 1 then i.src k else i.e.groupVal i.vlen c g
  | none => 0

/-- The groups an instruction executes in this turn. -/
def EIn.cut {α : Type} (x : EIn) (l : List α) : List α :=
  match x.lim with
  | some n => l.take n
  | none => l

/-- Where it stands after them: before the first group it has not reached. -/
def EIn.over {α : Type} (x : EIn) (l : List α) (start : α → Nat) (o : EOut) : EOut :=
  if o.stop.isSome then o
  else { o with pause := (x.lim.bind fun n => l[n]?).map start }

/-- How many groups an instruction may execute in this turn: where a group reads what an earlier one has written, one, so that
each group reads the registers as the groups before it left them (R268; DEDUCED, log 113). -/
def EOp.groupLimit (op : EOp) (lim : Option Nat) : Option Nat := if op.clash then some (min 1 (lim.getD 1)) else lim

/-- What an instruction of a hart sees. -/
def State.eIn (s : State) (h : Nat) (op : EOp) (vals : List VReg) : EIn :=
  let v := s.hart h
  { h := h, vlen := s.vlen h, e := v.e.view, escope := (v.e.prog.map (·.escope)).getD v.a.escope, lim := op.groupLimit s.limit,
    srcs := op.srcs, vals := vals }

/-- An uncorrectable error in a register traps UNCORR at the instruction (R398). The spec names no address for a register: EVAL
is a free value (log 85). -/
def State.regTrap (s : State) (h : Nat) : State :=
  ({ s.countUncorr with free := s.free + 1 } : State).eTrapPre h (TrapInfo.of .uncorr (Config.freeWord s.free))

/-- What the body of an instruction answers: a trap outside any element, or the state and what was done. -/
abbrev EBody := Except (TrapInfo × State) (State × EOut)

/-- An E-stream instruction that its queues let start (R268, R328, R398): a failed entry or a bad register traps, else the body
acts, and the instruction completes, traps, or stands before its next group. -/
def State.eBody (s : State) (word : W64) (op : EOp) (body : EIn → State → EBody) (p : Pops) : State :=
  let h := s.curHart
  let v := s.hart h
  match p with
  | .waits => s
  | .failed va => s.eTrapPre h (TrapInfo.of .uncorr va)
  | .ready vals =>
    if v.e.badIn (op.vecs.flatMap fun p => touches v.e p.1 p.2) then s.regTrap h
    else
      match body (s.eIn h op vals) s with
      | .error (t, s') => s'.eTrapPre h t
      | .ok (s', o) =>
        if v.e.badPart (s.vlen h) op.dst o.writes then s.regTrap h
        else
          match o.stop, o.pause with
          | some t, _ => s'.eStopAt h op vals o t
          | none, some n => s'.ePause h op vals o (v.progAt word n)
          | none, none => s'.eDone h op o

/-- The common frame of R267, R268 and R149: checks 1 and 2, what pre names (check 3), rows in flight and row traps
(R87, R271), the queues, then the body, which checks its operands and answers what was done. -/
def State.eFrame (s : State) (word : W64) (op : EOp) (pre : State → Nat → Option TrapInfo)
    (body : EIn → State → EBody) : State :=
  let h := s.curHart
  let v := s.hart h
  match s.eChecks h op with
  | some c => s.eTrapPre h (TrapInfo.of c word)
  | none =>
    match pre s h with
    | some t => s.eTrapPre h t
    | none =>
      match v.m.rowTrap (op.touched v.e) with
      | some r => s.rowTrapAt h r
      | none =>
        if v.m.rowBusy (op.touched v.e) then s.standAt .stall
        else
          let full := match op.dst.port? with
            | some q => !v.e.inside && decide (8 ≤ (tgetD v.r.ea q []).length)
            | none => false
          match v.pops op.srcs with
          | .waits => s.standAt (.queue (portsOf op.srcs) [])
          | p =>
            if full then s.standAt (.queue [] (op.dst.port?.toList))
            else s.eBody word op body p

/-- An E-stream instruction: the checks of R219, then the common frame. -/
def eRun (i : Instr) (s : State) (op : EOp) (pre : State → Nat → Option TrapInfo)
    (body : EIn → State → EBody) : Outcome State Fault Refusal :=
  gate i s fun s => s.eFrame (evalOf i) op pre body

/-- No check 3. -/
def noPre (_ : State) (_ : Nat) : Option TrapInfo := none

/-! Element-wise execution (R268). -/

/-- Is element i active under predicate mk (R268)? -/
def EIn.active (i : EIn) (mk : BitVec 2) (k : Nat) : Bool := mk == 0 || (tgetD i.e.mask mk.toNat 0).getLsbD k

/-- One element-wise result per element: value and flags; groups commit in order, an enabled flag stops at its group
(R86). The list holds the group numbers still to do. -/
def eGroups (E vstart n : Nat) (fpen : BitVec 5) (active : Nat → Bool) (f : Nat → Nat × BitVec 5) :
    List Nat → EOut → EOut
  | [], o => o
  | k :: ks, o =>
    let is := (span (k * E) E).filter fun i => decide (vstart ≤ i) && decide (i < n) && active i
    let rs := is.map fun i => (i, f i)
    let fl := rs.foldl (fun a r => a ||| r.2.2) (0 : BitVec 5)
    if enabled fpen fl ≠ 0 then
      let bad := (rs.find? fun r => enabled fpen r.2.2 != 0).map (·.1)
      { o with stop := some { vstart := max (k * E) vstart, cause := fpCause (enabled fpen fl), eval := 0,
                              elem := bad.getD 0, elaunch := 0, etid := 0 } }
    else
      eGroups E vstart n fpen active f ks
        { o with writes := o.writes ++ rs.map fun r => (r.1, r.2.1), flags := o.flags ||| fl }

/-- The group numbers from VSTART's to the last below n. -/
def groupNos (E vstart n : Nat) : List Nat := span (vstart / E) (ceilDiv n E - vstart / E)

/-- An element-wise computation over VL elements (R268). -/
def eMap (x : EIn) (E : Nat) (mk : BitVec 2) (f : Nat → Nat × BitVec 5) : EOut :=
  let ks := groupNos E x.e.vstart x.e.vl
  x.over ks (fun k => max (k * E) x.e.vstart) (eGroups E x.e.vstart x.e.vl x.e.fpen (x.active mk) f (x.cut ks) EOut.none)

/-- A whole-commit result with flags, trapping as a whole (R270, R284). -/
def eWhole (x : EIn) (ws : List (Nat × Nat)) (fl : BitVec 5) : EOut :=
  if enabled x.e.fpen fl ≠ 0 then
    { EOut.none with stop := some { vstart := 0, cause := fpCause (enabled x.e.fpen fl), eval := 0, elem := 0,
                                    elaunch := 0, etid := 0 } }
  else { writes := ws, flags := fl, stop := none }

/-! Format classes (R267). -/

def clsI (f : Nat) : Bool := f ≤ 5
def clsF (f : Nat) : Bool := f == 6 || f == 7 || f == 8
def clsA (f : Nat) : Bool := f ≤ 13
def clsA8 (f : Nat) : Bool := decide (f ≤ 13) && decide (8 ≤ fmtWidth f)

/-- E for elements of at most w bits (R265). -/
def eSize (w : Nat) : Nat := 128 / max 1 w

end Sys2Proof.Machine
end

