-- ==== Sys2Proof/Machine/Alu.lean ====
section
/-! DEFINITION. Integer instructions of the A-stream: majors 0x01 to 0x09 (R229..R233). Results wrap at 64 bits (R70). -/

namespace Sys2Proof.Machine

open Host (Outcome)

/-- A two-source operation (R229). -/
def alu2 (i : Instr) (a b c : RCode) (s : State) (f : W64 → W64 → W64) : Outcome State Fault Refusal :=
  withA i [b, c] [a] s fun v s => s.aDone [b, c] a (f (v.getD 0 0) (v.getD 1 0))

/-- A one-source operation (R229, R231, R232). -/
def alu1 (i : Instr) (a b : RCode) (s : State) (f : W64 → W64) : Outcome State Fault Refusal :=
  withA i [b] [a] s fun v s => s.aDone [b] a (f (v.getD 0 0))

/-- The sign-extended 12-bit immediate (R231). -/
def imm12 (i : BitVec 12) : W64 := i.signExtend 64

/-- 1 or 0 as a word. -/
def bit64 (b : Bool) : W64 := if b then 1 else 0

/-- Rotations by a number of bits (R229). -/
def rol64 (x : W64) (n : Nat) : W64 := x.rotateLeft (n % 64)
def ror64 (x : W64) (n : Nat) : W64 := x.rotateRight (n % 64)

/-- The shift amount C[5:0] (R229). -/
def sh6 (c : W64) : Nat := c.toNat % 64

/-- Quotient and remainder with the edge cases of R70. -/
def divS (b c : W64) : W64 := if c = 0 then BitVec.allOnes 64 else w64i (b.toInt.tdiv c.toInt)
def divU (b c : W64) : W64 := if c = 0 then BitVec.allOnes 64 else w64 (b.toNat / c.toNat)
def remS (b c : W64) : W64 := if c = 0 then b else w64i (b.toInt.tmod c.toInt)
def remU (b c : W64) : W64 := if c = 0 then b else w64 (b.toNat % c.toNat)


/-- ADD (R229). -/
def execAdd (a b c : RCode) (s : State) : Outcome State Fault Refusal :=
  alu2 (.add a b c) a b c s fun b c => b + c

/-- SUB (R229). -/
def execSub (a b c : RCode) (s : State) : Outcome State Fault Refusal :=
  alu2 (.sub a b c) a b c s fun b c => b - c

/-- AND (R229). -/
def execAnd (a b c : RCode) (s : State) : Outcome State Fault Refusal :=
  alu2 (.and a b c) a b c s fun b c => b &&& c

/-- OR (R229). -/
def execOr (a b c : RCode) (s : State) : Outcome State Fault Refusal :=
  alu2 (.or a b c) a b c s fun b c => b ||| c

/-- XOR (R229). -/
def execXor (a b c : RCode) (s : State) : Outcome State Fault Refusal :=
  alu2 (.xor a b c) a b c s fun b c => b ^^^ c

/-- ANDN (R229). -/
def execAndn (a b c : RCode) (s : State) : Outcome State Fault Refusal :=
  alu2 (.andn a b c) a b c s fun b c => b &&& ~~~c

/-- ORN (R229). -/
def execOrn (a b c : RCode) (s : State) : Outcome State Fault Refusal :=
  alu2 (.orn a b c) a b c s fun b c => b ||| ~~~c

/-- XNOR (R229). -/
def execXnor (a b c : RCode) (s : State) : Outcome State Fault Refusal :=
  alu2 (.xnor a b c) a b c s fun b c => ~~~(b ^^^ c)

/-- SLL (R229). -/
def execSll (a b c : RCode) (s : State) : Outcome State Fault Refusal :=
  alu2 (.sll a b c) a b c s fun b c => b <<< sh6 c

/-- SRL (R229). -/
def execSrl (a b c : RCode) (s : State) : Outcome State Fault Refusal :=
  alu2 (.srl a b c) a b c s fun b c => b >>> sh6 c

/-- SRA (R229). -/
def execSra (a b c : RCode) (s : State) : Outcome State Fault Refusal :=
  alu2 (.sra a b c) a b c s fun b c => b.sshiftRight (sh6 c)

/-- ROL (R229). -/
def execRol (a b c : RCode) (s : State) : Outcome State Fault Refusal :=
  alu2 (.rol a b c) a b c s fun b c => rol64 b (sh6 c)

/-- ROR (R229). -/
def execRor (a b c : RCode) (s : State) : Outcome State Fault Refusal :=
  alu2 (.ror a b c) a b c s fun b c => ror64 b (sh6 c)

/-- SLT (R229). -/
def execSlt (a b c : RCode) (s : State) : Outcome State Fault Refusal :=
  alu2 (.slt a b c) a b c s fun b c => bit64 (b.slt c)

/-- SLTU (R229). -/
def execSltu (a b c : RCode) (s : State) : Outcome State Fault Refusal :=
  alu2 (.sltu a b c) a b c s fun b c => bit64 (b.ult c)

/-- MIN (R229). -/
def execMin (a b c : RCode) (s : State) : Outcome State Fault Refusal :=
  alu2 (.min a b c) a b c s fun b c => if b.slt c then b else c

/-- MAX (R229). -/
def execMax (a b c : RCode) (s : State) : Outcome State Fault Refusal :=
  alu2 (.max a b c) a b c s fun b c => if b.slt c then c else b

/-- MINU (R229). -/
def execMinu (a b c : RCode) (s : State) : Outcome State Fault Refusal :=
  alu2 (.minu a b c) a b c s fun b c => if b.ult c then b else c

/-- MAXU (R229). -/
def execMaxu (a b c : RCode) (s : State) : Outcome State Fault Refusal :=
  alu2 (.maxu a b c) a b c s fun b c => if b.ult c then c else b

/-- MUL (R229). -/
def execMul (a b c : RCode) (s : State) : Outcome State Fault Refusal :=
  alu2 (.mul a b c) a b c s fun b c => b * c

/-- MULH (R229). -/
def execMulh (a b c : RCode) (s : State) : Outcome State Fault Refusal :=
  alu2 (.mulh a b c) a b c s fun b c => w64i (b.toInt * c.toInt / 2 ^ 64)

/-- MULHU (R229). -/
def execMulhu (a b c : RCode) (s : State) : Outcome State Fault Refusal :=
  alu2 (.mulhu a b c) a b c s fun b c => w64 (b.toNat * c.toNat / 2 ^ 64)

/-- DIV (R229). -/
def execDiv (a b c : RCode) (s : State) : Outcome State Fault Refusal :=
  alu2 (.div a b c) a b c s fun b c => divS b c

/-- DIVU (R229). -/
def execDivu (a b c : RCode) (s : State) : Outcome State Fault Refusal :=
  alu2 (.divu a b c) a b c s fun b c => divU b c

/-- REM (R229). -/
def execRem (a b c : RCode) (s : State) : Outcome State Fault Refusal :=
  alu2 (.rem a b c) a b c s fun b c => remS b c

/-- REMU (R229). -/
def execRemu (a b c : RCode) (s : State) : Outcome State Fault Refusal :=
  alu2 (.remu a b c) a b c s fun b c => remU b c

/-- CLMUL (R230). -/
def execClmul (a b c : RCode) (s : State) : Outcome State Fault Refusal :=
  alu2 (.clmul a b c) a b c s fun b c => w64 (clmulN 64 b.toNat c.toNat)

/-- CLMULH (R230). -/
def execClmulh (a b c : RCode) (s : State) : Outcome State Fault Refusal :=
  alu2 (.clmulh a b c) a b c s fun b c => w64 (clmulN 64 b.toNat c.toNat / 2 ^ 64)

/-- CLZ (R229). -/
def execClz (a b : RCode) (s : State) : Outcome State Fault Refusal :=
  alu1 (.clz a b) a b s fun b => w64 (clzN 64 b.toNat)

/-- CTZ (R229). -/
def execCtz (a b : RCode) (s : State) : Outcome State Fault Refusal :=
  alu1 (.ctz a b) a b s fun b => w64 (ctzN 64 b.toNat)

/-- POPC (R229). -/
def execPopc (a b : RCode) (s : State) : Outcome State Fault Refusal :=
  alu1 (.popc a b) a b s fun b => w64 (popCount 64 b.toNat)

/-- ADDI (R231). -/
def execAddi (a b : RCode) (i : BitVec 12) (s : State) : Outcome State Fault Refusal :=
  alu1 (.addi a b i) a b s fun b => b + imm12 i

/-- ANDI (R231). -/
def execAndi (a b : RCode) (i : BitVec 12) (s : State) : Outcome State Fault Refusal :=
  alu1 (.andi a b i) a b s fun b => b &&& imm12 i

/-- ORI (R231). -/
def execOri (a b : RCode) (i : BitVec 12) (s : State) : Outcome State Fault Refusal :=
  alu1 (.ori a b i) a b s fun b => b ||| imm12 i

/-- XORI (R231). -/
def execXori (a b : RCode) (i : BitVec 12) (s : State) : Outcome State Fault Refusal :=
  alu1 (.xori a b i) a b s fun b => b ^^^ imm12 i

/-- SLTI (R231). -/
def execSlti (a b : RCode) (i : BitVec 12) (s : State) : Outcome State Fault Refusal :=
  alu1 (.slti a b i) a b s fun b => bit64 (b.slt (imm12 i))

/-- SLTIU (R231). -/
def execSltiu (a b : RCode) (i : BitVec 12) (s : State) : Outcome State Fault Refusal :=
  alu1 (.sltiu a b i) a b s fun b => bit64 (b.ult (imm12 i))

/-- SLLI (R232). -/
def execSlli (a b : RCode) (n : BitVec 6) (s : State) : Outcome State Fault Refusal :=
  alu1 (.slli a b n) a b s fun b => b <<< n.toNat

/-- SRLI (R232). -/
def execSrli (a b : RCode) (n : BitVec 6) (s : State) : Outcome State Fault Refusal :=
  alu1 (.srli a b n) a b s fun b => b >>> n.toNat

/-- SRAI (R232). -/
def execSrai (a b : RCode) (n : BitVec 6) (s : State) : Outcome State Fault Refusal :=
  alu1 (.srai a b n) a b s fun b => b.sshiftRight n.toNat

/-- ROLI (R232). -/
def execRoli (a b : RCode) (n : BitVec 6) (s : State) : Outcome State Fault Refusal :=
  alu1 (.roli a b n) a b s fun b => rol64 b n.toNat

/-- RORI (R232). -/
def execRori (a b : RCode) (n : BitVec 6) (s : State) : Outcome State Fault Refusal :=
  alu1 (.rori a b n) a b s fun b => ror64 b n.toNat

/-- LIH (R233). -/
def execLih (a : RCode) (i : BitVec 19) (s : State) : Outcome State Fault Refusal :=
  withA (.lih a i) [] [a] s fun _ s => s.aDone [] a (i.signExtend 64 <<< 13)

end Sys2Proof.Machine
end

