-- ==== Sys2Proof/Machine/Csr.lean ====
section
/-! DEFINITION. The CSRs: their numbers, fields, kinds and who may reach them (R105..R114, R195, R242). -/

namespace Sys2Proof.Machine

open Host (Outcome)

/-- The CSR numbers of R105 and R112. -/
def csrListed (n : Nat) : Bool :=
  [0x000, 0x001, 0x002, 0x004, 0x008, 0x010, 0x011, 0x012, 0x020, 0x021, 0x022, 0x030, 0x031, 0x032, 0x040, 0x041,
   0x042, 0x043, 0x044, 0x045, 0x08F, 0x180, 0x181, 0x182, 0x183, 0x184, 0x200, 0x201, 0x210, 0x211, 0x218, 0x220,
   0x221, 0x222].contains n
  || (decide (0x080 ≤ n) && decide (n ≤ 0x087)) || (decide (0x0C0 ≤ n) && decide (n ≤ 0x0CB))
  || (decide (0x100 ≤ n) && decide (n ≤ 0x106)) || (decide (0x240 ≤ n) && decide (n ≤ 0x24F))

/-- CSRs below 0x200 that a plate core reaches (R105). -/
def csrPlate (n : Nat) : Bool :=
  [0x000, 0x002, 0x008, 0x020, 0x022, 0x100, 0x101, 0x102, 0x106, 0x180, 0x181, 0x182, 0x184].contains n

/-- The number and access checks of R105, R111 and R242. The whole range from 0x200 is plate registers for a step
(R111), whatever numbers R112 lists. -/
def csrDeny (ag : Agent) (n : Nat) : Option Cause :=
  match ag with
  | .plate _ => if csrListed n && (decide (0x200 ≤ n) || csrPlate n) then none else some .illop
  | _ =>
    if 0x200 ≤ n then some .priv
    else if !(csrListed n) then some .illop
    else if n = 0x012 then some .priv else none

/-- HARTID of an agent (R106). -/
def State.agentId (s : State) : Agent → Nat
  | .plate p => 2 ^ 18 + s.pkgNum * 2 ^ 12 + p % 4
  | .aStream h => s.hartId h
  | .eStream h => s.hartId h

/-- STEPS of a hart's node (R198). -/
def State.stepsCsr (s : State) (h : Nat) : W64 :=
  match (s.cmd? (s.hart h).id.node).bind (·.run) with
  | some r => w64 (r.retired % 2 ^ 32 + r.killed % 2 ^ 32 * 2 ^ 32)
  | none => 0

/-- A shadow of the copy launch by its number (R105, R108). -/
def Shadows.get (c : Shadows) (k : Nat) : W64 :=
  match k with
  | 0 => c.src | 1 => c.dst | 2 => c.shape | 3 => c.sstr | 4 => c.dstr | 5 => c.opt | 6 => c.pad | _ => c.bar

def Shadows.set (c : Shadows) (k : Nat) (v : W64) : Shadows :=
  match k with
  | 0 => { c with src := v } | 1 => { c with dst := v } | 2 => { c with shape := v } | 3 => { c with sstr := v }
  | 4 => { c with dstr := v } | 5 => { c with opt := v } | 6 => { c with pad := v } | _ => { c with bar := v }

/-- The CSRs every agent shares (R105, R195). -/
def State.csrCommon (s : State) (n : Nat) : W64 :=
  match n with
  | 0x000 => w64 (s.agentId s.cur)
  | 0x002 => s.feat.setWidth 64
  | 0x022 => s.preg.sdtbase.setWidth 64
  | 0x180 => w64 s.cycle
  | 0x181 => w64 s.timeNs
  | 0x184 => s.ticket
  | _ => 0

/-- Configuration of the vector unit as its CSRs show it (R102). -/
def vtypeCsr (e : ERegs) : W64 := w64 (b2n e.vill * 2 ^ 63 + e.group.toNat * 16 + e.fmt.toNat)

/-- CTXID, PART and STATUS (R106). -/
def Hart.ctxid (v : Hart) : W64 := w64 (v.ctx.asid % 2 ^ 12 + v.ctx.vf % 2 ^ 8 * 2 ^ 12 + v.ctx.region % 2 ^ 12 * 2 ^ 20)
def Hart.part (v : Hart) : W64 :=
  w64 (v.id.lanes % 64 + 32 / max 1 v.id.lanes % 16 * 2 ^ 8 + b2n v.id.truss * 2 ^ 16)
def Hart.status (v : Hart) : W64 :=
  w64 (b2n v.id.resumed + b2n v.id.spliced * 2 + b2n v.id.pool * 4 + b2n v.id.snapped * 8)

/-- SMISSCNT as a read sees it: at the boundary before the instruction the E-stream stands inside (R110). -/
def ERegs.smissSeen (e : ERegs) : BitVec 32 :=
  match e.prog with
  | some p => p.smiss
  | none => e.smiss

/-- A CSR of a step's hart (R105). Inside an instruction VSTART still holds its value at the boundary before it (R110). -/
def State.csrHart (s : State) (h n : Nat) : W64 :=
  let v := s.hart h
  match n with
  | 0x001 => v.part
  | 0x004 => v.ctxid
  | 0x008 => v.status
  | 0x010 => w64 v.id.rsize
  | 0x011 => w64 v.e.wb
  | 0x020 => v.a.ascope.setWidth 64
  | 0x021 => v.a.escope.setWidth 64
  | 0x030 => v.e.fflags.setWidth 64
  | 0x031 => v.e.fpen.setWidth 64
  | 0x032 => v.e.frm.setWidth 64
  | 0x040 => w64 v.e.vl
  | 0x041 => vtypeCsr v.e
  | 0x042 => w64 v.e.vstart
  | 0x043 => v.e.smissSeen.setWidth 64
  | 0x044 => w64 (tlenOf (s.vlen h) v.e)
  | 0x045 => w64 v.m.mxcfg
  | 0x0C8 => v.id.stepid
  | 0x0C9 => v.id.kernid.setWidth 64
  | 0x0CA => v.id.opbaddr.setWidth 64
  | 0x0CB => v.id.resword
  | 0x100 => v.a.epc
  | 0x101 => v.a.ecause
  | 0x102 => v.a.eval
  | 0x103 => v.a.elaunch
  | 0x104 => v.a.etid
  | 0x105 => v.a.eelem
  | 0x106 => v.id.etvec.setWidth 64
  | 0x182 => v.a.instret
  | 0x183 => s.stepsCsr h
  | _ =>
    if 0x080 ≤ n ∧ n ≤ 0x087 then v.a.cp.get (n - 0x080)
    else if 0x0C0 ≤ n ∧ n ≤ 0x0C7 then v.id.stepix.getD (n - 0x0C0) 0
    else s.csrCommon n

/-- SNAPCTL (R112). -/
def PlateRegs.snapctl (p : PlateRegs) : W64 :=
  w64 (b2n p.armed + b2n p.useren * 2 + b2n p.pinen * 4 + b2n p.captured * 8 + p.missed.toNat * 2 ^ 8)

/-- SNAPDATA (R112, R415): the selected word of the last capture. -/
def State.snapData (s : State) : W64 :=
  match s.snap with
  | some c => (tget c.words (s.preg.snapblock.toNat * 256 + s.preg.snapword.toNat)).getD 0
  | none => 0

/-- A CSR of a plate core (R105, R112). -/
def State.csrOfPlate (s : State) (p n : Nat) : W64 :=
  let c := s.plate p
  match n with
  | 0x020 => c.ascope.setWidth 64
  | 0x100 => c.epc
  | 0x101 => c.ecause
  | 0x102 => c.eval
  | 0x106 => c.etvec
  | 0x182 => c.instret
  | 0x200 => s.featcap.setWidth 64
  | 0x201 => (s.preg.featack.getD 0).setWidth 64
  | 0x210 => s.preg.ipend.setWidth 64
  | 0x211 => s.preg.ien.setWidth 64
  | 0x218 => s.preg.rcbroot.setWidth 64
  | 0x220 => s.preg.snapctl
  | 0x221 => w64 (s.preg.snapword.toNat + s.preg.snapblock.toNat * 256)
  | 0x222 => s.snapData
  | _ =>
    if 0x240 ≤ n ∧ n ≤ 0x24F then ((tgetD s.preg.ridgeown (n - 0x240) 0).setWidth 64)
    else s.csrCommon n

/-- The value of a CSR for the executing agent. -/
def State.csrGet (s : State) (n : Nat) : W64 :=
  match s.cur with
  | .plate p => s.csrOfPlate p n
  | .aStream h => s.csrHart h n
  | .eStream h => s.csrHart h n

/-- The rw bits of a CSR (R102, R107, R108, R112); a step has no write to SDTBASE and ETVEC (R105). -/
def rwBits (plate : Bool) (n : Nat) : Nat :=
  match n with
  | 0x020 | 0x021 => 7
  | 0x022 => if plate then 2 ^ 48 - 1 else 0
  | 0x030 | 0x031 => 0x1F
  | 0x032 => 3
  | 0x042 => 0xFFF
  | 0x080 | 0x081 => 2 ^ 48 - 1
  | 0x082 | 0x083 | 0x084 | 0x086 => 2 ^ 64 - 1
  | 0x085 => 0x7FF737
  | 0x087 => 0x7FFFF1
  | 0x100 => 2 ^ 64 - 1
  | 0x106 => if plate then 2 ^ 64 - 1 else 0
  | 0x201 => 0xFF
  | 0x211 => 0x7F
  | 0x218 => 2 ^ 48 - 1
  | 0x220 => 7
  | 0x221 => 0xFFFFF
  | _ => if 0x240 ≤ n ∧ n ≤ 0x24F then 0x1FFF else 0

/-- The w1c bits of a CSR (R112). -/
def w1cBits (n : Nat) : Nat := if n = 0x210 then 0x7F else if n = 0x220 then 8 else 0

/-- The three ways to write a CSR (R242). -/
inductive CsrOp where
  | write | set | clear
  deriving DecidableEq, Repr

/-- The value a write leaves, field by field (R109, R242): w1c bits fall to a 1 written by CSRWR or CSRSET. -/
def csrNew (op : CsrOp) (rw w1c : Nat) (old v : W64) : W64 :=
  let full := match op with
    | .write => v
    | .set => old ||| v
    | .clear => old &&& ~~~v
  let m := w64 rw
  let c := if op = .clear then 0 else w64 w1c &&& v
  ((old &&& ~~~m) ||| (full &&& m)) &&& ~~~c

/-- What an A-stream's write does to VSTART: the bits that stay, and the bits that become 1. -/
def vstartOp (op : CsrOp) (x : W64) : BitVec 12 × BitVec 12 :=
  let b := x.setWidth 12
  match op with
  | .write => (0, b)
  | .set => (BitVec.allOnes 12, b)
  | .clear => (~~~b, 0)

/-- A write of VSTART by the A-stream (R109, R110): while the E-stream stands inside an instruction it takes effect at the next
boundary, on what the E-stream's own update leaves there. -/
def ERegs.putVstart (e : ERegs) (f : BitVec 12 × BitVec 12) : ERegs :=
  if e.prog.isSome || e.vsw.isSome then
    let g := e.vsw.getD (BitVec.allOnes 12, 0)
    { e with vsw := some (g.1 &&& f.1, g.2 &&& f.1 ||| f.2) }
  else { e with vstart := vstartAfter (some f) e.vstart }

/-- Stores the value of a hart's CSR. -/
def State.csrPutHart (s : State) (h n : Nat) (v : W64) : State :=
  match n with
  | 0x020 => s.modA h fun a => { a with ascope := v.setWidth 3 }
  | 0x021 => s.modA h fun a => { a with escope := v.setWidth 3 }
  | 0x030 => s.modE h fun e => { e with fflags := v.setWidth 5 }
  | 0x031 => s.modE h fun e => { e with fpen := v.setWidth 5 }
  | 0x032 => s.modE h fun e => { e with frm := v.setWidth 2 }
  | 0x042 => s.modE h fun e => { e with vstart := fld v.toNat 0 12 }
  | 0x100 => s.modA h fun a => { a with epc := v }
  | _ => if 0x080 ≤ n ∧ n ≤ 0x087 then s.modA h fun a => { a with cp := a.cp.set (n - 0x080) v } else s

/-- Stores the value of a plate core's CSR; the first write to FEATACK fixes the accepted set (R414). -/
def State.csrPutPlate (s : State) (p n : Nat) (v : W64) : State :=
  match n with
  | 0x020 => s.modPlate p fun c => { c with ascope := v.setWidth 3 }
  | 0x022 => { s with preg := { s.preg with sdtbase := v.setWidth 48 } }
  | 0x100 => s.modPlate p fun c => { c with epc := v }
  | 0x106 => s.modPlate p fun c => { c with etvec := v }
  | 0x201 =>
    match s.preg.featack with
    | none => { s with preg := { s.preg with featack := some (v.setWidth 8 &&& s.featcap) } }
    | some _ => s
  | 0x210 => { s with preg := { s.preg with ipend := v.setWidth 7 } }
  | 0x211 => { s with preg := { s.preg with ien := v.setWidth 7 } }
  | 0x218 => { s with preg := { s.preg with rcbroot := v.setWidth 48 } }
  | 0x220 => { s with preg := { s.preg with armed := v.getLsbD 0, useren := v.getLsbD 1, pinen := v.getLsbD 2,
                                            captured := v.getLsbD 3 } }
  | 0x221 => { s with preg := { s.preg with snapword := v.setWidth 8, snapblock := v.extractLsb' 8 12 } }
  | _ =>
    if 0x240 ≤ n ∧ n ≤ 0x24F then
      { s with preg := { s.preg with ridgeown := tput s.preg.ridgeown (n - 0x240) (v.setWidth 13) } }
    else s

/-- Stores the value of a CSR of the executing agent. -/
def State.csrPut (s : State) (n : Nat) (v : W64) : State :=
  match s.cur with
  | .plate p => s.csrPutPlate p n v
  | .aStream h => s.csrPutHart h n v
  | .eStream _ => s

/-- Stores what an operation on a CSR of the executing agent leaves: v as it would be now; VSTART has its own way (R110). -/
def State.csrStore (s : State) (op : CsrOp) (n : Nat) (x v : W64) : State :=
  match s.cur with
  | .aStream h => if n = 0x042 then s.modE h fun e => e.putVstart (vstartOp op x) else s.csrPut n v
  | _ => s.csrPut n v

/-- Is the executing agent a plate core? -/
def Agent.isPlate : Agent → Bool
  | .plate _ => true
  | _ => false

/-- A CSR write of any of the three kinds (R107, R242). -/
def csrWriteOp (i : Instr) (op : CsrOp) (b : RCode) (n : Nat) (s : State) : Outcome State Fault Refusal :=
  gate i s fun s =>
    match csrDeny s.cur n with
    | some c => s.raise c (evalOf i)
    | none => s.aWhen [b] [] fun x s =>
        let v := csrNew op (rwBits s.cur.isPlate n) (w1cBits n) (s.csrGet n) (x.getD 0 0)
        if (n = 0x020 ∨ n = 0x021) ∧ v.extractLsb' 0 3 = 7 ∧ !(s.has .pod) then s.raise .feature (evalOf i)
        else (s.csrStore op n (x.getD 0 0) v).aDone0 [b]

/-- CSRWR (R242). -/
def execCsrwr (b : RCode) (n : BitVec 10) (s : State) : Outcome State Fault Refusal :=
  csrWriteOp (.csrwr b n) .write b n.toNat s

/-- CSRSET (R242). -/
def execCsrset (b : RCode) (n : BitVec 10) (s : State) : Outcome State Fault Refusal :=
  csrWriteOp (.csrset b n) .set b n.toNat s

/-- CSRCLR (R242). -/
def execCsrclr (b : RCode) (n : BitVec 10) (s : State) : Outcome State Fault Refusal :=
  csrWriteOp (.csrclr b n) .clear b n.toNat s

/-- FEATACK (R414): CSRWR to 0x201. -/
def execFeatack (b : RCode) (s : State) : Outcome State Fault Refusal :=
  csrWriteOp (.featack b) .write b 0x201 s

end Sys2Proof.Machine
end

