-- ==== Sys2Proof/Machine/Codec.lean ====
section
/-! DEFINITION. The compression block format (R137..R140): blocks of 128 words, code streams read most significant bit
first, a 16-entry dictionary per block. -/

namespace Sys2Proof.Machine

/-- The bits of bytes, most significant bit of each byte first (R138). -/
def bitsOfBytes (bs : List Byte) : List Bool :=
  bs.flatMap fun b => (List.range 8).map fun i => b.getLsbD (7 - i)

/-- Reads n bits, most significant first; none when the stream has fewer. -/
def takeBits : Nat → List Bool → Nat → Option (Nat × List Bool)
  | 0, l, acc => some (acc, l)
  | n + 1, b :: l, acc => takeBits n l (2 * acc + b2n b)
  | _ + 1, [], _ => none

/-- The dictionary: entries written so far and their contents by position. -/
structure Dict where
  n : Nat
  d : List Nat
  deriving DecidableEq, Repr

def Dict.empty : Dict := { n := 0, d := List.replicate 16 0 }

/-- Writes the next entry (R138). -/
def Dict.push (x : Dict) (w : Nat) : Dict := { n := x.n + 1, d := setAt x.d (x.n % 16) w }

/-- An entry; none for a position never written (R138). -/
def Dict.get (x : Dict) (i : Nat) : Option Nat := if x.n ≤ i then none else x.d[i]?

/-- One word of the stream (R138): the word, the dictionary and the rest; none is a decode error. -/
def decodeWord (x : Dict) (l : List Bool) : Option (Nat × Dict × List Bool) :=
  (takeBits 2 l 0).bind fun (c, l) =>
    match c with
    | 0 => some (0, x, l)
    | 1 => (takeBits 4 l 0).bind fun (i, l) => (x.get i).map fun w => (w, x, l)
    | 2 => (takeBits 4 l 0).bind fun (i, l) => (takeBits 8 l 0).bind fun (v, l) =>
        (x.get i).map fun w => (w / 256 * 256 + v, x.push (w / 256 * 256 + v), l)
    | _ => (takeBits 2 l 0).bind fun (d, l) =>
        match d with
        | 0 => (takeBits 8 l 0).map fun (v, l) => (v, x, l)
        | 1 => (takeBits 4 l 0).bind fun (i, l) => (takeBits 16 l 0).bind fun (v, l) =>
            (x.get i).map fun w => (w / 65536 * 65536 + v, x.push (w / 65536 * 65536 + v), l)
        | 2 => (takeBits 32 l 0).map fun (v, l) => (v, x.push v, l)
        | _ => none

/-- n words of the stream. -/
def decodeWords : Nat → Dict → List Bool → Option (List Nat)
  | 0, _, _ => some []
  | n + 1, x, l => (decodeWord x l).bind fun (w, x, l) => (decodeWords n x l).map (w :: ·)

/-- The bytes of a slot that a decoder reads (R137, R138): those that the header names, or none for a header that is refused. -/
def slotBytes (hdr : Nat) : Nat :=
  let len := fld hdr 0 6
  if fld hdr 6 9 ≠ 0 then 0
  else if hdr.testBit 15 then (if len = 0 then 512 else 0)
  else if 56 < len then 0 else 8 * len

/-- A block's 512 raw bytes from its header and its slot (R137, R138); none is a decode error. -/
def decodeBlock (hdr : Nat) (slot : List Byte) : Option (List Byte) :=
  let raw := hdr.testBit 15
  let len := fld hdr 0 6
  if fld hdr 6 9 ≠ 0 then none
  else if raw then (if len = 0 then some (slot.take 512) else none)
  else if len = 0 ∨ 56 < len then none
  else (decodeWords 128 Dict.empty (bitsOfBytes (slot.take (8 * len)))).map fun ws => ws.flatMap (toBytes 4)

/-- n bits of a value, most significant first. -/
def putBits : Nat → Nat → List Bool
  | 0, _ => []
  | n + 1, v => v.testBit n :: putBits n v

/-- The lowest written position whose entry agrees from bit k up (R139). -/
def Dict.find (x : Dict) (w k : Nat) : Option Nat :=
  firstIdx (min 16 x.n) fun i => (x.d.getD i 0) / 2 ^ k == w / 2 ^ k

/-- The code of one word (R139) and the dictionary after it. -/
def encodeWord (x : Dict) (w : Nat) : List Bool × Dict :=
  if w = 0 then (putBits 2 0, x)
  else match x.find w 0 with
    | some i => (putBits 2 1 ++ putBits 4 i, x)
    | none =>
      if w ≤ 0xFF then (putBits 4 0xC ++ putBits 8 w, x)
      else match x.find w 8 with
        | some i => (putBits 2 2 ++ putBits 4 i ++ putBits 8 (w % 256), x.push w)
        | none => match x.find w 16 with
          | some i => (putBits 4 0xD ++ putBits 4 i ++ putBits 16 (w % 65536), x.push w)
          | none => (putBits 4 0xE ++ putBits 32 w, x.push w)

/-- The code stream of words. -/
def encodeWords : Dict → List Nat → List Bool
  | _, [] => []
  | x, w :: ws => (encodeWord x w).1 ++ encodeWords (encodeWord x w).2 ws

/-- The value of bits, most significant first. -/
def natOfBits : List Bool → Nat → Nat
  | [], acc => acc
  | b :: l, acc => natOfBits l (2 * acc + b2n b)

/-- Bits as bytes; n bytes. -/
def bytesOfBits : Nat → List Bool → List Byte
  | 0, _ => []
  | n + 1, l => BitVec.ofNat 8 (natOfBits (l.take 8) 0) :: bytesOfBits n (l.drop 8)

/-- The 128 words of 512 bytes; missing bytes are 0 (R139). -/
def wordsOfBlock (bs : List Byte) : List Nat := (List.range 128).map fun w => ofBytes ((bs.drop (4 * w)).take 4)

/-- The compressor (R139): header and the bytes of the slot that it writes, the stream padded to 8-byte units. -/
def encodeBlock (bs : List Byte) : Nat × List Byte :=
  let l := encodeWords Dict.empty (wordsOfBlock bs)
  let n := ceilDiv l.length 64
  if 448 < 8 * n then (0x8000, (wordsOfBlock bs).flatMap (toBytes 4))
  else (n, bytesOfBits (8 * n) (l ++ List.replicate (64 * n - l.length) false))

/-- Bytes of a region of n blocks (R137). -/
def regionBytes (n : Nat) : Nat := 512 * n + roundUp (2 * n) 64

end Sys2Proof.Machine
end

