-- ==== Sys2Proof/Machine/Float.lean ====
section
/-! DEFINITION. Number formats: decoding every element format (R69..R78), rounding once (R73, R79..R82), arithmetic on
exact values (R72, R276, R277), and IEEE binary64 for the extrapolation unit (R93). -/

namespace Sys2Proof.Machine

/-- A value: finite m times 2^e with a sign, an infinity, a NaN (signalling or not) or NaR. -/
inductive FVal where
  | fin (neg : Bool) (m : Nat) (e : Int)
  | inf (neg : Bool)
  | nan (signalling : Bool)
  | nar
  deriving DecidableEq, Repr

/-- A binary format: exponent and fraction bits, and whether an all-ones exponent is special. -/
structure FSpec where
  eb : Nat
  fb : Nat
  ieee : Bool
  deriving DecidableEq, Repr

def FSpec.bias (f : FSpec) : Int := (2 ^ (f.eb - 1) : Nat) - 1
/-- Exponent of the least significant bit of a subnormal. -/
def FSpec.qmin (f : FSpec) : Int := 1 - f.bias - f.fb
/-- Bits of an infinity's magnitude. -/
def FSpec.infBits (f : FSpec) : Nat := (2 ^ f.eb - 1) * 2 ^ f.fb
/-- The largest finite magnitude's bits (R71, R74). -/
def FSpec.maxBits (f : FSpec) : Nat :=
  if f.ieee then f.infBits - 1 else if f.fb = 3 then 0x7E else 2 ^ (f.eb + f.fb) - 1
/-- Width of the format. -/
def FSpec.width (f : FSpec) : Nat := 1 + f.eb + f.fb

def spFP32 : FSpec := ⟨8, 23, true⟩
def spFP16 : FSpec := ⟨5, 10, true⟩
def spBF16 : FSpec := ⟨8, 7, true⟩
def spE5M2 : FSpec := ⟨5, 2, true⟩
def spE4M3 : FSpec := ⟨4, 3, false⟩
def spE2M1 : FSpec := ⟨2, 1, false⟩
def spFP64 : FSpec := ⟨11, 52, true⟩

/-- The binary format of a code, if it is one (R69). -/
def fspecOf (fmt : Nat) : Option FSpec :=
  match fmt with
  | 6 => some spFP32
  | 7 => some spFP16
  | 8 => some spBF16
  | 9 => some spE4M3
  | 10 => some spE5M2
  | 11 => some spE2M1
  | _ => none

/-- The canonical NaN of a binary format (R71, R74). -/
def FSpec.cnan (f : FSpec) : Nat := if f.ieee then f.infBits + 2 ^ (f.fb - 1) else 0x7F

/-- Decodes a binary format (R71, R74). -/
def FSpec.decode (f : FSpec) (bits : Nat) : FVal :=
  let neg := bits.testBit (f.eb + f.fb)
  let ex := fld bits f.fb f.eb
  let fr := fld bits 0 f.fb
  if f.ieee && ex == 2 ^ f.eb - 1 then
    if fr = 0 then .inf neg else .nan (!(fr.testBit (f.fb - 1)))
  else if f == spE4M3 && fld bits 0 7 == 0x7F then .nan true
  else if ex = 0 then .fin neg fr f.qmin
  else .fin neg (2 ^ f.fb + fr) (f.qmin + (ex : Int) - 1)

/-- num / den rounded to the nearest number with 12 significant bits, ties to even (R12's helper RNE12), as m 2^e. -/
def rne12 (num den : Nat) : Nat × Int :=
  let sh : Int := 13 + (Nat.log2 den : Int) - (Nat.log2 num : Int)
  let n := if 0 ≤ sh then num * 2 ^ sh.toNat else num
  let d := if 0 ≤ sh then den else den * 2 ^ (-sh).toNat
  let q := n / d
  let st := n % d != 0
  let drop := Nat.log2 q + 1 - 12
  let k := q / 2 ^ drop
  let rem := q % 2 ^ drop
  let half := 2 ^ (drop - 1)
  let up := decide (half < rem) || (rem == half && (st || k % 2 == 1))
  (k + b2n up, (drop : Int) - sh)

/-- Length of the run of bits equal to b from bit i down, in the low bits of v. -/
def runLen (v : Nat) (b : Bool) : Nat → Nat
  | 0 => 0
  | i + 1 => if v.testBit i == b then 1 + runLen v b i else 0

/-- The magnitude of a D8 (n = 7) or D4 (n = 3) magnitude field (R76), as m 2^e; 0 for the zero field. -/
def dMag (n v : Nat) : Nat × Int :=
  if v % 2 ^ n = 0 then (0, 0)
  else
    let one := v.testBit (n - 1)
    let r := runLen v one n
    let w := n - 1 - r
    let f := v % 2 ^ w
    if one then rne12 (10 ^ (r - 1) * (2 ^ w + 9 * f)) (2 ^ w)
    else rne12 (2 ^ w + 9 * f) (10 ^ r * 2 ^ w)

/-- Decodes D8 or D4 (R76). -/
def dDecode (n bits : Nat) : FVal :=
  if bits % 2 ^ n = 0 then (if bits.testBit n then .nar else .fin false 0 0)
  else
    let x := dMag n bits
    .fin (bits.testBit n) x.1 x.2

/-- The exact value of an element (R69). -/
def fmtDecode (fmt bits : Nat) : FVal :=
  match fspecOf fmt with
  | some f => f.decode bits
  | none =>
    if fmt = 12 then dDecode 7 bits
    else if fmt = 13 then dDecode 3 bits
    else
      let w := fmtWidth fmt
      let x : Int := if fmt % 2 = 0 then sext w bits else (bits % 2 ^ w : Nat)
      .fin (decide (x < 0)) x.natAbs 0

/-! Rounding. -/

/-- Rounding modes: 0 RNE, 1 RTZ, 2 RDN, 3 RUP (R79, R85). Does a magnitude k with a remainder go up? -/
def roundUpQ (mode : Nat) (neg : Bool) (k rem half : Nat) (sticky : Bool) : Bool :=
  match mode with
  | 0 => decide (half < rem) || (rem == half && (sticky || k % 2 == 1) && half != 0)
  | 1 => false
  | 2 => neg && (rem != 0 || sticky)
  | _ => !neg && (rem != 0 || sticky)

/-- m 2^e cut to multiples of 2^q and rounded: the multiple, and whether it is inexact. -/
def quantize (mode : Nat) (neg : Bool) (m : Nat) (e q : Int) (sticky : Bool) : Nat × Bool :=
  let sh := q - e
  if sh ≤ 0 then (m * 2 ^ (-sh).toNat, sticky)
  else
    let k := m / 2 ^ sh.toNat
    let rem := m % 2 ^ sh.toNat
    (k + b2n (roundUpQ mode neg k rem (2 ^ (sh.toNat - 1)) sticky), rem != 0 || sticky)

/-- A finite value rounded once into a binary format (R73, R79..R81): the bits and the flags. A tiny inexact result raises UF and NX
(R81), also where a worked row of R82 lists NX alone (DESIGN CHOICE, log 99). sat is a SAT mode; the
sticky bit says that the true magnitude lies above m 2^e by less than one unit, m then holding two bits more than
the format. -/
def FSpec.round (f : FSpec) (mode : Nat) (sat neg : Bool) (m : Nat) (e : Int) (sticky : Bool) : Nat × BitVec 5 :=
  let sign := b2n neg * 2 ^ (f.eb + f.fb)
  if m = 0 then (sign, 0)
  else
    let top := e + (Nat.log2 m : Int)
    let q := max f.qmin (top - f.fb)
    let r := quantize mode neg m e q sticky
    let bits := ((q - f.qmin).toNat) * 2 ^ f.fb + r.1
    if f.maxBits < bits then
      let big := sign + f.maxBits
      let infty := sign + f.infBits
      let out :=
        if sat then big
        else if f.ieee then
          (match mode with
            | 0 => infty
            | 1 => big
            | 2 => if neg then infty else big
            | _ => if neg then big else infty)
        else if f == spE4M3 then f.cnan
        else big
      (out, flOF ||| flNX)
    else
      let emin := 1 - f.bias
      let u := quantize mode neg m e (top - f.fb) sticky
      let tiny := decide (top < emin) && !(decide (top = emin - 1) && u.1 == 2 ^ (f.fb + 1))
      (sign + bits, if r.2 then (if tiny then flUF ||| flNX else flNX) else 0)

/-- Compares m1 2^e1 and m2 2^e2: the two at one exponent. -/
def alignTwo (m1 : Nat) (e1 : Int) (m2 : Nat) (e2 : Int) : Nat × Nat :=
  let e := min e1 e2
  (m1 * 2 ^ (e1 - e).toNat, m2 * 2 ^ (e2 - e).toNat)

/-- Is m1 2^e1 at most m2 2^e2? -/
def leMag (m1 : Nat) (e1 : Int) (m2 : Nat) (e2 : Int) : Bool :=
  let p := alignTwo m1 e1 m2 e2
  decide (p.1 ≤ p.2)

/-- The largest code whose magnitude is at most m 2^e, by bisection over n bits. -/
def dFloor (n : Nat) (m : Nat) (e : Int) : Nat → Nat → Nat
  | 0, c => c
  | b + 1, c =>
    let d := c + 2 ^ b
    let x := dMag n d
    dFloor n m e b (if leMag x.1 x.2 m e then d else c)

/-- A finite value rounded into D8 (n = 7) or D4 (n = 3) among the values themselves (R79..R81). -/
def dRound (n mode : Nat) (sat neg : Bool) (m : Nat) (e : Int) : Nat × BitVec 5 :=
  let code : Nat → Nat := fun c => if c = 0 then 0 else c + b2n neg * 2 ^ n
  let top := 2 ^ n - 1
  let c := dFloor n m e n 0
  let lo := dMag n c
  let hi := dMag n (c + 1)
  let exact := leMag m e lo.1 lo.2
  if m = 0 then (0, 0)
  else if exact then (code c, 0)
  else if c = top then (if sat then code top else 2 ^ n, flOF ||| flNX)
  else
    let a := alignTwo m e lo.1 lo.2
    let b := alignTwo hi.1 hi.2 m e
    let dl := alignTwo (a.1 - a.2) (min e lo.2) (b.1 - b.2) (min hi.2 e)
    let up := match mode with
      | 0 => decide (dl.2 < dl.1) || (dl.1 == dl.2 && c % 2 == 1)
      | 1 => false
      | 2 => neg
      | _ => !neg
    (code (c + b2n up), if c = 0 then flUF ||| flNX else flNX)

/-- An integer clamped to an integer format (R82): the bits and whether it was out of range. -/
def intClamp (fmt : Nat) (x : Int) : Nat × Bool :=
  let w := fmtWidth fmt
  let lo : Int := if fmt % 2 = 0 then -((2 ^ (w - 1) : Nat) : Int) else 0
  let hi : Int := if fmt % 2 = 0 then ((2 ^ (w - 1) : Nat) : Int) - 1 else ((2 ^ w : Nat) : Int) - 1
  if x < lo then (wrap w lo, true) else if hi < x then (wrap w hi, true) else (wrap w x, false)

/-- The ends of an integer format. -/
def intEnd (fmt : Nat) (neg : Bool) : Nat :=
  (intClamp fmt (if neg then -((2 ^ 40 : Nat) : Int) else ((2 ^ 40 : Nat) : Int))).1

/-- Conversion of a value to a format (R79..R82); modes 4 and 5 are RNE.SAT and RTZ.SAT. -/
def convert (x : FVal) (tgt mode : Nat) : Nat × BitVec 5 :=
  let sat := decide (4 ≤ mode)
  let md := mode % 4
  let nanFlag : BitVec 5 := match x with
    | .nan true => flNV
    | .nar => flNV
    | _ => 0
  match fspecOf tgt with
  | some f =>
    match x with
    | .fin neg m e => f.round md sat neg m e false
    | .inf neg =>
      let sign := b2n neg * 2 ^ (f.eb + f.fb)
      if f.ieee then (sign + (if sat then f.maxBits else f.infBits), 0)
      else if sat then (sign + f.maxBits, 0)
      else if f == spE4M3 then (f.cnan, flNV) else (sign + f.maxBits, flNV)
    | _ => if f == spE2M1 then (0, flNV) else (f.cnan, nanFlag)
  | none =>
    if tgt = 12 ∨ tgt = 13 then
      let n := if tgt = 12 then 7 else 3
      match x with
      | .fin neg m e => dRound n md sat neg m e
      | .inf neg => if sat then (2 ^ n - 1 + b2n neg * 2 ^ n, 0) else (2 ^ n, flNV)
      | _ => (2 ^ n, nanFlag)
    else
      match x with
      | .fin neg m e =>
        let r := quantize md neg m e 0 false
        let v : Int := if neg then -(r.1 : Int) else r.1
        let c := intClamp tgt v
        (c.1, if c.2 then flNV else if r.2 then flNX else 0)
      | .inf neg => (intEnd tgt neg, flNV)
      | _ => (0, flNV)

/-! Arithmetic. -/

/-- Is the value a NaN of either kind? -/
def FVal.isNan : FVal → Bool
  | .nan _ => true
  | .nar => true
  | _ => false

/-- Is it signalling (R72)? -/
def FVal.isSig : FVal → Bool
  | .nan b => b
  | .nar => true
  | _ => false

/-- The value with its sign changed. -/
def FVal.neg : FVal → FVal
  | .fin n m e => .fin (!n) m e
  | .inf n => .inf (!n)
  | x => x

/-- The signed integer mantissa of a finite value at an exponent. -/
def signedAt (neg : Bool) (m : Nat) (e q : Int) : Int :=
  let v : Int := (m * 2 ^ (e - q).toNat : Nat)
  if neg then -v else v

/-- The exact sum of two finite values; the sign of a zero sum is R73's, in a reduction too: of -0 and +0 it is -0 in RDN
(DEDUCED, log 91). -/
def addFin (frm : Nat) (n1 : Bool) (m1 : Nat) (e1 : Int) (n2 : Bool) (m2 : Nat) (e2 : Int) : Bool × Nat × Int :=
  let q := min e1 e2
  let s := signedAt n1 m1 e1 q + signedAt n2 m2 e2 q
  if s = 0 then (if n1 == n2 then n1 else frm == 2, 0, q) else (decide (s < 0), s.natAbs, q)

/-- NaN result with the flag of signalling sources (R72). -/
def nanOut (f : FSpec) (inv : Bool) (l : List FVal) : Nat × BitVec 5 :=
  (f.cnan, if inv || l.any (·.isSig) then flNV else 0)

/-- Infinity with a sign. -/
def infOut (f : FSpec) (neg : Bool) : Nat × BitVec 5 := (b2n neg * 2 ^ (f.eb + f.fb) + f.infBits, 0)

/-- a + b rounded once (R73, R276). -/
def fpAdd (f : FSpec) (frm : Nat) (a b : FVal) : Nat × BitVec 5 :=
  if a.isNan || b.isNan then nanOut f false [a, b]
  else match a, b with
    | .inf x, .inf y => if x == y then infOut f x else nanOut f true []
    | .inf x, _ => infOut f x
    | _, .inf y => infOut f y
    | .fin n1 m1 e1, .fin n2 m2 e2 =>
      let s := addFin frm n1 m1 e1 n2 m2 e2
      f.round frm false s.1 s.2.1 s.2.2 false
    | _, _ => nanOut f false []

/-- The exact product of two values that are not NaN; none for zero times infinity. -/
def mulExact (a b : FVal) : Option FVal :=
  match a, b with
  | .fin n1 m1 e1, .fin n2 m2 e2 => some (.fin (n1 != n2) (m1 * m2) (e1 + e2))
  | .inf x, .inf y => some (.inf (x != y))
  | .inf x, .fin n m _ => if m = 0 then none else some (.inf (x != n))
  | .fin n m _, .inf y => if m = 0 then none else some (.inf (n != y))
  | _, _ => none

/-- a b rounded once (R276). -/
def fpMul (f : FSpec) (frm : Nat) (a b : FVal) : Nat × BitVec 5 :=
  if a.isNan || b.isNan then nanOut f false [a, b]
  else match mulExact a b with
    | none => nanOut f true []
    | some (.fin n m e) => f.round frm false n m e false
    | some (.inf n) => infOut f n
    | some _ => nanOut f false []

/-- a b + c rounded once (R277); a zero times infinity is invalid even with a quiet NaN accumulator. -/
def fpFma (f : FSpec) (frm : Nat) (a b c : FVal) : Nat × BitVec 5 :=
  if a.isNan || b.isNan then nanOut f false [a, b, c]
  else match mulExact a b with
    | none => nanOut f true []
    | some p => if c.isNan then nanOut f false [c] else fpAdd f frm p c

/-- Bits of a natural number. -/
def bitLen (m : Nat) : Nat := if m = 0 then 0 else Nat.log2 m + 1

/-- a / b rounded once (R276). -/
def fpDiv (f : FSpec) (frm : Nat) (a b : FVal) : Nat × BitVec 5 :=
  if a.isNan || b.isNan then nanOut f false [a, b]
  else match a, b with
    | .inf _, .inf _ => nanOut f true []
    | .inf x, .fin n _ _ => infOut f (x != n)
    | .fin n _ _, .inf y => (b2n (n != y) * 2 ^ (f.eb + f.fb), 0)
    | .fin n1 m1 e1, .fin n2 m2 e2 =>
      if m2 = 0 then
        if m1 = 0 then nanOut f true [] else ((infOut f (n1 != n2)).1, flDZ)
      else
        let sh := f.fb + 4 + bitLen m2 - bitLen m1
        let q := m1 * 2 ^ sh / m2
        f.round frm false (n1 != n2) q (e1 - e2 - sh) (m1 * 2 ^ sh % m2 != 0)
    | _, _ => nanOut f false []

/-- The integer square root of a number below 4^n, bit by bit. -/
def isqrt (v : Nat) : Nat → Nat → Nat
  | 0, r => r
  | n + 1, r => isqrt v n (if (r + 2 ^ n) * (r + 2 ^ n) ≤ v then r + 2 ^ n else r)

/-- The square root rounded once (R276). -/
def fpSqrt (f : FSpec) (frm : Nat) (a : FVal) : Nat × BitVec 5 :=
  match a with
  | .fin neg m e =>
    if m = 0 then (b2n neg * 2 ^ (f.eb + f.fb), 0)
    else if neg then nanOut f true []
    else
      let sh0 := 2 * (f.fb + 4) - bitLen m
      let sh := if (e - sh0) % 2 = 0 then sh0 else sh0 + 1
      let v := m * 2 ^ sh
      let r := isqrt v (f.fb + 6) 0
      f.round frm false false r ((e - sh) / 2) (r * r != v)
  | .inf neg => if neg then nanOut f true [] else infOut f false
  | x => nanOut f false [x]

/-- Order of two numbers: is a below b? −0 orders below +0 when signed zeros count (R72). -/
def fpLt (zeros : Bool) (a b : FVal) : Bool :=
  match a, b with
  | .inf x, .inf y => x && !y
  | .inf x, _ => x
  | _, .inf y => !y
  | .fin n1 m1 e1, .fin n2 m2 e2 =>
    if m1 = 0 ∧ m2 = 0 then zeros && n1 && !n2
    else
      let q := min e1 e2
      decide (signedAt n1 m1 e1 q < signedAt n2 m2 e2 q)
  | _, _ => false

/-- Equality of two numbers. -/
def fpEq (a b : FVal) : Bool := !(a.isNan) && !(b.isNan) && !(fpLt false a b) && !(fpLt false b a)

/-- minimumNumber and maximumNumber (R72) on bit patterns. -/
def fpMinMax (f : FSpec) (isMax : Bool) (x y : Nat) : Nat × BitVec 5 :=
  let a := f.decode x
  let b := f.decode y
  let fl : BitVec 5 := if a.isSig || b.isSig then flNV else 0
  if a.isNan && b.isNan then (f.cnan, fl)
  else if a.isNan then (y, fl)
  else if b.isNan then (x, fl)
  else if isMax then (if fpLt true a b then y else x, 0)
  else (if fpLt true b a then y else x, 0)

/-- b's magnitude with c's sign (R276). -/
def fpSgn (f : FSpec) (x y : Nat) : Nat × BitVec 5 :=
  let a := f.decode x
  if a.isNan then (f.cnan, if a.isSig then flNV else 0)
  else (x % 2 ^ (f.eb + f.fb) + b2n (y.testBit (f.eb + f.fb)) * 2 ^ (f.eb + f.fb), 0)

/-- A signed exact value as an FVal. -/
def ofSigned (x : Int) (e : Int) : FVal := .fin (decide (x < 0)) x.natAbs e

/-! Sums of R89..R92. -/

/-- Exact sum of finite values, as mantissa and exponent. -/
def sumFin : List FVal → Int × Int
  | [] => (0, 0)
  | x :: t =>
    let r := sumFin t
    match x with
    | .fin n m e =>
      if m = 0 then r
      else if r.1 = 0 then (signedAt n m e e, e)
      else
        let q := min e r.2
        (signedAt n m e q + r.1 * (2 ^ (r.2 - q).toNat : Nat), q)
    | _ => r

/-- The scale of a UE8M0 code (R75), as an exponent. -/
def scaleExp (c : Nat) : Int := (c : Int) - 127

/-- One block of R89 or R90: products of a row and a column, the two scale codes, and the FP32 accumulator. -/
def blockAcc (scaled : Bool) (a b : List FVal) (sa sb : Nat) (acc : Nat) : Nat × BitVec 5 :=
  let prods := (a.zip b).map fun p => (p, mulExact p.1 p.2)
  let bad := prods.any fun p => p.1.1.isNan || p.1.2.isNan || p.2.isNone
  let vals := prods.filterMap (·.2)
  let pinf := vals.any fun v => v == .inf false
  let ninf := vals.any fun v => v == .inf true
  let av := spFP32.decode acc
  if bad || (scaled && (sa == 255 || sb == 255)) || (pinf && ninf) then (spFP32.cnan, flNV)
  else if pinf then fpAdd spFP32 0 av (.inf false)
  else if ninf then fpAdd spFP32 0 av (.inf true)
  else
    let s := sumFin vals
    let e := if scaled then s.2 + scaleExp sa + scaleExp sb else s.2
    fpAdd spFP32 0 av (if s.1 = 0 then .fin false 0 0 else ofSigned s.1 e)

/-- The blocks of 32 of a row and a column, in increasing order (R89). Lists shorter than a block are padded with
zero products by their lengths. -/
def blocksAcc (scaled : Bool) (sas sbs : List Nat) : Nat → Nat → List FVal → List FVal → Nat → BitVec 5 → Nat × BitVec 5
  | 0, _, _, _, acc, fl => (acc, fl)
  | n + 1, q, a, b, acc, fl =>
    let r := blockAcc scaled (a.take 32) (b.take 32) (sas.getD q 127) (sbs.getD q 127) acc
    blocksAcc scaled sas sbs n (q + 1) (a.drop 32) (b.drop 32) r.1 (fl ||| r.2)

/-! IEEE binary64 with RNE (R93). -/

def f64 (b : W64) : FVal := spFP64.decode b.toNat
def f64Add (a b : W64) : W64 := w64 (fpAdd spFP64 0 (f64 a) (f64 b)).1
def f64Sub (a b : W64) : W64 := w64 (fpAdd spFP64 0 (f64 a) (f64 b).neg).1
def f64Mul (a b : W64) : W64 := w64 (fpMul spFP64 0 (f64 a) (f64 b)).1
def f64Div (a b : W64) : W64 := w64 (fpDiv spFP64 0 (f64 a) (f64 b)).1
def f64Fma (a b c : W64) : W64 := w64 (fpFma spFP64 0 (f64 a) (f64 b) (f64 c)).1
def f64Abs (a : W64) : W64 := a &&& w64 (2 ^ 63 - 1)
/-- |a| at most |b|, false with a NaN. -/
def f64Le (a b : W64) : Bool := !((f64 a).isNan) && !((f64 b).isNan) && !(fpLt false (f64 b) (f64 a))
/-- An FP32 pattern converted exactly to FP64 (R93). -/
def f32to64 (x : Nat) : W64 :=
  match spFP32.decode x with
  | .fin n m e => w64 (spFP64.round 0 false n m e false).1
  | .inf n => w64 (infOut spFP64 n).1
  | _ => w64 spFP64.cnan
/-- An FP64 value rounded once to FP32 (R93). -/
def f64to32 (x : W64) : Nat × BitVec 5 :=
  match f64 x with
  | .fin n m e => spFP32.round 0 false n m e false
  | .inf n => infOut spFP32 n
  | _ => (spFP32.cnan, 0)

end Sys2Proof.Machine
end

