-- ==== Sys2Proof/Machine/Tensor.lean ====
section
/-! DEFINITION. Tensors as instructions and engines name them (R173..R178, R377): the bay's descriptor cache, the
redirected entry of a spliced step, and where each element and scale of a tile lies. -/

namespace Sys2Proof.Machine

/-- A tensor as a use finds it: its descriptor, and for the redirected entry of a spliced step the one tile it
accepts and the cell of the splice buffer (R377). -/
structure Tens where
  td : BitVec 1024
  buf : Option (Nat × Nat)
  deriving DecidableEq, Repr

/-- A descriptor without its ELIDED bit. -/
def tdClearElided (t : BitVec 1024) : BitVec 1024 := t &&& ~~~(BitVec.ofNat 1024 (2 ^ 13))

/-- The bay's cached copy of an entry of the context (R178). -/
def State.tdCached (s : State) (h tid : Nat) : Option (BitVec 1024) :=
  ((tgetD s.tdc (bayOf h) []).find? fun e => e.asid == (s.hart h).ctx.asid && e.tid == tid).map (·.td)

/-- Puts an entry into the bay's cache. -/
def State.tdFill (s : State) (h tid : Nat) (td : BitVec 1024) : State :=
  let a := (s.hart h).ctx.asid
  let new : List TdEntry := { asid := a, tid := tid, td := td } ::
    (tgetD s.tdc (bayOf h) []).filter fun e => !(e.asid == a && e.tid == tid)
  { s with tdc := tput s.tdc (bayOf h) new }

/-- Address of an entry of the context's table (R173). -/
def State.tdAddr (s : State) (h tid : Nat) : Nat := (s.hart h).ctx.tdtbase + 128 * tid

/-- The entry as the bay's cache holds it, read from memory at its first use (R173, R178). A table that cannot be read
traps with the cause and the address. -/
def State.tdRead (s : State) (h tid : Nat) : Except (Cause × Nat) (BitVec 1024) × State :=
  match s.tdCached h tid with
  | some t => (.ok t, s)
  | none =>
    match s.ctlRead (s.hart h).ctx.ptbase (s.tdAddr h tid) 128 with
    | (.error e, s) => (.error e, s)
    | (.ok bs, s) =>
      let t := BitVec.ofNat 1024 (ofBytes bs)
      (.ok t, s.tdFill h tid t)

/-- Tile number and first cell of the splice buffer of a hart's step (R377). -/
def State.spliceBuf (s : State) (h : Nat) : Option (Nat × Nat) :=
  (s.hart h).r.redirect.map fun q => (q.2.1, scratchKey (bayOf h) ((s.hart h).r.alloc + q.2.2.1))

/-- The tensor an identifier names for a hart (R178, R377). -/
def State.tens (s : State) (h tid : Nat) : Except (Cause × Nat) Tens × State :=
  match (s.hart h).r.redirect with
  | some (t, _, _, td) =>
    if t = tid then (.ok { td := td, buf := s.spliceBuf h }, s)
    else
      match s.tdRead h tid with
      | (.error e, s) => (.error e, s)
      | (.ok t, s) => (.ok { td := t, buf := none }, s)
  | none =>
    match s.tdRead h tid with
    | (.error e, s) => (.error e, s)
    | (.ok t, s) => (.ok { td := t, buf := none }, s)

/-- What a use of an entry traps with (R177, R267, R340). -/
def useCause (u : Nat) : Option Cause :=
  match u with
  | 0 => none
  | 1 => some .bounds
  | 2 => some .feature
  | _ => some .elided

/-- A tensor checked for use: a trap carries the identifier in EVAL (R177), but for FEATURE, which carries the word. -/
def State.tensUse (s : State) (h tid : Nat) (word : W64) : Except TrapInfo Tens × State :=
  match s.tens h tid with
  | (.error e, s) => (.error (TrapInfo.of e.1 (w64 e.2)), s)
  | (.ok t, s) =>
    match useCause (s.tdUse t.td) with
    | some .feature => (.error (TrapInfo.of .feature word), s)
    | some c => (.error (TrapInfo.of c (w64 tid)), s)
    | none => (.ok t, s)

/-- Where bytes of a tensor lie: at a virtual address, or in the splice buffer. -/
inductive Loc where
  | va (a : Int)
  | cell (k : Nat)
  deriving DecidableEq, Repr

/-- Does the tensor accept this tile number (R176, R377)? -/
def Tens.tileOk (t : Tens) (n : Nat) : Bool :=
  match t.buf with
  | some (tile, _) => n == tile
  | none => decide (n < tdTileCount t.td)

/-- Is position j of tile n an element (R176)? Every position of a redirected tile is one (R377). -/
def Tens.inside (t : Tens) (n j : Nat) : Bool :=
  match t.buf with
  | some _ => true
  | none => tdInside t.td (tdTileElem t.td n j)

/-- Bits of one element. -/
def Tens.w (t : Tens) : Nat := fmtWidth (tdFmt t.td)

/-- Where position j of tile n lies, and the bit in its first byte (R141, R175, R377). -/
def Tens.elem (t : Tens) (n j : Nat) : Loc × Nat :=
  match t.buf with
  | some (_, k) => (.cell (k + j * t.w / 8), j * t.w % 8)
  | none =>
    let e := tdTileElem t.td n j
    (.va (tdElemAddr t.td e), e.getD (tdRank t.td - 1) 0 * t.w % 8)

/-- Where the scale of position j of tile n lies, when the tensor has scales (R75, R175). -/
def Tens.scale (t : Tens) (n j : Nat) : Option Nat :=
  if fmtScaled (tdFmt t.td) ∧ tdScale t.td ≠ 0 then some (tdScaleAddr t.td (tdTileElem t.td n j)) else none

/-- The same for a position inside the tensor; of a redirected tile too, the positions outside it have none (R301, R377). -/
def Tens.scaleIn (t : Tens) (n j : Nat) : Option Nat :=
  if tdInside t.td (tdTileElem t.td n j) then t.scale n j else none

/-- A place some bytes further on. -/
def Loc.plus (l : Loc) (i : Nat) : Loc :=
  match l with
  | .va a => .va (a + (i : Int))
  | .cell k => .cell (k + i)

end Sys2Proof.Machine
end

