-- ==== Sys2Proof/Machine/Engine.lean ====
section
/-! DEFINITION. The copy engines: the checks of a launch (R323), the shapes of the kinds (R324), what a chunk reads and
writes (R325, R326), and an engine's memory accesses with their pauses and failures (R319). -/

namespace Sys2Proof.Machine

/-! Memory accesses of an engine. -/

/-- On whose behalf an engine works: the launching hart, or none for a COPY command; its cache, context and region. -/
structure EngCtx where
  h : Option Nat
  tlb : Nat
  asid : Nat
  ptbase : Nat
  rcb : Nat
  deriving DecidableEq, Repr

/-- How an engine's access ends badly (R319): the address waits for its page, or the transfer fails with a status. -/
inductive EngErr where
  | pause (va acc : Nat)
  | fail (st : Nat)
  deriving DecidableEq, Repr

/-- The context of a transfer served by a translation cache. -/
def State.engCtx (s : State) (r : XRef) (tlb : Nat) : EngCtx :=
  match r with
  | .slot h _ _ =>
    let c := (s.hart h).ctx
    { h := some h, tlb := tlb, asid := c.asid, ptbase := c.ptbase, rcb := c.rcb }
  | .cmd id =>
    let rcb := ((s.cmd? id).map (·.rcb)).getD 0
    let c := s.ctxOf rcb
    { h := none, tlb := tlb, asid := c.asid, ptbase := c.ptbase, rcb := rcb }
  | .parked _ _ _ _ => { h := none, tlb := tlb, asid := 0, ptbase := 0, rcb := 0 }

/-- Where an engine's byte lies (R117, R131, R319). A missing page waits; a target outside the pod fails PFAULT. -/
def State.engXlat (s : State) (c : EngCtx) (k : Acc) (a : Int) : Except EngErr Nat × State :=
  if a < 0 then (.error (.fail 3), s)
  else
    let va := a.toNat
    let place := match c.h with
      | some h => s.placeH h va 1
      | none => placeNone va 1
    match place with
    | .bounds => (.error (.fail 3), s)
    | .scratch key => (.ok key, s)
    | .paged =>
      match s.xlat c.tlb c.asid c.ptbase false k va with
      | (.ok p, s) => (.ok p.key, s)
      | (.error .pfault, s) =>
        if (tlbFind (tgetD s.tlbs c.tlb []) c.asid va).isSome then (.error (.fail 1), s)
        else (.error (.pause va (if k.writes then 1 else 0)), s)
      | (.error .uncorr, s) => (.error (.fail 4), s)
      | (.error .pprot, s) => (.error (.fail 2), s)
      | (.error _, s) => (.error (.fail 3), s)

/-- One byte at a cell (R128, R407). -/
def State.engByte (s : State) (k : Nat) : Except EngErr Byte × State :=
  if s.cutKey k then (.error (.fail 4), s)
  else if readBad s k 1 then (.error (.fail 4), s.countUncorr) else (.ok (memGet s.mem k), s)

/-- Bytes read one after another; each place is an address or a cell of a splice buffer. -/
def State.engReads (s : State) (c : EngCtx) : List Loc → Except EngErr (List Byte) × State
  | [] => (.ok [], s)
  | l :: t =>
    match (match l with | .va a => s.engXlat c .read a | .cell k => (.ok k, s)) with
    | (.error e, s) => (.error e, s)
    | (.ok k, s) =>
      match s.engByte k with
      | (.error e, s) => (.error e, s)
      | (.ok b, s) =>
        match s.engReads c t with
        | (.error e, s) => (.error e, s)
        | (.ok bs, s) => (.ok (b :: bs), s)

/-- The cells of bytes to be written. -/
def State.engCells (s : State) (c : EngCtx) : List Loc → Except EngErr (List Nat) × State
  | [] => (.ok [], s)
  | l :: t =>
    match (match l with | .va a => s.engXlat c .write a | .cell k => (.ok k, s)) with
    | (.error e, s) => (.error e, s)
    | (.ok k, s) =>
      match s.engCells c t with
      | (.error e, s) => (.error e, s)
      | (.ok ks, s) => (.ok (k :: ks), s)

/-- A value of its own for a place that the spec leaves open. -/
def State.fresh (s : State) : W64 × State := (Config.freeWord s.free, { s with free := s.free + 1 })

/-! Shapes. -/

/-- The fields of the copy shadows (R108). -/
structure Geo where
  kind : Nat
  es : Nat
  g : Nat
  sfmt : Nat
  dfmt : Nat
  rnd : Nat
  planes : Nat
  rows : Nat
  inner : Nat
  src : Nat
  dst : Nat
  sps : Int
  srs : Int
  dps : Int
  drs : Int
  before : Nat
  after : Nat
  top : Nat
  bottom : Nat
  value : Nat
  deriving DecidableEq, Repr

/-- The shadows' fields (R108). -/
def Geo.of (c : Shadows) : Geo :=
  let o := c.opt.toNat
  let p := c.pad.toNat
  let sh := c.shape.toNat
  { kind := fld o 0 3, es := 2 ^ fld o 4 2, g := fld o 8 3, sfmt := fld o 12 4, dfmt := fld o 16 4, rnd := fld o 20 3,
    planes := fld sh 44 20, rows := fld sh 24 20, inner := fld sh 0 24,
    src := fld c.src.toNat 0 48, dst := fld c.dst.toNat 0 48,
    sps := sext 32 (fld c.sstr.toNat 32 32), srs := sext 32 (fld c.sstr.toNat 0 32),
    dps := sext 32 (fld c.dstr.toNat 32 32), drs := sext 32 (fld c.dstr.toNat 0 32),
    before := fld p 32 8, after := fld p 40 8, top := fld p 48 8, bottom := fld p 56 8, value := fld p 0 32 }

/-- rows_d and OB of a shape (R324); none when the shape is rejected. -/
def Geo.out (q : Geo) : Option (Nat × Nat) :=
  if q.planes = 0 ∨ q.rows = 0 ∨ q.inner = 0 ∨ 5 < q.rnd then none
  else match q.kind with
    | 0 => some (q.rows, q.inner)
    | 1 => if q.inner % q.es = 0 then some (q.inner / q.es, q.rows * q.es) else none
    | 2 =>
      let ws := fmtWidth q.sfmt
      let wd := fmtWidth q.dfmt
      if 13 < q.sfmt ∨ 13 < q.dfmt ∨ q.inner * 8 % ws ≠ 0 ∨ q.inner * 8 / ws * wd % 8 ≠ 0 then none
      else some (q.rows, q.inner * 8 / ws * wd / 8)
    | 3 => if q.planes = 1 ∧ q.rows = 1 ∧ q.inner % 512 = 0 then some (1, q.inner) else none
    | 4 => if q.planes = 1 ∧ q.rows = 1 ∧ q.inner % 4 = 0 then some (1, regionBytes (ceilDiv q.inner 512)) else none
    | 5 => if q.inner % q.es = 0 then some (q.top + q.rows + q.bottom, q.inner + (q.before + q.after) * q.es) else none
    | _ => none

/-- The chunk size (R108). -/
def Geo.chunk (q : Geo) : Nat := 512 * 2 ^ q.g

/-- The inclusive address range that a shape and its strides reach (R323). -/
def boxOf (base : Nat) (planes rows width : Nat) (ps rs : Int) : Int × Int :=
  let p := ((planes - 1 : Nat) : Int) * ps
  let r := ((rows - 1 : Nat) : Int) * rs
  ((base : Int) + min 0 p + min 0 r, (base : Int) + max 0 p + max 0 r + (width - 1 : Nat))

/-- Bounding boxes of source and destination (R323, R324). EXPAND and COMPRESS ignore strides. -/
def Geo.srcBox (q : Geo) : Int × Int :=
  match q.kind with
  | 3 => boxOf q.src 1 1 (regionBytes (q.inner / 512)) 0 0
  | 4 => boxOf q.src 1 1 q.inner 0 0
  | _ => boxOf q.src q.planes q.rows q.inner q.sps q.srs
def Geo.dstBox (q : Geo) (rowsd ob : Nat) : Int × Int :=
  match q.kind with
  | 3 | 4 => boxOf q.dst 1 1 ob 0 0
  | _ => boxOf q.dst q.planes rowsd ob q.dps q.drs

/-- Does a box lie wholly where the launching hart, or a command, may reach (R117, R160)? -/
def State.boxOk (s : State) (h : Option Nat) (b : Int × Int) : Bool :=
  if b.1 < 0 ∨ b.2 < b.1 then false
  else
    let lo := b.1.toNat
    let hi := b.2.toNat
    if hi < 2 ^ 47 then true
    else match h with
      | none => false
      | some h =>
        if lo < winBase then s.placeH h lo (hi + 1 - lo) != .bounds
        else
          let b0 := (lo - winBase) / 2 ^ 23
          let b1 := (hi - winBase) / 2 ^ 23
          decide (b1 < 8) && (List.range 8).all fun b =>
            if b < b0 ∨ b1 < b then true
            else
              let from_ := max lo (winBase + b * 2 ^ 23)
              let to_ := min hi (winBase + b * 2 ^ 23 + (2 ^ 23 - 1))
              s.placeH h from_ (to_ + 1 - from_) != .bounds

/-- What the launch checks before a slot is wanted (R323): FEATURE, or a refusal code. -/
inductive LaunchErr where
  | feature
  | code (c : Nat)
  deriving DecidableEq, Repr

/-- Checks 1 to 3 of R323; the answer is the chunk count. bar is whether CPBAR is acceptable. -/
def State.launchCheck (s : State) (h : Option Nat) (q : Geo) (bar : Bool) : Except LaunchErr Nat :=
  let feat := ((q.kind = 3 ∨ q.kind = 4) ∧ !(s.has .compress)) ∨
    (q.kind = 2 ∧ !(s.fmtAccepted q.sfmt && s.fmtAccepted q.dfmt))
  if feat then .error .feature
  else match q.out with
    | none => .error (.code 3)
    | some (rowsd, ob) =>
      let n := ceilDiv (q.planes * rowsd * ob) q.chunk
      let sb := q.srcBox
      let db := q.dstBox rowsd ob
      if 64 < n ∨ !(s.boxOk h sb) ∨ !(s.boxOk h db) ∨ !bar then .error (.code 3)
      else if 1 ≤ q.kind ∧ q.kind ≤ 4 ∧ sb.1 ≤ db.2 ∧ db.1 ≤ sb.2 then .error (.code 2)
      else .ok n

/-! Chunks. -/

/-- A chunk's work: where its bytes go, what it reads, what it reads beside that once it has those bytes, and the bytes to write with
the flags raised; no bytes is a decode error. The words given are free values for bytes that the spec leaves open. -/
structure Plan where
  dst : List Loc
  need : List Loc
  more : List Byte → List Loc
  make : List Byte → W64 → Option (List Byte × BitVec 5)

/-- Plane, row and byte of a linear destination index (R325). -/
def splitIdx (rowsd ob d : Nat) : Nat × Nat × Nat := (d / ob / rowsd, d / ob % rowsd, d % ob)

/-- Source and destination addresses (R324). -/
def Geo.srcAt (q : Geo) (p r x : Nat) : Int := (q.src : Int) + p * q.sps + r * q.srs + x
def Geo.dstAt (q : Geo) (p r x : Nat) : Int :=
  if q.kind = 3 ∨ q.kind = 4 then (q.dst : Int) + x else (q.dst : Int) + p * q.dps + r * q.drs + x

/-- The source byte of a destination byte of PLAIN, TRANSPOSE and PAD, or the pad byte (R324). -/
def Geo.srcByte (q : Geo) (p r x : Nat) : Loc ⊕ Byte :=
  match q.kind with
  | 1 => .inl (.va (q.srcAt p (x / q.es) (r * q.es + x % q.es)))
  | 5 =>
    let x0 := q.before * q.es
    if q.top ≤ r ∧ r < q.top + q.rows ∧ x0 ≤ x ∧ x < x0 + q.inner then .inl (.va (q.srcAt p (r - q.top) (x - x0)))
    else .inr (byteAt q.value (x % q.es))
  | _ => .inl (.va (q.srcAt p r x))

/-- Fills the bytes read into their places between constant bytes. -/
def weave : List (Loc ⊕ Byte) → List Byte → List Byte
  | [], _ => []
  | .inr b :: t, bs => b :: weave t bs
  | .inl _ :: t, bs => bs.headD 0 :: weave t bs.tail

/-- One destination byte of CONVERT from its source bytes: the elements it holds, converted (R82, R324). x is the byte in
the row, off the source byte of its first element. -/
def convByte (q : Geo) (x : Nat) (src : List Byte) : Byte × BitVec 5 :=
  let ws := fmtWidth q.sfmt
  let wd := fmtWidth q.dfmt
  let j0 := 8 * x / wd
  let j1 := (8 * x + 7) / wd
  let off := j0 * ws / 8
  let v := ofBytes src
  let one : Nat → Nat × BitVec 5 := fun j => convert (fmtDecode q.sfmt (fld v (j * ws - 8 * off) ws)) q.dfmt q.rnd
  let rs := (span j0 (j1 + 1 - j0)).map fun j => (j, one j)
  let bits := rs.foldl (fun acc r => acc + r.2.1 * 2 ^ (r.1 * wd - j0 * wd)) 0
  (BitVec.ofNat 8 (bits / 2 ^ (8 * x - j0 * wd)), rs.foldl (fun a r => a ||| r.2.2) 0)

/-- The source bytes that byte x of a converted row needs. -/
def convNeed (q : Geo) (x : Nat) : List Nat :=
  let ws := fmtWidth q.sfmt
  let wd := fmtWidth q.dfmt
  let lo := 8 * x / wd * ws / 8
  let hi := (((8 * x + 7) / wd + 1) * ws - 1) / 8
  span lo (hi + 1 - lo)

/-- Cuts a list into pieces of these lengths. -/
def pieceList {α : Type} : List Nat → List α → List (List α)
  | [], _ => []
  | n :: t, l => l.take n :: pieceList t (l.drop n)

/-- The halfwords in a run of bytes. -/
def pairsOf : List Byte → List Nat
  | x :: y :: t => ofBytes [x, y] :: pairsOf t
  | _ => []

/-- The chunk's work for each kind (R324, R325). EXPAND reads the headers of its blocks, and then of each slot what its header says
(R138). -/
def Geo.plan (q : Geo) (rowsd ob k : Nat) : Plan :=
  let total := q.planes * rowsd * ob
  let ds := span (k * q.chunk) (min total ((k + 1) * q.chunk) - k * q.chunk)
  let at_ : Nat → Loc := fun d => let i := splitIdx rowsd ob d; .va (q.dstAt i.1 i.2.1 i.2.2)
  match q.kind with
  | 2 =>
    let needs := ds.map fun d => let i := splitIdx rowsd ob d; (convNeed q i.2.2).map fun x => Loc.va (q.srcAt i.1 i.2.1 x)
    { dst := ds.map at_
      need := needs.flatten
      more := fun _ => []
      make := fun bs _ =>
        let rs := (ds.zip (pieceList (needs.map List.length) bs)).map fun p => convByte q (p.1 % ob) p.2
        some (rs.map (·.1), rs.foldl (fun a r => a ||| r.2) 0) }
  | 3 =>
    let n := q.inner / 512
    let b0 := k * q.chunk / 512
    let blocks := span b0 (ceilDiv (k * q.chunk + ds.length) 512 - b0)
    { dst := ds.map at_
      need := blocks.flatMap fun b => (span (512 * n + 2 * b) 2).map fun (x : Nat) => Loc.va ((q.src : Int) + x)
      more := fun hs => ((blocks.zip (pairsOf hs)).flatMap fun p =>
        (span (512 * p.1) (slotBytes p.2)).map fun (x : Nat) => Loc.va ((q.src : Int) + x))
      make := fun bs _ =>
        let hs := pairsOf (bs.take (2 * blocks.length))
        let raws := (hs.zip (pieceList (hs.map slotBytes) (bs.drop (2 * blocks.length)))).map fun p => decodeBlock p.1 p.2
        if raws.any Option.isNone then none
        else
          let all := raws.flatMap fun r => r.getD []
          some ((all.drop (k * q.chunk - 512 * b0)).take ds.length, 0) }
  | 4 =>
    let n := ceilDiv q.inner 512
    let need := (List.range q.inner).map fun (x : Nat) => Loc.va ((q.src : Int) + x)
    { dst := ds.map at_
      need := need
      more := fun _ => []
      make := fun bs w =>
        let encs := (List.range n).map fun b => encodeBlock ((bs.drop (512 * b)).take 512)
        let byte : Nat → Byte := fun x =>
          if x < 512 * n then ((encs.getD (x / 512) (0, [])).2).getD (x % 512) (byteAt w.toNat (x % 8))
          else if x - 512 * n < 2 * n then byteAt ((encs.getD ((x - 512 * n) / 2) (0, [])).1) (x % 2)
          else byteAt w.toNat (x % 8)
        some (ds.map byte, 0) }
  | _ =>
    let ss := ds.map fun d => let i := splitIdx rowsd ob d; q.srcByte i.1 i.2.1 i.2.2
    { dst := ds.map at_
      need := ss.filterMap fun x => match x with | .inl l => some l | .inr _ => none
      more := fun _ => []
      make := fun bs _ => some (weave ss bs, 0) }

/-- Block i of a BGATHER (R326): the tile's elements in row-major order, VALUE's low bits where there is none. -/
def gatherPlan (t : Tens) (q : Geo) (coords : List (List Int)) (oob : BitVec 64) (i : Nat) : Plan :=
  let w := t.w
  let c := (coords.getD i []).map Int.toNat
  let n := ravel (tdGrid t.td) c
  let cnt := tdTileElems t.td
  let bytes := ceilDiv (cnt * w) 8
  let els := (List.range cnt).map fun j =>
    if !(oob.getLsbD i) && t.inside n j then some (t.elem n j) else none
  let eb := max 1 (w / 8)
  let cells : Option (Loc × Nat) → List Loc := fun e =>
    match e with
    | none => []
    | some (.va a, _) => (List.range eb).map fun (k : Nat) => Loc.va (a + k)
    | some (.cell k, _) => (List.range eb).map fun j => Loc.cell (k + j)
  { dst := (List.range bytes).map fun x => Loc.va ((q.dst + i * q.chunk + x : Nat) : Int)
    need := els.flatMap cells
    more := fun _ => []
    make := fun bs free =>
      let ps := pieceList (els.map fun e => (cells e).length) bs
      let vals := (els.zip ps).map fun p => match p.1 with
        | none => q.value % 2 ^ w
        | some (_, bit) => fld (ofBytes p.2) bit w
      let v := packElems w vals
      let pad := if cnt * w % 8 = 0 then 0 else free.toNat % 2 ^ (8 - cnt * w % 8) * 2 ^ (cnt * w)
      some (toBytes bytes (v + pad), 0) }

/-- The tensor of a transfer: the splice buffer as the hart's allocation has it now, where that stands for it (R377). -/
def State.engTens (s : State) (r : XRef) (td : BitVec 1024) (buf : Bool) : Tens :=
  match r, buf with
  | .slot h _ _, true => ⟨td, s.spliceBuf h⟩
  | _, _ => ⟨td, none⟩

/-- The work of chunk k of a transfer. -/
def State.xferPlan (s : State) (r : XRef) (x : Xfer) (k : Nat) : Option Plan :=
  let q := Geo.of x.sh
  match x.job with
  | .copy => q.out.map fun o => q.plan o.1 o.2 k
  | .gather td buf coords oob => some (gatherPlan (s.engTens r td buf) q coords oob k)
  | _ => none

/-- Region of a transfer. -/
def State.xferRcb (s : State) : XRef → Nat
  | .slot h _ _ => (s.hart h).ctx.rcb
  | .cmd id => ((s.cmd? id).map (·.rcb)).getD 0
  | .parked _ _ _ _ => 0

/-- The age of a region in µs (R368): the time since it began to wait, or a step of it was last placed. -/
def State.age (s : State) (rcb : Nat) : Nat :=
  match tget s.ages rcb with
  | some t => (s.cycle - t) / 1300
  | none => 0

/-- Effective, age-raised priority of a region (R368). -/
def State.agedPrio (s : State) (rcb : Nat) : Nat := min 15 (s.effPrio rcb + s.age rcb / s.effAgeq rcb)

/-- The lowest chunk of a transfer that can start: not started, not landed (R322, R325). -/
def Xfer.nextChunk (x : Xfer) : Option Nat :=
  if x.state ≠ .active ∨ x.cancelled ∨ x.sill then none
  else firstIdx x.chunks fun k => !(x.started.getLsbD k)

/-- The command an engine serves next: highest age-raised priority, then oldest (R167). -/
def State.engNext (s : State) (t : Nat) : Option (XRef × Xfer × Nat) :=
  let cands := (tgetD s.copyq t []).filterMap fun r =>
    (s.xfer? r).bind fun x => x.nextChunk.map fun k => (r, x, k)
  argMin (fun c => 15 - s.agedPrio (s.xferRcb c.1)) cands

/-- A chunk waits for a page (R319, R394). The identity fields of a command's notice are left open by R394. -/
def State.pauseChunk (s : State) (r : XRef) (x : Xfer) (k va acc : Nat) : State :=
  let s := s.setXfer r { x with started := x.started ||| BitVec.ofNat 64 (2 ^ k), paused := x.paused ++ [(k, va)] }
  match r with
  | .slot h i g =>
    let c := (s.hart h).ctx
    s.postNotice (noticeOf 1 Cause.pfault.code acc c.asid va c.rcb (i + 256 * g.toNat) 0 (s.hartId h))
  | .cmd id =>
    let rcb := ((s.cmd? id).map (·.rcb)).getD 0
    let c := s.ctxOf rcb
    let f := s.fresh
    f.2.postNotice (noticeOf 1 Cause.pfault.code acc c.asid va rcb f.1.toNat 0 (f.1.toNat / 2 ^ 32))
  | .parked _ _ _ _ => s

/-- The bytes that a chunk reads. -/
def State.planBytes (s : State) (c : EngCtx) (p : Plan) : Except EngErr (List Byte) × State :=
  match s.engReads c p.need with
  | (.error e, s) => (.error e, s)
  | (.ok bs, s) =>
    match s.engReads c (p.more bs) with
    | (.error e, s) => (.error e, s)
    | (.ok more, s) => (.ok (bs ++ more), s)

/-- The engine starts chunk k of a transfer: it reads and translates, and the writes are then in flight (R325). -/
def State.startChunk (s : State) (r : XRef) (x : Xfer) (k tlb : Nat) : State :=
  match s.xferPlan r x k with
  | none => s
  | some p =>
    let c := s.engCtx r tlb
    let err : EngErr → State → State := fun e s =>
      match e with
      | .pause va acc => s.pauseChunk r x k va acc
      | .fail st => s.failXfer r st
    match s.planBytes c p with
    | (.error e, s) => err e s
    | (.ok bs, s) =>
      let f := s.fresh
      let s := f.2
      match p.make bs f.1 with
      | none => err (.fail 5) s
      | some (out, fl) =>
        match s.engCells c p.dst with
        | (.error e, s) => err e s
        | (.ok ks, s) =>
          let fl : Flight := { chunk := k, writes := ks.zip out, bytes := out.length, flags := fl }
          s.setXfer r { x with started := x.started ||| BitVec.ofNat 64 (2 ^ k), flight := x.flight ++ [fl] }

/-- CHUNK_START (R167): the engine named by the event starts its next chunk. -/
def execChunkStart (s : State) : Host.Outcome State Fault Refusal :=
  .next (match s.engNext s.ev.n with
    | some (r, x, k) => s.startChunk r x k (tlbCopy s.ev.n)
    | none => s)

/-- The chunk an event names: in the queue of engine n, entry n1, flight n2. -/
def State.flightOf (s : State) : Option (XRef × Flight) :=
  ((tgetD s.copyq s.ev.n [])[s.ev.n1]?).bind fun r =>
    (s.xfer? r).bind fun x => (x.flight[s.ev.n2]?).map fun f => (r, f)

/-- CHUNK_LANDING (R325): the chunk's writes are performed, its bit is set and its barrier credited; the last chunk
ends the transfer. -/
def execChunkLanding (s : State) : Host.Outcome State Fault Refusal :=
  .next (match s.flightOf with
    | some (r, f) =>
      match s.landOne r f with
      | (true, s) => s.doneXfer r
      | (false, s) => s.failXfer r 4
    | none => s)

end Sys2Proof.Machine
end

