-- ==== Sys2Proof/Machine/Copy.lean ====
section
/-! DEFINITION. CSRRD with its launch, and the transfer instructions of major 0x13: CPLAUNCH, CPWAIT, CPTEST, CPCANCEL
and BGATHER (R242, R318..R326). -/

namespace Sys2Proof.Machine

open Host (Outcome)

/-- A refusal's code in the form of a TID (R323). -/
def refusal (code : Nat) : W64 := w64 (2 ^ 63 + code * 2 ^ 56)

/-- The TID of a slot and a generation (R320). -/
def tidOf (slot : Nat) (gen : BitVec 8) : W64 := w64 (slot + 256 * gen.toNat)

/-- A slot of a hart. -/
def State.slot (s : State) (h i : Nat) : Xfer := tgetD (s.hart h).r.slots i Xfer.zero

/-- The lowest FREE slot (R204). -/
def State.freeSlot (s : State) (h : Nat) : Option Nat := firstIdx 32 fun i => (s.slot h i).state == .free

/-- The bits of the chunks that a transfer does not have (R204). -/
def presetBits (chunks : Nat) : BitVec 64 := BitVec.ofNat 64 (2 ^ 64 - 2 ^ min 64 chunks)

/-- The state of a slot just taken (R204, R318). -/
def Xfer.launch (old : Xfer) (chunks launched : Nat) (pc : W64) (sh : Shadows) (sill : Bool) (job : Job) : Xfer :=
  { Xfer.zero with state := .active, gen := old.gen + 1, bitmap := presetBits chunks, launchPc := pc,
                   launched := launched, sh := sh, job := job, chunks := chunks, sill := sill }

/-- A launch takes slot i of hart h (R204); the answer is the transfer's reference. -/
def State.takeSlot (s : State) (h i chunks : Nat) (sill : Bool) (job : Job) : XRef × State :=
  let v := s.hart h
  let x := (s.slot h i).launch chunks s.nextId v.a.pc v.a.cp sill job
  (.slot h i x.gen,
   ({ s with nextId := s.nextId + 1 } : State).modR h fun r => { r with slots := tput r.slots i x })

/-- The TID a reference stands for. -/
def XRef.tid : XRef → W64
  | .slot _ i g => tidOf i g
  | .cmd _ => 0
  | .parked _ _ i g => tidOf i g

/-- Does a copy engine hold 64 commands (R167)? -/
def State.copyFull (s : State) (t : Nat) : Bool := decide (64 ≤ (tgetD s.copyq t []).length)

/-- Puts a transfer into a copy engine's queue. -/
def State.copyPut (s : State) (t : Nat) (r : XRef) : State :=
  { s with copyq := tput s.copyq t (tgetD s.copyq t [] ++ [r]) }

/-- Is CPBAR acceptable to a hart (R323)? -/
def State.barOk (s : State) (h : Nat) (bar : W64) : Bool :=
  !(bar.getLsbD 0) || decide (16 * fld bar.toNat 4 19 + 16 ≤ (s.hart h).r.bound)

/-- The read of CPLAUNCH (R108, R323): a trap, a refusal, a wait for the engine's queue, or a launch with its release. -/
def State.launch (s : State) (h : Nat) (a : RCode) (word : W64) : State :=
  let cp := (s.hart h).a.cp
  match s.launchCheck (some h) (Geo.of cp) (s.barOk h cp.bar) with
  | .error .feature => s.raise .feature word
  | .error (.code c) =>
    let s := if c = 2 then s.capture (s.hart h).id.capture .overlap else s
    s.aDone [] a (refusal c)
  | .ok n =>
    match s.freeSlot h with
    | none => s.aDone [] a (refusal 1)
    | some i =>
      if s.copyFull (trussOf h) then s.standAt .stall
      else
        let x := s.takeSlot h i n false .copy
        ((x.2.copyPut (trussOf h) x.1).releaseBy s.cur 5).aDone [] a x.1.tid

/-- CPLAUNCH (R323): CSRRD of 0x08F. -/
def execCplaunch (a : RCode) (s : State) : Outcome State Fault Refusal :=
  gate (.cplaunch a) s fun s =>
    match csrDeny s.cur 0x08F with
    | some c => s.raise c (evalOf (.cplaunch a))
    | none => s.aWhen [] [a] fun _ s => s.launch s.curHart a (evalOf (.cplaunch a))

/-- CSRRD (R242). -/
def execCsrrd (a : RCode) (n : BitVec 10) (s : State) : Outcome State Fault Refusal :=
  gate (.csrrd a n) s fun s =>
    match csrDeny s.cur n.toNat with
    | some c => s.raise c (evalOf (.csrrd a n))
    | none => s.aWhen [] [a] fun _ s =>
        if n = 0x08F then s.launch s.curHart a (evalOf (.csrrd a n)) else s.aDone [] a (s.csrGet n.toNat)

/-- The slot of a TID that names a live transfer; none when it is refused, stale or FREE (R320). -/
def State.live (s : State) (h : Nat) (b : W64) : Option Nat :=
  let i := fld b.toNat 0 5
  let x := s.slot h i
  if b.getLsbD 63 ∨ fld b.toNat 8 8 ≠ x.gen.toNat ∨ x.state = .free then none else some i

/-- Covers bits of a slot (R318). -/
def State.cover (s : State) (h i : Nat) (m : W64) : State :=
  let x := s.slot h i
  s.setXfer (.slot h i x.gen) (Xfer.settle { x with covered := x.covered ||| m })

/-- Is the transfer over (R318)? -/
def Xfer.ended (x : Xfer) : Bool := x.state == .done || x.state == .failed

/-- A failed transfer is reported: its failure is no longer pending (R42). -/
def State.reported (s : State) (h : Nat) (x : Xfer) : State :=
  s.modR h fun r => { r with pendFail := tdel r.pendFail x.launched }

/-- CPWAIT (R320). -/
def execCpwait (b c : RCode) (s : State) : Outcome State Fault Refusal :=
  withA (.cpwait b c) [b, c] [] s fun v s =>
    let tid := v.getD 0 0
    let m := v.getD 1 0
    let h := s.curHart
    match s.live h tid with
    | none => s.aDone0 [b, c]
    | some i =>
      let x := s.slot h i
      if x.bitmap &&& m = m ∨ x.state ≠ .active then
        if x.state = .failed ∧ m &&& ~~~x.bitmap ≠ 0 then
          ((s.cover h i m).reported h x).trap s.cur
            { TrapInfo.of .cperr 0 with elaunch := x.launchPc, etid := tid }
        else ((s.cover h i m).acquireBy s.cur 5).aDone0 [b, c]
      else s.standAt .cpwait

/-- The code of a slot's state (R193, R321). -/
def XState.code : XState → Nat
  | .free => 0 | .active => 1 | .done => 2 | .failed => 3

/-- The status word of a slot (R321). -/
def Xfer.statusWord (x : Xfer) : W64 :=
  w64 (x.state.code + x.gen.toNat * 2 ^ 8 + x.status.toNat * 2 ^ 16 + b2n x.sill * 2 ^ 24 + x.flags.toNat * 2 ^ 25)

/-- CPTEST (R321). -/
def execCptest (a b c : RCode) (s : State) : Outcome State Fault Refusal :=
  withA (.cptest a b c) [b] [a] s fun v s =>
    let h := s.curHart
    match s.live h (v.getD 0 0) with
    | none => s.aDone [b] a (if c = 0 then BitVec.allOnes 64 else 0)
    | some i =>
      let x := s.slot h i
      let r := if c = 0 then x.bitmap else x.statusWord
      (if x.ended then s.cover h i (BitVec.allOnes 64) else s).aDone [b] a r

/-- CPCANCEL (R322): it stands until a cancelled subscription has ended. -/
def execCpcancel (b : RCode) (s : State) : Outcome State Fault Refusal :=
  withA (.cpcancel b) [b] [] s fun v s =>
    let h := s.curHart
    match s.live h (v.getD 0 0) with
    | none => s.aDone0 [b]
    | some i =>
      let s := s.cancelXfer (.slot h i (s.slot h i).gen) 6
      if (s.slot h i).state = .active then s.standAt .stall else s.aDone0 [b]

/-- The coordinates in a list of dwords, two for each block (R326). -/
def gatherCoords (rank : Nat) : List W64 → List (List Int)
  | x :: y :: t =>
    (List.range rank).map (fun k => sext 16 (if k < 4 then fld x.toNat (16 * k) 16 else fld y.toNat (16 * (k - 4)) 16))
      :: gatherCoords rank t
  | _ => []

/-- Is a coordinate outside the tensor's grid (R326)? -/
def coordOut (td : BitVec 1024) (c : List Int) : Bool :=
  (c.zip (tdGrid td)).any fun p => decide (p.1 < 0) || decide ((p.2 : Int) ≤ p.1)

/-- The oob dword of a list of coordinates (R326). -/
def gatherOob (td : BitVec 1024) (cs : List (List Int)) : BitVec 64 :=
  BitVec.ofNat 64 (((List.range cs.length).filter fun i => coordOut td (cs.getD i [])).foldl (fun a i => a + 2 ^ i) 0)

/-- The tile number outside the one tile of a redirected entry that a list names first (R377). -/
def Tens.badTile (t : Tens) (cs : List (List Int)) : Option Nat :=
  ((cs.filter fun c => !(coordOut t.td c)).map fun c => ravel (tdGrid t.td) (c.map Int.toNat)).find? fun n => !(t.tileOk n)

/-- BGATHER after its checks of the tensor (R326): the list is read, then a refusal, a wait or a launch. -/
def State.gather (s : State) (h : Nat) (a b : RCode) (x : W64) (t : Tens) : State :=
  let l := fld x.toNat 0 48
  let n := fld x.toNat 56 6 + 1
  let cp := (s.hart h).a.cp
  let q := Geo.of cp
  if fld x.toNat 62 2 ≠ 0 ∨ fld x.toNat 48 8 ≠ 0 then s.aDone [b] a (refusal 3)
  else match s.aLoads s.cur (l + 8) (2 * n) with
    | (.error e, s) => s.raiseAcc e.1 (w64 e.2) 0
    | (.ok ds, s) =>
      match s.aLoad s.cur l 8 with
      | (.error c, s) => s.raiseAcc c (w64 l) 0
      | (.ok _, s) =>
        let cs := gatherCoords (tdRank t.td) ds
        match t.badTile cs with
        | some k => s.raise .bounds (w64 k)
        | none =>
          let bound := (s.hart h).r.bound
          if tdLayout t.td ≠ 0 ∨ q.chunk < tdTileBytes t.td ∨ q.dst < ownBase ∨ ownBase + bound < q.dst + n * q.chunk
              ∨ !(s.barOk h cp.bar) then s.aDone [b] a (refusal 3)
          else match s.freeSlot h with
            | none => s.aDone [b] a (refusal 1)
            | some i =>
              if s.copyFull (trussOf h) then s.standAt .stall
              else
                let oob := gatherOob t.td cs
                match s.aStore s.cur l 8 oob.toNat with
                | (some c, s) => s.raiseAcc c (w64 l) 1
                | (none, s) =>
                  let r := s.takeSlot h i n false (.gather t.td t.buf.isSome cs oob)
                  ((r.2.copyPut (trussOf h) r.1).releaseBy s.cur 5).aDone [b] a r.1.tid

/-- BGATHER (R326). -/
def execBgather (a b t : RCode) (s : State) : Outcome State Fault Refusal :=
  withA (.bgather a b t) [b] [a] s fun v s =>
    let h := s.curHart
    match s.tensUse h t.toNat (evalOf (.bgather a b t)) with
    | (.error e, s) => s.trap s.cur e
    | (.ok x, s) => s.gather h a b (v.getD 0 0) x

end Sys2Proof.Machine
end

