-- ==== Sys2Proof/Machine/Ridge.lean ====
section
/-! DEFINITION. Agent identifiers (R252, R253), the ridge registers, their cached copies and the kill test (R257..R264),
with the events that bring a forwarded update and move a cached copy on. -/

namespace Sys2Proof.Machine

open Host (Outcome)

/-! Identifiers. -/

/-- The highest position field in which two identifiers differ, as a level code (R253). -/
def scopeBase (b c : Nat) : Nat :=
  if fld b 12 6 ≠ fld c 12 6 then 7
  else if b.testBit 18 || c.testBit 18 then 6
  else if fld b 10 2 ≠ fld c 10 2 then 6
  else if fld b 9 1 ≠ fld c 9 1 then 5
  else if fld b 8 1 ≠ fld c 8 1 then 4
  else if fld b 6 2 ≠ fld c 6 2 then 3
  else if fld b 3 3 ≠ fld c 3 3 then 2
  else if fld b 0 3 ≠ fld c 0 3 then 1
  else 0

/-- The level code of the lowest scope enclosing two agents (R253). -/
def scopeOf (b c : W64) : Nat :=
  let x := b.toNat
  let y := c.toNat
  let l := scopeBase x y
  let l := if fld x 19 2 = 1 ∨ fld y 19 2 = 1 then max l 2 else l
  if fld x 19 2 = 2 ∨ fld y 19 2 = 2 then max l 4 else l

/-- SCOPEOF (R253). -/
def execScopeof (a b c : RCode) (s : State) : Outcome State Fault Refusal :=
  withA (.scopeof a b c) [b, c] [a] s fun v s => s.aDone [b, c] a (w64 (scopeOf (v.getD 0 0) (v.getD 1 0)))

/-! Ridges. -/

/-- A ridge register. -/
def State.ridge (s : State) (n : Nat) : Ridge := tgetD s.ridges n Ridge.zero

/-- Does the context of hart h own ridge n (R113)? -/
def State.ownsRidge (s : State) (h n : Nat) : Bool :=
  let o := (tgetD s.preg.ridgeown n 0).toNat
  o.testBit 12 && o % 4096 == (s.hart h).ctx.asid

/-- The checks of R258 on a ridge number. -/
def State.ridgeCheck (s : State) (n : Nat) : Option Cause :=
  if 15 < n then some .bounds
  else match s.cur.hart? with
    | some h => if s.ownsRidge h n then none else some .pprot
    | none => none

/-- Staleness of a scope in clk (R24, R262). -/
def State.staleClk (s : State) (level : Nat) : Nat := ceilDiv (fld (s.record.cost.getD level 0).toNat 48 16 * 10 * 13) 10

/-- Must bay X hold this value by now (R262)? Its hart 0 stands for the bay in SCOPEOF (DESIGN CHOICE, log 105). -/
def State.mustSee (s : State) (bay : Nat) (v : RidgeVal) : Bool :=
  decide (v.at_ + s.staleClk (scopeOf v.by_ (w64 (s.hartId (bay * 8)))) ≤ s.cycle)

/-- The place in a ridge's history that a bay's cached copy holds: what it has taken, or what the bound forces. -/
def State.copyIdx (s : State) (bay n : Nat) : Nat :=
  let l := (s.ridge n).hist
  let have_ := l.length - 1 - min (tgetD s.seen (bay * 16 + n) 0) (l.length - 1)
  match firstIdx l.length fun i => match l[i]? with | some v => s.mustSee bay v | none => false with
  | some i => min have_ i
  | none => have_

/-- The cached copy of a ridge in a bay (R104, R262): its key. -/
def State.copyKey (s : State) (bay n : Nat) : W64 :=
  match (s.ridge n).hist[s.copyIdx bay n]? with
  | some v => v.key
  | none => (s.ridge n).key

/-- The kill test of a key at a bay (R263). -/
def State.killTest (s : State) (bay n : Nat) (key : W64) : Bool := !(s.ridge n).max && !(key.slt (s.copyKey bay n))

/-- An update that wins (R260) is the ridge's newest value. -/
def State.ridgePut (s : State) (n : Nat) (key tag by_ : W64) : State :=
  let r := s.ridge n
  { s with ridges := tput s.ridges n { r with key := key, tag := tag, hist := ⟨key, tag, s.cycle, by_⟩ :: r.hist } }

/-- Is (key, tag) better than the ridge's (R260)? -/
def Ridge.better (r : Ridge) (key tag : W64) : Bool :=
  (if r.max then r.key.slt key else key.slt r.key) || (key == r.key && tag.ult r.tag)

/-- An update by an agent (R260): the ridge takes it when it is better. -/
def State.ridgeUpdate (s : State) (n : Nat) (key tag by_ : W64) : State :=
  if (s.ridge n).better key tag then s.ridgePut n key tag by_ else s

/-- A ridge instruction's number, behind the checks of R258. -/
def withRidge (n : W64) (s : State) (f : Nat → State) : State :=
  match s.ridgeCheck n.toNat with
  | some c => s.raise c n
  | none => f n.toNat

/-- RIRD (R259): the acquire at PKG or POD is one at TRUSS or wider (R124). -/
def execRird (a b : RCode) (s : State) : Outcome State Fault Refusal :=
  withA (.rird a b) [b] [a] s fun v s => withRidge (v.getD 0 0) s fun n =>
    (s.acquireBy s.cur 5).aDone [b] a (s.ridge n).key

/-- RITAG (R259). -/
def execRitag (a b : RCode) (s : State) : Outcome State Fault Refusal :=
  withA (.ritag a b) [b] [a] s fun v s => withRidge (v.getD 0 0) s fun n =>
    (s.acquireBy s.cur 5).aDone [b] a (s.ridge n).tag

/-- RIMIN (R259, R260): the release is made whether or not the update wins; sources in pop order b, a, c. -/
def execRimin (a b c : RCode) (s : State) : Outcome State Fault Refusal :=
  withA (.rimin a b c) [b, a, c] [] s fun v s => withRidge (v.getD 1 0) s fun n =>
    if (s.ridge n).max then s.raise .illop (evalOf (.rimin a b c))
    else ((s.releaseBy s.cur 5).ridgeUpdate n (v.getD 0 0) (v.getD 2 0) (w64 (s.agentId s.cur))).aDone0 [b, a, c]

/-- RIMAX (R259, R260). -/
def execRimax (a b c : RCode) (s : State) : Outcome State Fault Refusal :=
  withA (.rimax a b c) [b, a, c] [] s fun v s => withRidge (v.getD 1 0) s fun n =>
    if !(s.ridge n).max then s.raise .illop (evalOf (.rimax a b c))
    else ((s.releaseBy s.cur 5).ridgeUpdate n (v.getD 0 0) (v.getD 2 0) (w64 (s.agentId s.cur))).aDone0 [b, a, c]

/-- The ridge after an RIRESET by an agent (R261): every cached copy holds the new value. -/
def State.ridgeReset (s : State) (n : Nat) (key : W64) (max wide : Bool) (epoch : Nat) (by_ : W64) : State :=
  let tag := BitVec.allOnes 64
  { s with
    ridges := tput s.ridges n
      { key := key, tag := tag, max := max, wide := wide, epoch := epoch, hist := [⟨key, tag, s.cycle, by_⟩] }
    seen := s.seen.filter fun p => p.1 % 16 != n }

/-- RIRESET (R261). -/
def execRireset (a b c : RCode) (s : State) : Outcome State Fault Refusal :=
  withA (.rireset a b c) [b, a, c] [] s fun v s => withRidge (v.getD 1 0) s fun n =>
    let x := v.getD 2 0
    if x.getLsbD 1 && !(s.has .pod) then s.raise .feature (evalOf (.rireset a b c))
    else ((s.releaseBy s.cur 5).ridgeReset n (v.getD 0 0) (x.getLsbD 0) (x.getLsbD 1)
      ((s.ridge n).epoch + b2n (x.getLsbD 1)) (w64 (s.agentId s.cur))).aDone0 [b, a, c]

/-- KILLCK (R264): sources b key, c ridge. A kill ends the step. -/
def execKillck (b c : RCode) (s : State) : Outcome State Fault Refusal :=
  withA (.killck b c) [b, c] [] s fun v s => withRidge (v.getD 1 0) s fun n =>
    let h := s.curHart
    let s' := s.aDone0 [b, c]
    if s.killTest (bayOf h) n (v.getD 0 0) then s'.endStep h .killed else s'

/-- RIDGE_FORWARD (R260, R261): what agent n2 of another package did to ridge n at epoch n1 arrives at this package's replica: an
update to key w and tag w1, or, where n3 is 1 or 2, a reset to key w as a MIN or a MAX ridge. An update of an older epoch is
discarded, and one of a newer epoch arrives only after the reset that began it (log 74). -/
def execRidgeForward (s : State) : Outcome State Fault Refusal :=
  let r := s.ridge s.ev.n
  .next (if 15 < s.ev.n then s
    else if s.ev.n3 = 0 then
      if r.wide ∧ r.epoch = s.ev.n1 then s.ridgeUpdate s.ev.n s.ev.w s.ev.w1 (w64 s.ev.n2) else s
    else if !r.wide ∨ r.epoch < s.ev.n1 then
      s.ridgeReset s.ev.n s.ev.w (s.ev.n3 == 2) true s.ev.n1 (w64 s.ev.n2)
    else s)

/-- RIDGE_COPY_UPDATE (R262): the cached copy of ridge n1 in bay n takes the ridge's next value. -/
def execRidgeCopyUpdate (s : State) : Outcome State Fault Refusal :=
  let i := s.copyIdx s.ev.n s.ev.n1
  let len := (s.ridge s.ev.n1).hist.length
  .next (if s.ev.n < 512 ∧ s.ev.n1 ≤ 15 ∧ 0 < i then
      { s with seen := tput s.seen (s.ev.n * 16 + s.ev.n1) (len - i) }
    else s)

end Sys2Proof.Machine
end

