-- ==== Sys2Proof/Machine/Rq.lean ====
section
/-! DEFINITION. Remote enqueue and task pools: REMQ, REMQA and PPUSH (R161..R166, R331..R333), the delivery of a
record, steals and the LENT timeout (R163, R378..R381). A shard stands in State.shards; what the bytes of its storage at
SHARDBASE hold (R188) no rule gives: a change of the shard leaves free values in them (log 18). -/

namespace Sys2Proof.Machine

open Host (Outcome)

/-! Records and pools. -/

/-- KEY, DEPTH and SEQ of a task record (R161). -/
def recKey (r : BitVec 512) : W64 := r.extractLsb' 0 64
def recDepth (r : BitVec 512) : Nat := recFld r 8 48 16
def recSeq (r : BitVec 512) : Nat := recFld r 8 0 48

/-- A record with ORIGIN and SERIAL written (R161). -/
def recStamp (r : BitVec 512) (origin : Nat) (serial : BitVec 36) : BitVec 512 :=
  BitVec.ofNat 512 (setFld r.toNat 64 48 (origin % 4096 * 2 ^ 36 + serial.toNat))

/-- Address of the pool descriptor of a region, 0 without one (R182). -/
def State.poolDesc (s : State) (rcb : Nat) : Nat := s.rcbFld rcb 0x60 6 42 * 64

/-- The pool of a region: descriptor address and CAP; none without one (R188). A CAP out of range is no pool. -/
def State.poolOf (s : State) (rcb : Nat) : Option (Nat × Nat) :=
  let d := s.poolDesc rcb
  let cap := fld (s.ctlNat (s.ctxOf rcb).ptbase d 8) 0 5
  if d = 0 ∨ cap < 4 ∨ 20 < cap then none else some (d, cap)

def Shard.zero : Shard := { serial := 0, entries := [], probed := [], stealing := false, asleep := false }

/-- A shard of a region's pool. -/
def State.shard (s : State) (rcb t : Nat) : Shard := tgetD s.shards (shardKey rcb t) Shard.zero

def State.setShard (s : State) (rcb t : Nat) (x : Shard) : State :=
  { s with shards := tput s.shards (shardKey rcb t) x }

/-- Bytes of a shard's storage (R162, R188). -/
def shardBytes (cap : Nat) : Nat := roundUp (65 * 2 ^ cap + 64) 4096

/-- n dwords that the spec leaves open. -/
def freeDws (seed n : Nat) : List Byte := (List.range n).flatMap fun i => toBytes 8 (Config.freeWord (seed + i)).toNat

/-- The state after the device has looked at the pool descriptor of a region: a word of it that cannot be corrected counts (R398). -/
def State.poolSeen (s : State) (rcb : Nat) : State :=
  if s.poolDesc rcb = 0 then s else s.ctlSeen (s.ctxOf rcb).ptbase (s.poolDesc rcb) 16

/-- What the device finds there that it cannot correct. -/
def State.poolErr (s : State) (rcb : Nat) : Option (Cause × Nat) :=
  if s.poolDesc rcb = 0 then none
  else match (s.ctlRead (s.ctxOf rcb).ptbase (s.poolDesc rcb) 16).1 with
    | .error (.uncorr, va) => some (.uncorr, va)
    | _ => none

/-- The storage of a shard after a change, written by the device: the bytes that its header, its entries and their metadata may
take hold free values (R162, R188, R378; log 18). -/
def State.shardTouch (s : State) (rcb t : Nat) : State :=
  match s.poolOf rcb with
  | none => s
  | some (desc, cap) =>
    let s := s.poolSeen rcb
    let pt := (s.ctxOf rcb).ptbase
    let base := fld (s.ctlNat pt (desc + 8) 8) 12 36 * 4096
    let n := min (shardBytes cap / 8) (16 + 9 * (s.shard rcb t).entries.length)
    let s := (s.ctlWriteAs pt true (base + t * shardBytes cap) (freeDws s.free n)).2
    { s with free := s.free + n }

/-- A shard of the pool accepts a record: the shards that wait for one probe again (R380). -/
def State.accept (s : State) (rcb t : Nat) (x : Shard) : State :=
  let s := s.setShard rcb t x
  let l : Tab Shard := s.shards.map fun p => if p.1 / 64 = rcb then (p.1, { p.2 with asleep := false }) else p
  ({ s with shards := l } : State).shardTouch rcb t

/-- Adds 1 to a count of a pool descriptor (R188, R206); a count that cannot be read stays. -/
def State.poolCount (s : State) (rcb desc off : Nat) : State :=
  let pt := (s.ctxOf rcb).ptbase
  match s.ctlRead pt (desc + off) 8 with
  | (.error _, s) => s
  | (.ok bs, s) => s.ctlWriteD pt (desc + off) (toBytes 8 ((ofBytes bs + 1) % 2 ^ 64))

/-- Offsets of the counts (R188). -/
def cntLost : Nat := 0x10
def cntKillPush : Nat := 0x18
def cntKillDeq : Nat := 0x20
def cntSteals : Nat := 0x28

/-- Does entry x go before entry y (R162): smaller KEY, then larger DEPTH, then smaller SEQ? -/
def PEntry.before (x y : PEntry) : Bool :=
  if (recKey x.rec_).slt (recKey y.rec_) then true
  else if (recKey y.rec_).slt (recKey x.rec_) then false
  else if recDepth y.rec_ < recDepth x.rec_ then true
  else if recDepth x.rec_ < recDepth y.rec_ then false
  else decide (recSeq x.rec_ < recSeq y.rec_)

/-- The place of the best QUEUED entry (R162), counted from i. -/
def bestFrom : Nat → List PEntry → Option (Nat × PEntry)
  | _, [] => none
  | i, e :: t =>
    match bestFrom (i + 1) t with
    | none => if e.lent then none else some (i, e)
    | some b => if e.lent then some b else if b.2.before e then some b else some (i, e)

def Shard.best (x : Shard) : Option (Nat × PEntry) := bestFrom 0 x.entries

/-- A push from a step into shard t (R161..R163): FULL when it holds 2^CAP entries, else the record is QUEUED with its
ORIGIN and SERIAL. The answer is the status. -/
def State.pushRec (s : State) (rcb t cap : Nat) (r : BitVec 512) (kill : Bool) (ridge : Nat) : Nat × State :=
  let x := s.shard rcb t
  if 2 ^ cap ≤ x.entries.length then (2, s)
  else
    let e : PEntry := { rec_ := recStamp r (s.pkgNum * 64 + t) x.serial, kill := kill, ridge := ridge, lent := false,
                        lentAt := 0 }
    (0, s.accept rcb t { x with serial := x.serial + 1, entries := x.entries ++ [e] })

/-! The instructions. -/

/-- Address, ridge and KILL of a record specification (R331). -/
def specAddr (x : W64) : Nat := fld x.toNat 0 48
def specRidge (x : W64) : Nat := fld x.toNat 48 4
def specKill (x : W64) : Bool := x.getLsbD 52

/-- KIND, PKG and address of a handle (R164). -/
def hdlKind (x : W64) : Nat := fld x.toNat 62 2
def hdlPkg (x : W64) : Nat := fld x.toNat 56 6
def hdlAddr (x : W64) : Nat := fld x.toNat 0 48

/-- Free credits toward a package (R165). -/
def State.credit? (s : State) (pkg : Nat) : Nat := tgetD s.credits pkg 64

def State.setCredit (s : State) (pkg n : Nat) : State := { s with credits := tput s.credits pkg n }

/-- The region whose pool stands at a descriptor address of a context (R164, R188), among those the device knows; a region whose
POOLDESC is 0 has no pool (R182). -/
def State.poolRegion (s : State) (asid addr : Nat) : Option Nat :=
  s.regions.find? fun r =>
    addr != 0 && s.rcbLevel r == 3 && (s.ctxOf r).asid == asid && (s.rcbFld r 0x60 6 42 * 64 == addr)

/-- Does the push test of R332 kill a record? A ridge that the context does not own never kills. -/
def State.pushKills (s : State) (h : Nat) (spec : W64) (r : BitVec 512) : Bool :=
  specKill spec && s.ownsRidge h (specRidge spec) && s.killTest (bayOf h) (specRidge spec) (recKey r)

/-- Reads the record that a specification names (R331): a misaligned address traps ALIGN. -/
def State.readSpec (s : State) (spec : W64) : Except (Cause × Nat) (BitVec 512) × State :=
  let a := specAddr spec
  if a % 64 ≠ 0 then (.error (.align, a), s)
  else match s.aLoads s.cur a 8 with
    | (.error e, s) => (.error e, s)
    | (.ok ds, s) => (.ok (BitVec.ofNat 512 (packElems 64 (ds.map (·.toNat)))), s)

/-- What a send of a record came to. -/
inductive Sent where
  | trap (s : State)
  | waits (s : State)
  | killed (s : State)
  | sent (name : Nat) (s : State)

/-- REMQ and REMQA up to the sending (R331..R333): the record is read at issue, a release follows (R331), a kill test may end it, and the record
goes out with a credit of the destination package. -/
def State.send (s : State) (word handle spec : W64) (answer : Bool) : Sent :=
  let h := s.curHart
  let pool := hdlKind handle == 1
  let pkg := hdlPkg handle
  if pool && !(s.has .search) then .trap (s.raise .feature word)
  else if specAddr spec % 64 ≠ 0 then .trap (s.raise .align (w64 (specAddr spec)))
  else if s.credit? pkg = 0 then .waits (s.standAt .stall)
  else match s.readSpec spec with
    | (.error e, s) => .trap (s.raiseAcc e.1 (w64 e.2) 0)
    | (.ok r, s) =>
      let s := s.releaseBy s.cur 5
      if pool && s.pushKills h spec r then
        .killed (match s.poolRegion (s.hart h).ctx.asid (hdlAddr handle) with
          | some rcb => if pkg = s.pkgNum then s.poolCount rcb (hdlAddr handle) cntKillPush else s
          | none => s)
      else
        let name := s.nextId
        let q : RqRec := { name := name, kind := .enqueue (if answer then some h else none), ctx := (s.hart h).ctx,
                           handle := handle, rec_ := r, kill := specKill spec, ridge := specRidge spec,
                           truss := trussOf h }
        .sent name (({ s with nextId := name + 1, rq := s.rq ++ [q] } : State).setCredit pkg (s.credit? pkg - 1))

/-- REMQ (R333). -/
def execRemq (b c : RCode) (s : State) : Outcome State Fault Refusal :=
  withA (.remq b c) [b, c] [] s fun v s =>
    match s.send (evalOf (.remq b c)) (v.getD 0 0) (v.getD 1 0) false with
    | .trap s => s
    | .waits s => s
    | .killed s => s.aDone0 [b, c]
    | .sent _ s => s.aDone0 [b, c]

/-- REMQA (R333): it sends once, then waits for its answer. -/
def execRemqa (a b c : RCode) (s : State) : Outcome State Fault Refusal :=
  withA (.remqa a b c) [b, c] [a] s fun v s =>
    let h := s.curHart
    match (s.hart h).a.remq with
    | some (_, some ans) => (s.modA h fun r => { r with remq := none }).aDone [b, c] a (w64 ans)
    | some (_, none) => s.standAt .stall
    | none =>
      match s.send (evalOf (.remqa a b c)) (v.getD 0 0) (v.getD 1 0) true with
      | .trap s => s
      | .waits s => s
      | .killed s => s.aDone [b, c] a 1
      | .sent name s => (s.modA h fun r => { r with remq := some (name, none) }).standAt .stall

/-- PPUSH (R333): the region's own pool, at the pushing truss's shard. -/
def execPpush (a b : RCode) (s : State) : Outcome State Fault Refusal :=
  withA (.ppush a b) [b] [a] s fun v s =>
    let h := s.curHart
    let rcb := (s.hart h).ctx.rcb
    let spec := v.getD 0 0
    match s.readSpec spec with
    | (.error e, s) => s.raiseAcc e.1 (w64 e.2) 0
    | (.ok r, s) =>
      let s := s.releaseBy s.cur 5
      match s.poolOf rcb with
      | none => (s.poolSeen rcb).aDone [b] a 3
      | some (desc, cap) =>
        if s.pushKills h spec r then (s.poolCount rcb desc cntKillPush).aDone [b] a 1
        else
          let x := s.pushRec rcb (trussOf h) cap r (specKill spec) (specRidge spec)
          x.2.aDone [b] a (w64 x.1)

/-! Delivery. -/

/-- A record for a launch queue (R166): FULL, BADHANDLE, or written at WIDX and kicked. A QCB that can be read but is malformed,
or whose RCBADDR names no region of the sender's context (R14) with a queue there, is no queue: BADHANDLE (DESIGN CHOICE,
log 57). -/
def State.deliverQueue (s : State) (q : RqRec) : Nat × State :=
  let a := hdlAddr q.handle
  match s.ctlRead q.ctx.ptbase a 64 with
  | (.error _, s) => (3, s)
  | (.ok bs, s) =>
    let rcb := ofBytes ((bs.drop 8).take 8) % 2 ^ 48
    let qb := s.rcbFld rcb 0x58 6 42 * 64
    match qcbRing (ofBytes (bs.take 8)) with
    | none => (3, s)
    | some (ring, lg) =>
      let widx := ofBytes ((bs.drop 0x18).take 4)
      let done := ofBytes ((bs.drop 0x20).take 4)
      if isHbm s rcb && s.rcbBad rcb then (3, s.countUncorr)
      else if !(isHbm s rcb) ∨ s.rcbLevel rcb ≠ 3 ∨ s.ctxNode rcb ≠ q.ctx.ctxRcb ∨ a < qb ∨ (a - qb) % 64 ≠ 0 ∨ 512 ≤ (a - qb) / 64 then (3, s)
      else if (widx + 2 ^ 32 - done) % 2 ^ 32 = 2 ^ lg then (2, s)
      else match s.ctlWrite (s.ctxOf rcb).ptbase (ring + 64 * (widx % 2 ^ lg)) (toBytes 64 q.rec_.toNat) with
        | (.error _, s) => (3, s)
        | (.ok _, s) => (0, s.kick rcb ((a - qb) / 64) ((widx + 1) % 2 ^ 32))

/-- A record for a pool of this package (R166): its shard 0. -/
def State.deliverPool (s : State) (q : RqRec) : Nat × State :=
  match s.poolRegion q.ctx.asid (hdlAddr q.handle) with
  | none => (3, s)
  | some rcb =>
    let r : Nat × State := match s.poolOf rcb with
      | none => (3, s.poolSeen rcb)
      | some (_, cap) => s.pushRec rcb 0 cap q.rec_ q.kill q.ridge
    match r.1, q.kind with
    | 0, _ => r
    | _, .enqueue none => (r.1, r.2.poolCount rcb (hdlAddr q.handle) cntLost)
    | _, _ => r

/-- The answer of a record reaches the REMQA that waits for it (R333). -/
def State.answer (s : State) (h name st : Nat) : State :=
  s.modA h fun a => match a.remq with
    | some (n, none) => if n = name then { a with remq := some (n, some st) } else a
    | _ => a

/-- An enqueue at this package (R166): it is written or dropped, a drop of a REMQ is counted. The answer is its status. -/
def State.enqueueHere (s : State) (q : RqRec) : Nat × State :=
  match hdlKind q.handle with
  | 0 =>
    match s.deliverQueue q with
    | (0, s) => (0, s)
    | (st, s) => (st, if q.kind = .enqueue none then s.countUp (cbAddr 0x088) 8 1 else s)
  | 1 => s.deliverPool q
  | _ => (3, s)

/-- An enqueue of this package's own arrives (R166), and a REMQA has its answer. -/
def State.deliver (s : State) (q : RqRec) (answer : Option Nat) : State :=
  let r := s.enqueueHere q
  match answer with
  | some h => r.2.answer h q.name r.1
  | none => r.2

/-- The victim of a steal has its acknowledgement: the LENT entry becomes FREE (R163). -/
def State.stealAck (s : State) (rcb victim : Nat) (r : BitVec 512) : State :=
  let y := s.shard rcb victim
  (s.setShard rcb victim
    { y with entries := y.entries.filter fun e => !(e.lent && recSeq e.rec_ == recSeq r) }).shardTouch rcb victim

/-- A stolen record arrives at its thief (R163, R166, R380, R381); ack is false when the thief resets after the write and before
its acknowledgement. A full thief writes nothing. A discarded arrival is not acknowledged, nor is one at a full thief, so that
the victim's entry is QUEUED again after 100 µs (DESIGN CHOICE, log 86). -/
def State.deliverSteal (s : State) (q : RqRec) (victim thief : Nat) (ack : Bool) : State :=
  let rcb := q.ctx.rcb
  let x := s.shard rcb thief
  let s := s.setShard rcb thief { x with stealing := false }
  match s.poolOf rcb with
  | none => s.poolSeen rcb
  | some (desc, cap) =>
    if (x.entries.any fun e => recSeq e.rec_ == recSeq q.rec_) ∨ 2 ^ cap ≤ x.entries.length then s
    else
      let e : PEntry := { rec_ := q.rec_, kill := q.kill, ridge := q.ridge, lent := false, lentAt := 0 }
      let s := (s.accept rcb thief { x with stealing := false, entries := x.entries ++ [e] }).poolCount rcb desc cntSteals
      if ack then s.stealAck rcb victim q.rec_ else s

/-- A shard is reset alone (R381): what it lent and what is in transit to it is lost to it. -/
def State.shardReset (s : State) (rcb t : Nat) : State :=
  let x := s.shard rcb t
  let s := { s with rq := s.rq.filter fun q => match q.kind with
    | .steal _ thief => !(q.ctx.rcb == rcb && thief == t)
    | .enqueue _ => true }
  let back := s.credit? s.pkgNum + b2n x.stealing
  ((s.setCredit s.pkgNum back).setShard rcb t
    { x with entries := x.entries.filter fun e => !e.lent, stealing := false }).shardTouch rcb t

/-- May record i of the channel be written now: no earlier one goes to the same handle (R165)? The sender of R165 is taken to be
the package, so that the order holds over all its harts (DESIGN CHOICE, log 87). -/
def rqFirst (l : List RqRec) (i : Nat) : Bool :=
  match l[i]? with
  | some q => match q.kind with
    | .enqueue _ => (l.take i).all fun r => match r.kind with
      | .enqueue _ => r.handle != q.handle
      | .steal _ _ => true
    | .steal _ _ => true
  | none => false

/-- A record that this package has sent is written at its destination, and its credit returns (R165, R166). What another package
answers is n1: the other package lies outside this model. -/
def State.ownRecord (s : State) (q : RqRec) : State :=
  match q.kind with
  | .steal v t => (s.setCredit s.pkgNum (s.credit? s.pkgNum + 1)).deliverSteal q v t (s.ev.n2 != 2)
  | .enqueue ans =>
    let pkg := hdlPkg q.handle
    let s := s.setCredit pkg (s.credit? pkg + 1)
    if pkg = s.pkgNum then s.deliver q ans
    else match ans with
      | some h => s.answer h q.name (if s.inPod pkg && !(s.mg.cut.getLsbD pkg) then s.ev.n1 % 4 else 3)
      | none => s

/-- A record that another package has sent to this one (R164..R166): handle and specification are the two words of the event, the
record its bytes; n3 is the RCB of a region of its context. -/
def State.farRecord (s : State) : RqRec :=
  { name := 0, kind := .enqueue (if s.ev.n1 = 0 then none else some 0), ctx := s.ctxOf s.ev.n3, handle := s.ev.w,
    rec_ := recOf s.ev.bs, kill := specKill s.ev.w1, ridge := specRidge s.ev.w1, truss := 0 }

/-- RECORD_DELIVERY (R166): with n2 = 1 a record of another package arrives, a REMQA's where n1 is not 0, and its sender has the
answer; else record n of this package's own channel is written. -/
def execRecordDelivery (s : State) : Outcome State Fault Refusal :=
  .next (if s.ev.n2 = 1 then
      let q := s.farRecord
      if hdlPkg q.handle = s.pkgNum then (s.enqueueHere q).2 else s
    else if rqFirst s.rq s.ev.n then
      match s.rq[s.ev.n]? with
      | none => s
      | some q => ({ s with rq := s.rq.eraseIdx s.ev.n } : State).ownRecord q
    else s)

/-! Steals. -/

/-- The ring of victim v for thief t (R380): 0 layer, 1 chiplet, 2 tile, 3 package. -/
def ringOf (t v : Nat) : Nat :=
  if t / 4 = v / 4 then 0 else if t / 8 = v / 8 then 1 else if t / 16 = v / 16 then 2 else 3

/-- Victims of a ring in cyclic order of truss index, starting after the one last probed there (R380). -/
def ringVictims (t k last : Nat) : List Nat :=
  ((span (last + 1) 64).map (· % 64)).filter fun v => v != t && ringOf t v == k

/-- The victims in the order of probing. -/
def victims (x : Shard) (t : Nat) : List Nat :=
  (List.range 4).flatMap fun k => ringVictims t k (tgetD x.probed k t)

/-- Does a region have a live POOL node (R41)? -/
def State.poolLive (s : State) (rcb : Nat) : Bool :=
  s.cmds.any fun c => c.rcb == rcb && c.phase == .active && match c.run with
    | some r => blkPool r.blk
    | none => false

/-- May shard t of a region's pool steal (R26, R380)? -/
def State.mayProbe (s : State) (rcb t : Nat) : Bool :=
  let x := s.shard rcb t
  ((List.range 8).any fun b => s.bayOn (t * 8 + b)) && s.poolLive rcb && (x.best).isNone && !x.stealing && !x.asleep && decide (0 < s.credit? s.pkgNum)

/-- STEAL (R380): shard n of the pool of region w probes, and the first victim with a QUEUED entry lends its best. -/
def execSteal (s : State) : Outcome State Fault Refusal :=
  let rcb := s.ev.w.toNat
  let t := s.ev.n
  let x := s.shard rcb t
  let pkg := s.pkgNum
  .next (if t < 64 ∧ s.mayProbe rcb t then
      match (victims x t).find? fun v => ((s.shard rcb v).best).isSome with
      | none => s.setShard rcb t { x with asleep := true }
      | some v =>
        let y := s.shard rcb v
        match y.best with
        | none => s
        | some (i, e) =>
          let s := (s.setShard rcb v { y with entries := setAt y.entries i { e with lent := true, lentAt := s.cycle } }).shardTouch rcb v
          let s := s.setShard rcb t { x with stealing := true, probed := tput x.probed (ringOf t v) v }
          let q : RqRec := { name := s.nextId, kind := .steal v t, ctx := s.ctxOf rcb, handle := 0, rec_ := e.rec_,
                             kill := e.kill, ridge := e.ridge, truss := v }
          ({ s with nextId := s.nextId + 1, rq := s.rq ++ [q] } : State).setCredit pkg (s.credit? pkg - 1)
    else s)

/-- LENT_TIMEOUT (R163): in shard n of the pool of region w, entries LENT for 100 µs are QUEUED again. -/
def execLentTimeout (s : State) : Outcome State Fault Refusal :=
  let rcb := s.ev.w.toNat
  let x := s.shard rcb s.ev.n
  let es := x.entries.map fun e => if e.lent && decide (e.lentAt + 130000 ≤ s.cycle) then { e with lent := false } else e
  .next (s.setShard rcb s.ev.n { x with entries := es })

end Sys2Proof.Machine
end

