-- ==== Sys2Proof/Machine/Graph.lean ====
section
/-! DEFINITION. Graph instances (R186, R187, R256, R373): the snapshot, the checks of a launch and the start of an
instance, for GLAUNCH and for the GRAPH command of Walk.lean. A launch takes two steps: the first makes the snapshot, the second
reads GEN again. -/

namespace Sys2Proof.Machine

open Host (Outcome)

/-- The records in a run of bytes. -/
def recsOf (bs : List Byte) (n : Nat) : List (BitVec 512) := (List.range n).map fun i => recOf ((bs.drop (64 * i)).take 64)

/-- Does a node name a successor beyond the graph (R186)? -/
def nodesOk (nodes : List (BitVec 512)) : Bool :=
  nodes.all fun r => (List.range 6).all fun j => nodeSucc r j == 0xFF || decide (nodeSucc r j < nodes.length)

/-- The first step of a launch (R373): the snapshot, or the status that refuses it: 7 TORN for an odd GEN, 5 BADCMD for a malformed graph. -/
def State.graphSnap (s : State) (rcb g : Nat) : Except (Cause × Nat) (Except Nat GraphSnap) × State :=
  let pt := (s.ctxOf rcb).ptbase
  match s.ctlRead pt g 16 with
  | (.error e, s) => (.error e, s)
  | (.ok hd, s) =>
    let gen := ofBytes (hd.take 8)
    let n := ofBytes ((hd.drop 8).take 1)
    if gen % 2 = 1 then (.ok (.error 7), s)
    else if n = 0 then (.ok (.error 5), s)
    else
      match s.ctlRead pt (g + 64) (64 * n) with
      | (.error e, s) => (.error e, s)
      | (.ok bs, s) =>
        let nodes := recsOf bs n
        if nodesOk nodes then (.ok (.ok ⟨rcb, gen, nodes⟩), s) else (.ok (.error 5), s)

/-- A node's copy with STATUS 0xFF (R373). -/
def nodeCopy (r : BitVec 512) : BitVec 512 := BitVec.ofNat 512 (setFld r.toNat 16 8 0xFF)

/-- The bytes of a new instance area (R187). -/
def areaBytes (g : GraphSnap) : List Byte :=
  toBytes 8 g.gen ++ toBytes 56 g.nodes.length
  ++ g.nodes.flatMap fun r => toBytes 64 (nodeCopy r).toNat ++ toBytes 64 (nodePreds r)

/-- A new instance (R35, R373). -/
def GraphSnap.inst (g : GraphSnap) (id rcb area : Nat) (cmd : Option Nat) : Inst :=
  { id := id, rcb := rcb, area := area, nodes := g.nodes.map nodeCopy, cmd := cmd, left := g.nodes.length,
    failed := false, counts := (List.range g.nodes.length).map fun i => (i, nodePreds (g.nodes.getD i 0)), preds := [] }

/-- Nodes whose counter is 0 become ready at once (R35). -/
def State.startNodes (s : State) (i : Inst) : State :=
  (List.range i.nodes.length).foldl (fun s k =>
    if tgetD i.counts k 0 = 0 then
      { s with cmds := s.cmds ++ [nodeCmd i k s.nextId s.cycle], nextId := s.nextId + 1 }
    else s) s

/-- A refusal TORN triggers the region's snapshot (R385). -/
def State.torn (s : State) (rcb st : Nat) : State :=
  if st = 7 then s.capture (BitVec.ofNat 32 (s.effCapture rcb)) .torn else s

/-- The second step of a launch of the graph at g into the area (R187, R373): GEN is read again, and the instance starts. The
status, or the address that could not be used and whether it was to be written. -/
def State.graphStart (s : State) (rcb g area : Nat) (cmd : Option Nat) (sn : GraphSnap) :
    Except ((Cause × Nat) × Nat) Nat × State :=
  let pt := (s.ctxOf rcb).ptbase
  match s.ctlRead pt g 8 with
  | (.error e, s) => (.error (e, 0), s)
  | (.ok b, s) =>
    if ofBytes b ≠ sn.gen then (.ok 7, s.torn rcb 7)
    else match s.ctlWrite pt area (areaBytes sn) with
      | (.error e, s) => (.error (e, 1), s)
      | (.ok _, s) =>
        let i := sn.inst s.nextId rcb area cmd
        (.ok 0, ({ s with insts := s.insts ++ [i], nextId := s.nextId + 1 } : State).startNodes i)

/-! GLAUNCH. -/

/-- What a page of a launch would fail with (R256): no leaf, a permission, or an address outside the paged range. -/
def State.pageFault (s : State) (pt : Nat) (k : Acc) (va : Nat) : Option Cause :=
  if 2 ^ 47 ≤ va then some .bounds
  else match s.walk pt va with
    | .missing => some .pfault
    | .uncorr => some .uncorr
    | .leaf pte _ _ size =>
      match s.leafPhys pte size va with
      | none => some .pfault
      | some _ => if permOk pte false k then none else some .pprot

/-- The lowest faulting address of a launch's pages, with its cause and access (R256 step 4). -/
def State.launchFault (s : State) (pt g area n : Nat) : Option (Nat × Cause × Nat) :=
  let one : Acc → Nat → Nat × Nat → Option (Nat × Cause × Nat) := fun k code p =>
    (s.pageFault pt k p.1).map fun c => (p.1, c, code)
  argMin (fun x => x.1) ((pagesOf (g + 64) (64 * n)).filterMap (one .read 0)
    ++ (pagesOf area (64 + 128 * n)).filterMap (one .atomic 1))

/-- The snapshot that a GLAUNCH of an agent has made. -/
def State.gsnapOf (s : State) : Agent → Option GraphSnap
  | .plate p => (s.plate p).gsnap
  | .aStream h => (s.hart h).a.gsnap
  | .eStream _ => none

/-- Sets or clears it. -/
def State.setGsnap (s : State) (ag : Agent) (x : Option GraphSnap) : State :=
  match ag with
  | .plate p => s.modPlate p fun c => { c with gsnap := x }
  | .aStream h => s.modA h fun a => { a with gsnap := x }
  | .eStream _ => s

/-- Steps 3 and 4 of R256 in a region, and the first step of the launch. -/
def State.glaunchSnap (s : State) (rcb : Nat) (srcs : List RCode) (a : RCode) (g area : W64) : State :=
  let pt := (s.ctxOf rcb).ptbase
  match s.ctlRead pt g.toNat 16 with
  | (.error e, s) => s.raiseAcc e.1 (w64 e.2) 0
  | (.ok hd, s) =>
    let n := ofBytes ((hd.drop 8).take 1)
    if n = 0 then s.aDone srcs a 5
    else match s.launchFault pt g.toNat area.toNat n with
      | some (va, c, acc) => (if c = .uncorr then s.countUncorr else s).raiseAcc c (w64 va) acc
      | none =>
        match s.graphSnap rcb g.toNat with
        | (.error e, s) => s.raiseAcc e.1 (w64 e.2) 0
        | (.ok (.error st), s) => (s.torn rcb st).aDone srcs a (w64 st)
        | (.ok (.ok sn), s) => (s.setGsnap s.cur (some sn)).standAt .stall

/-- Steps 3 to 5 of R256 in a region: the agent stands at its GLAUNCH between the snapshot and the second read of GEN. -/
def State.glaunch (s : State) (rcb : Nat) (srcs : List RCode) (a : RCode) (g area : W64) : State :=
  match s.gsnapOf s.cur with
  | none => s.glaunchSnap rcb srcs a g area
  | some sn =>
    match (s.setGsnap s.cur none).graphStart rcb g.toNat area.toNat none sn with
    | (.error (e, acc), s) => s.raiseAcc e.1 (w64 e.2) acc
    | (.ok st, s) => s.aDone srcs a (w64 st)

/-- GLAUNCH (R256). A snapshot that a core has made is dropped where its launch ends otherwise: the region that A names is looked at
each time, and its control block may have changed. -/
def execGlaunch (a b c : RCode) (s : State) : Outcome State Fault Refusal :=
  withA (.glaunch a b c) [b, c] [a] s fun v s =>
    let g := v.getD 0 0
    let area := v.getD 1 0
    if g.toNat % 64 ≠ 0 then s.raise .align g
    else if area.toNat % 64 ≠ 0 then s.raise .align area
    else match s.cur with
      | .plate _ =>
        let rcb := (s.aSrc a 0).toNat
        if rcb % 64 ≠ 0 ∨ !(isHbm s rcb) then (s.setGsnap s.cur none).aDone [b, c] a 5
        else if s.rcbBad rcb then s.countUncorr.raise .uncorr (w64 rcb)
        else if s.rcbLevel rcb ≠ 3 then (s.setGsnap s.cur none).aDone [b, c] a 5
        else s.glaunch rcb [b, c] a g area
      | _ => s.glaunch (s.hart s.curHart).ctx.rcb [b, c] a g area

end Sys2Proof.Machine
end

