-- ==== Sys2Proof/Machine/Crypto.lean ====
section
/-! DEFINITION. The digest and the signature of R411 and R25: SHA-384, and ECDSA over brainpoolP384r1 (RFC 5639) with it. -/

namespace Sys2Proof.Machine

/-! SHA-384 (R411). Its constants are the 64-bit fractions of the cube roots of the first 80 primes and of the square roots of
the ninth to sixteenth. -/

def shaK0 : List W64 := [
   0x428A2F98D728AE22, 0x7137449123EF65CD, 0xB5C0FBCFEC4D3B2F, 0xE9B5DBA58189DBBC,
   0x3956C25BF348B538, 0x59F111F1B605D019, 0x923F82A4AF194F9B, 0xAB1C5ED5DA6D8118,
   0xD807AA98A3030242, 0x12835B0145706FBE, 0x243185BE4EE4B28C, 0x550C7DC3D5FFB4E2,
   0x72BE5D74F27B896F, 0x80DEB1FE3B1696B1, 0x9BDC06A725C71235, 0xC19BF174CF692694,
   0xE49B69C19EF14AD2, 0xEFBE4786384F25E3, 0x0FC19DC68B8CD5B5, 0x240CA1CC77AC9C65]
def shaK1 : List W64 := [
   0x2DE92C6F592B0275, 0x4A7484AA6EA6E483, 0x5CB0A9DCBD41FBD4, 0x76F988DA831153B5,
   0x983E5152EE66DFAB, 0xA831C66D2DB43210, 0xB00327C898FB213F, 0xBF597FC7BEEF0EE4,
   0xC6E00BF33DA88FC2, 0xD5A79147930AA725, 0x06CA6351E003826F, 0x142929670A0E6E70,
   0x27B70A8546D22FFC, 0x2E1B21385C26C926, 0x4D2C6DFC5AC42AED, 0x53380D139D95B3DF,
   0x650A73548BAF63DE, 0x766A0ABB3C77B2A8, 0x81C2C92E47EDAEE6, 0x92722C851482353B]
def shaK2 : List W64 := [
   0xA2BFE8A14CF10364, 0xA81A664BBC423001, 0xC24B8B70D0F89791, 0xC76C51A30654BE30,
   0xD192E819D6EF5218, 0xD69906245565A910, 0xF40E35855771202A, 0x106AA07032BBD1B8,
   0x19A4C116B8D2D0C8, 0x1E376C085141AB53, 0x2748774CDF8EEB99, 0x34B0BCB5E19B48A8,
   0x391C0CB3C5C95A63, 0x4ED8AA4AE3418ACB, 0x5B9CCA4F7763E373, 0x682E6FF3D6B2B8A3,
   0x748F82EE5DEFB2FC, 0x78A5636F43172F60, 0x84C87814A1F0AB72, 0x8CC702081A6439EC]
def shaK3 : List W64 := [
   0x90BEFFFA23631E28, 0xA4506CEBDE82BDE9, 0xBEF9A3F7B2C67915, 0xC67178F2E372532B,
   0xCA273ECEEA26619C, 0xD186B8C721C0C207, 0xEADA7DD6CDE0EB1E, 0xF57D4F7FEE6ED178,
   0x06F067AA72176FBA, 0x0A637DC5A2C898A6, 0x113F9804BEF90DAE, 0x1B710B35131C471B,
   0x28DB77F523047D84, 0x32CAAB7B40C72493, 0x3C9EBE0A15C9BEBC, 0x431D67C49C100D4C,
   0x4CC5D4BECB3E42B6, 0x597F299CFC657E2A, 0x5FCB6FAB3AD6FAEC, 0x6C44198C4A475817]
def shaK : List W64 := shaK0 ++ shaK1 ++ shaK2 ++ shaK3

/-- The initial hash value of SHA-384. -/
def shaInit : List W64 := [
   0xCBBB9D5DC1059ED8, 0x629A292A367CD507, 0x9159015A3070DD17, 0x152FECD8F70E5939,
   0x67332667FFC00B31, 0x8EB44A8768581511, 0xDB0C2E0D64F98FA7, 0x47B5481DBEFA4FA4]

/-- A value from bytes, highest first. -/
def ofBytesBE (l : List Byte) : Nat := ofBytes l.reverse

/-- The n low bytes of a value, highest first. -/
def toBytesBE (n v : Nat) : List Byte := (toBytes n v).reverse

/-- The padding of a message of n bytes: a one bit, zeros, and the bit length in 128 bits. -/
def shaPad (n : Nat) : List Byte := 0x80 :: (List.replicate ((239 - n % 128) % 128) 0 ++ toBytesBE 16 (8 * n))

/-- The message schedule, newest word first: n more words after sixteen or more. -/
def shaSched : Nat → List W64 → List W64
  | 0, w => w
  | n + 1, w =>
    let x := w.getD 14 0
    let y := w.getD 1 0
    let s0 := x.rotateRight 1 ^^^ x.rotateRight 8 ^^^ (x >>> 7)
    let s1 := y.rotateRight 19 ^^^ y.rotateRight 61 ^^^ (y >>> 6)
    shaSched n ((w.getD 15 0 + s0 + w.getD 6 0 + s1) :: w)

/-- The eight working words. -/
structure ShaRegs where
  a : W64
  b : W64
  c : W64
  d : W64
  e : W64
  f : W64
  g : W64
  h : W64
  deriving DecidableEq, Repr

/-- One round. -/
def shaRound (r : ShaRegs) (kw : W64 × W64) : ShaRegs :=
  let s1 := r.e.rotateRight 14 ^^^ r.e.rotateRight 18 ^^^ r.e.rotateRight 41
  let ch := (r.e &&& r.f) ^^^ (~~~r.e &&& r.g)
  let t1 := r.h + s1 + ch + kw.1 + kw.2
  let s0 := r.a.rotateRight 28 ^^^ r.a.rotateRight 34 ^^^ r.a.rotateRight 39
  let maj := (r.a &&& r.b) ^^^ (r.a &&& r.c) ^^^ (r.b &&& r.c)
  { a := t1 + (s0 + maj), b := r.a, c := r.b, d := r.c, e := r.d + t1, f := r.e, g := r.f, h := r.g }

def ShaRegs.ofList (l : List W64) : ShaRegs :=
  ⟨l.getD 0 0, l.getD 1 0, l.getD 2 0, l.getD 3 0, l.getD 4 0, l.getD 5 0, l.getD 6 0, l.getD 7 0⟩
def ShaRegs.toList (r : ShaRegs) : List W64 := [r.a, r.b, r.c, r.d, r.e, r.f, r.g, r.h]

/-- One block of 128 bytes. -/
def shaBlock (h : List W64) (blk : List Byte) : List W64 :=
  let w16 := (List.range 16).map fun i => w64 (ofBytesBE ((blk.drop (8 * i)).take 8))
  let w := (shaSched 64 w16.reverse).reverse
  let r := (shaK.zip w).foldl shaRound (ShaRegs.ofList h)
  (h.zip r.toList).map fun p => p.1 + p.2

/-- n blocks. -/
def shaBlocks : Nat → List W64 → List Byte → List W64
  | 0, h, _ => h
  | n + 1, h, m => shaBlocks n (shaBlock h (m.take 128)) (m.drop 128)

/-- The SHA-384 digest of a message, 48 bytes. -/
def sha384 (m : List Byte) : List Byte :=
  let p := m ++ shaPad m.length
  ((shaBlocks (p.length / 128) shaInit p).take 6).flatMap fun w => toBytesBE 8 w.toNat

/-! ECDSA over brainpoolP384r1 (R411, RFC 5639, non-twisted): y^2 = x^3 + a x + b modulo p, with a base point of order n. -/

def ecP : Nat := 0x8CB91E82A3386D28_0F5D6F7E50E641DF_152F7109ED5456B4_12B1DA197FB71123_ACD3A729901D1A71_874700133107EC53
def ecA : Nat := 0x7BC382C63D8C150C_3C72080ACE05AFA0_C2BEA28E4FB22787_139165EFBA91F90F_8AA5814A503AD4EB_04A8C7DD22CE2826
def ecB : Nat := 0x04A8C7DD22CE2826_8B39B55416F0447C_2FB77DE107DCD2A6_2E880EA53EEB62D5_7CB4390295DBC994_3AB78696FA504C11
def ecGx : Nat := 0x1D1C64F068CF45FF_A2A63A81B7C13F6B_8847A3E77EF14FE3_DB7FCAFE0CBD10E8_E826E03436D646AA_EF87B2E247D4AF1E
def ecGy : Nat := 0x8ABE1D7520F9C2A4_5CB1EB8E95CFD552_62B70B29FEEC5864_E19C054FF9912928_0E46462177918111_42820341263C5315
def ecN : Nat := 0x8CB91E82A3386D28_0F5D6F7E50E641DF_152F7109ED5456B3_1F166E6CAC0425A7_CF3AB6AF6B7FC310_3B883202E9046565

/-- A power modulo m, over the bits of the exponent, of which there are at most the fuel. -/
def powMod (m : Nat) : Nat → Nat → Nat → Nat
  | 0, _, _ => 1 % m
  | f + 1, b, e =>
    let r := powMod m f (b * b % m) (e / 2)
    if e % 2 = 1 then b * r % m else r

/-- The inverse modulo a prime of 384 bits. -/
def invMod (m x : Nat) : Nat := powMod m 384 (x % m) (m - 2)

/-- A sum of points; none is the point at infinity. -/
def ecAdd : Option (Nat × Nat) → Option (Nat × Nat) → Option (Nat × Nat)
  | none, q => q
  | p, none => p
  | some (x1, y1), some (x2, y2) =>
    if x1 = x2 ∧ (y1 + y2) % ecP = 0 then none
    else
      let l := if x1 = x2 then (3 * x1 * x1 + ecA) * invMod ecP (2 * y1) % ecP
        else (y2 + ecP - y1) * invMod ecP (x2 + ecP - x1) % ecP
      let x3 := (l * l + 2 * ecP - x1 - x2) % ecP
      some (x3, (l * (x1 + ecP - x3) + ecP - y1) % ecP)

/-- A multiple of a point, over the bits of the factor. -/
def ecMul : Nat → Nat → Option (Nat × Nat) → Option (Nat × Nat)
  | 0, _, _ => none
  | f + 1, k, p =>
    let r := ecMul f (k / 2) (ecAdd p p)
    if k % 2 = 1 then ecAdd p r else r

/-- Does a signature (r then s, 48 bytes each, highest byte first) of a digest verify against a public key (R411)? -/
def ecdsaOk (key : Nat × Nat) (digest sig : List Byte) : Bool :=
  let r := ofBytesBE (sig.take 48)
  let s := ofBytesBE ((sig.drop 48).take 48)
  let e := ofBytesBE digest
  decide (1 ≤ r) && decide (r < ecN) && decide (1 ≤ s) && decide (s < ecN) &&
    (let w := invMod ecN s
     match ecAdd (ecMul 384 (e * w % ecN) (some (ecGx, ecGy))) (ecMul 384 (r * w % ecN) (some key)) with
     | none => false
     | some (x, _) => x % ecN == r)

/-- Does a signed object verify against Caerveys's root key, which the boot ROM holds (R25, R411)? The key's value is a free
value (log 9). -/
def signatureOk (msg sig : List Byte) : Bool := sig.length == 96 && ecdsaOk Config.rootKey (sha384 msg) sig

end Sys2Proof.Machine
end

