-- ==== Sys2Proof/Machine/Walk.lean ====
section
/-! DEFINITION. Launch queues and commands (R33..R37, R154..R160): kicks, the walker of a slot, and the commands that
start and end here: NOP, COPY, GRAPH, SELECT, FENCE, SIGNAL and WAIT. RUN stands in Run.lean. A command's event names
it by its number in the state (ev.n), and does nothing unless the command is ready and of that kind. -/

namespace Sys2Proof.Machine

open Host (Outcome)

/-! Kicks. -/

/-- Is VF v in a Function Level Reset, by its bit of the FLR map (R405)? -/
def State.inFlr (s : State) (v : Nat) : Bool := (memGet s.mem (ioBase + 0xA800 + v / 8)).getLsbD (v % 8)

/-- KICK (R156, R402..R405): a host store to a VF's BAR 0, of the bytes bs at offset n1 of doorbell page n. -/
def execKick (s : State) : Outcome State Fault Refusal :=
  .next (if s.inFlr (s.ev.n / 4096) then s else s.doorbellStore s.ev.n s.ev.n1 s.ev.bs)

/-! The walker. -/

/-- A queue's control block as its slot uses it (R154). -/
structure Qcb where
  ring : Nat
  lg : Nat
  widx : Nat
  ridx : Nat
  done : Nat
  fenceRec : Nat
  seq : Nat
  deriving DecidableEq, Repr

/-- The fields of a QCB; none when it is malformed. -/
def Qcb.of (bs : List Byte) : Option Qcb :=
  (qcbRing (ofBytes (bs.take 8))).map fun r =>
    { ring := r.1, lg := r.2, widx := ofBytes ((bs.drop 0x18).take 4), ridx := ofBytes ((bs.drop 0x1C).take 4),
      done := ofBytes ((bs.drop 0x20).take 4), fenceRec := ofBytes ((bs.drop 0x28).take 6),
      seq := ofBytes ((bs.drop 0x30).take 8) }

/-- May the walker read the record at RIDX (R157)? -/
def Qcb.mayRead (q : Qcb) : Bool :=
  let ahead := (q.widx + 2 ^ 32 - q.ridx) % 2 ^ 32
  decide (1 ≤ ahead) && decide (ahead ≤ 2 ^ q.lg) && decide ((q.ridx + 2 ^ 32 - q.done) % 2 ^ 32 < 2 ^ q.lg)

/-- The walker's memory after a record: its run (R34), and a FENCE's number. Only late runs and fences can still
matter: a window holds 16 commands. -/
def QueueSt.record (q : QueueSt) (conc fence : Bool) (id : Nat) : QueueSt :=
  let run := if conc then q.run else q.run + 1
  let lens := tput q.lens run (tgetD q.lens run 0 + 1)
  { q with
    run := run
    lens := lens.filter fun p => run ≤ p.1 + 32
    fences := if fence then (id :: q.fences).take 32 else q.fences
    held := none }

/-- RIDX moves past a record (R157). -/
def State.putRidx (s : State) (rcb n ridx : Nat) : State :=
  (s.ctlWriteD (s.ctxOf rcb).ptbase (s.qcbAt rcb n + 0x1C) (toBytes 4 ((ridx + 1) % 2 ^ 32))).putDone rcb n

/-- A record that a replay does not run again (R391): its successors see the status that the reset left. -/
def State.skipRecord (s : State) (rcb n : Nat) (q : Qcb) (conc : Bool) (st : Nat) : State :=
  let id := s.nextId
  let s := { s with nextId := id + 1 }
  let s := s.modQueue rcb n fun w =>
    let w := w.record conc false id
    { w with
      skip := w.skip.filter fun p => p.1 != q.ridx
      failed := (if stFailed st then [(w.run, id)] else []) ++ w.failed }
  s.putRidx rcb n q.ridx

/-- A record becomes a command, ready at once when its dependences have ended (R33, R369). -/
def State.takeRecord (s : State) (rcb n : Nat) (q : Qcb) (r : BitVec 512) : State :=
  let id := s.nextId
  let s := ({ s with nextId := id + 1 } : State).modQueue rcb n fun w => w.record (recConc r) (recKind r == 5) id
  let c : Cmd :=
    { id := id, rcb := rcb, src := .queue n q.ridx (s.queue rcb n).run, va := q.ring + 64 * (q.ridx % 2 ^ q.lg),
      rec_ := r, phase := .waiting, ready := false, readyAt := s.cycle, run := none, xfer := none, inst := none,
      gsnap := none, partner := none, mergedInto := none }
  (({ s with cmds := s.cmds ++ [c] } : State).becomeReady rcb).putRidx rcb n q.ridx

/-- The walker at RIDX (R157, R159): a missing page holds it there with a notice; a record that cannot be read
otherwise ends FAILED at once, as a command without CONCURRENT. -/
def State.readRecord (s : State) (rcb n : Nat) (q : Qcb) : State :=
  let x := s.ctxOf rcb
  let a := q.ring + 64 * (q.ridx % 2 ^ q.lg)
  match s.ctlRead x.ptbase a 64 with
  | (.ok bs, s) =>
    let r := recOf bs
    match (s.queue rcb n).skip.find? fun p => p.1 == q.ridx with
    | some p => s.skipRecord rcb n q (recConc r) p.2
    | none => s.takeRecord rcb n q r
  | (.error (c, va), s) =>
    if c = .pfault then
      (s.modQueue rcb n fun w => { w with held := some va }).postNotice
        (noticeOf 3 Cause.pfault.code 0 x.asid va rcb a 0 0)
    else
      let id := s.nextId
      let s := s.takeRecord rcb n q 0
      match s.cmd? id with
      | some d => (s.logCmd d c 1 va).endCmd id 1
      | none => s

/-- The walker of a queue meets an uncorrectable error in its control block, or in that of its region: it counts, and the walker
stands until a PRESUME of the control block or a QLOAD (DESIGN CHOICE, log 100). -/
def State.holdQueue (s : State) (rcb n va : Nat) : State := s.modQueue rcb n fun w => { w with held := some va }

/-- Reads the next record of slot k, if its walker may (R157, R366, R414). -/
def State.walkSlot (s : State) (k : Nat) : State :=
  let q := tgetD s.qslots k ⟨.free, 0, 0, 0⟩
  if q.state ≠ .running ∨ s.preg.featack = none ∨ (s.queue q.rcb q.n).held ≠ none
      ∨ 16 ≤ (s.queueCmds q.rcb q.n).length then s
  else if s.rcbBad q.rcb then s.countUncorr.holdQueue q.rcb q.n q.qcb
  else match s.ctlRead (s.ctxOf q.rcb).ptbase (s.qcbAt q.rcb q.n) 64 with
  | (.error (.uncorr, va), s) => s.holdQueue q.rcb q.n va
  | (.error _, s) => s
  | (.ok bs, s) =>
    match Qcb.of bs with
    | some b => if b.mayRead then s.readRecord q.rcb q.n b else s
    | none => s

/-- RECORD_READ (R157): the walker of slot ev.n reads one record. -/
def execRecordRead (s : State) : Outcome State Fault Refusal := .next (s.walkSlot s.ev.n)

/-! Readiness and prologue. -/

/-- Is a command ready, and not yet under way (R33..R35)? -/
def State.cmdReady (_ : State) (c : Cmd) : Bool := c.phase == .waiting && c.mergedInto.isNone && c.ready

/-- The status with which a command ends without running because of its dependences (R36): 8 SKIPUP, 9 UNTAKEN. A
FENCE of a queue always runs, and ends what a failure before it skips. -/
def State.depStatus (s : State) (c : Cmd) : Option Nat :=
  match c.src with
  | .node iid k =>
    match s.inst? iid with
    | none => none
    | some i =>
      let f := tgetD i.preds k 0
      if f.testBit 0 then some 8 else if f = 4 then some 9 else none
  | .queue n _ run =>
    let q := s.queue c.rcb n
    if recKind c.rec_ = 5 then none
    else if q.failed.any fun p => p.1 + 1 == run && !(q.fences.any fun f => decide (p.2 < f) && decide (f < c.id)) then
      some 8
    else none

/-- A ready command of a kind meets its dependences and its own checks, and then runs. Where the device cannot read the control
blocks of its region, a command that uses them ends FAILED with a record (R398; log 100); a FENCE has its own way. A malformed record ends BADCMD whatever
its kind, and one of KIND 5 then leaves SEQ (DESIGN CHOICE, log 104). -/
def runCmd (s : State) (kind : Nat → Bool) (body : Cmd → State → State) : Outcome State Fault Refusal :=
  .next (match s.cmd? s.ev.n with
    | none => s
    | some c =>
      if !(kind (recKind c.rec_)) || !(s.cmdReady c) then s
      else match s.depStatus c with
        | some st => s.endCmd c.id st
        | none =>
          if !c.legal then s.endCmd c.id 5
          else if recKind c.rec_ ≠ 0 ∧ recKind c.rec_ ≠ 5 ∧ s.rcbBad c.rcb then s.countUncorr.cmdFault c (.uncorr, c.rcb) 0
          else body c s)

/-! The commands. -/

/-- NOP (R33). A record with a KIND above 7 ends BADCMD (R159). -/
def execNop (s : State) : Outcome State Fault Refusal :=
  runCmd s (fun k => k == 0 || decide (7 < k)) fun c s => s.endCmd c.id 0

/-- A word written by a SIGNAL: one store of eight bytes, to memory or to the I/O-die space (R122). -/
def State.cmdStore (s : State) (pt va : Nat) (v : W64) : Except (Cause × Nat) Unit × State :=
  match s.ctlXlat pt false .write va 8 with
  | (.error e, s) => (.error e, s)
  | (.ok ps, s) =>
    match s.storeAt ((ps.headD (0, 0)).1) (toBytes 8 v.toNat) with
    | (some c, s) => (.error (c, va), s)
    | (none, s) => (.ok (), s)

/-- SIGNAL (R33): this model performs the write at its home, so the release has nothing left to order. -/
def execSignal (s : State) : Outcome State Fault Refusal :=
  runCmd s (fun k => k == 6) fun c s =>
    match s.cmdStore (s.cmdPt c) (recAddr c.rec_) (recVal c.rec_) with
    | (.error e, s) => s.cmdFault c e 1
    | (.ok _, s) => s.endCmd c.id 0

/-- A WAIT reads its word (R33): it ends once the word is at least its value, else it waits to read again. -/
def State.waitRead (s : State) (c : Cmd) : State :=
  match s.ctlRead (s.cmdPt c) (recAddr c.rec_) 8 with
  | (.error e, s) => s.cmdFault c e 0
  | (.ok bs, s) =>
    if (recVal c.rec_).toNat ≤ ofBytes bs then s.endCmd c.id 0
    else s.modCmd c.id fun d => { d with phase := .active }

/-- WAIT (R33). -/
def execWait (s : State) : Outcome State Fault Refusal := runCmd s (fun k => k == 7) fun c s => s.waitRead c

/-- WAIT_REREAD (R159). -/
def execWaitReread (s : State) : Outcome State Fault Refusal :=
  .next (match s.cmd? s.ev.n with
    | some c => if recKind c.rec_ = 7 ∧ c.phase = .active then s.waitRead c else s
    | none => s)

/-- SEQ and the fence record of a FENCE (R33, R154, R159): the record is written first; SEQ rises where the record stands, or where it
could not be written for another reason than a missing page. -/
def State.fenceWrite (s : State) (c : Cmd) (q rec_ seq next : Nat) : State :=
  let pt := s.cmdPt c
  let fin : State → State := fun s => (s.ctlWriteD pt (q + 0x30) (toBytes 8 seq)).endCmd c.id 0
  match s.ctlWrite pt rec_ (toBytes 8 seq ++ toBytes 8 next) with
  | (.ok _, s) => fin s
  | (.error e, s) => if e.1 = .pfault then s.cmdFault c e 1 else fin (s.logCmd c e.1 0 e.2)

/-- FENCE (R33, R154, R159, R398): SEQ rises and the fence record takes it with the RIDX that follows. Where the control block cannot
be read, the FENCE ends DONE without its record, and SEQ stays (log 100). -/
def execFence (s : State) : Outcome State Fault Refusal :=
  runCmd s (fun k => k == 5) fun c s =>
    match c.src with
    | .node _ _ => s
    | .queue n idx _ =>
      let q := s.qcbAt c.rcb n
      if s.rcbBad c.rcb then (s.countUncorr.logCmd c .uncorr 0 c.rcb).endCmd c.id 0
      else match s.ctlRead (s.cmdPt c) (q + 0x28) 16 with
        | (.error e, s) => if e.1 = .pfault then s.cmdFault c e 0 else (s.logCmd c e.1 0 e.2).endCmd c.id 0
        | (.ok bs, s) =>
          s.fenceWrite c q (ofBytes (bs.take 6)) ((ofBytes (bs.drop 8) + 1) % 2 ^ 64) ((idx + 1) % 2 ^ 32)

/-- The first step of a GRAPH command (R373): the snapshot is made, or the command ends. -/
def State.graphFirst (s : State) (c : Cmd) : State :=
  match s.graphSnap c.rcb (recAddr c.rec_) with
  | (.error e, s) => s.cmdFault c e 0
  | (.ok (.error st), s) => (s.torn c.rcb st).endCmd c.id st
  | (.ok (.ok sn), s) => s.modCmd c.id fun d => { d with gsnap := some sn }

/-- The second step: GEN is read again, and the instance starts. -/
def State.graphSecond (s : State) (c : Cmd) (sn : GraphSnap) : State :=
  let s := s.modCmd c.id fun d => { d with gsnap := none }
  match s.graphStart c.rcb (recAddr c.rec_) (recFld c.rec_ 0x10 0 48) (some c.id) sn with
  | (.error (e, acc), s) => s.cmdFault c e acc
  | (.ok st, s) => if st = 0 then s.modCmd c.id fun d => { d with phase := .active } else s.endCmd c.id st

/-- GRAPH (R33, R373): the event takes a launch one step further. -/
def execGraph (s : State) : Outcome State Fault Refusal :=
  runCmd s (fun k => k == 3) fun c s =>
    match c.gsnap with
    | none => s.graphFirst c
    | some sn => s.graphSecond c sn

/-- Is node x an ancestor of node y through the edges (R37, R374)? The fuel is the number of nodes. -/
def ancestor (nodes : List (BitVec 512)) : Nat → Nat → Nat → Bool
  | 0, _, _ => false
  | f + 1, x, y =>
    (List.range nodes.length).any fun p =>
      ((List.range 6).any fun j => nodeSucc (nodes.getD p 0) j == y) && (p == x || ancestor nodes f x p)

/-- The condition of a SELECT (R37, R159). -/
def selCond (c : Nat) (w v : W64) : Bool :=
  match c with
  | 0 => w == v
  | 1 => w != v
  | 2 => w.slt v
  | 3 => v.sle w
  | 4 => w.ult v
  | _ => v.ule w

/-- SELECT (R37, R374). -/
def execSelect (s : State) : Outcome State Fault Refusal :=
  runCmd s (fun k => k == 4) fun c s =>
    match c.src with
    | .queue _ _ _ => s
    | .node iid k =>
      match s.inst? iid with
      | none => s
      | some i =>
        let src := recFld c.rec_ 8 0 8
        if !(ancestor i.nodes i.nodes.length src k) then s.endCmd c.id 6
        else match s.ctlRead (s.cmdPt c) (i.area + 136 + 128 * src) 8 with
          | (.error e, s) => s.cmdFault c e 0
          | (.ok bs, s) => s.endCmd c.id 0 (some (selCond (recFld c.rec_ 8 8 3) (w64 (ofBytes bs)) (recVal c.rec_)))

/-- The copy shadows that a copy descriptor holds (R160). -/
def shadowsOf (bs : List Byte) : Shadows :=
  let d : Nat → W64 := fun i => w64 (ofBytes ((bs.drop (8 * i)).take 8))
  ⟨d 0, d 1, d 2, d 3, d 4, d 5, d 6, d 7⟩

/-- The engine a COPY command goes to: R167 leaves the choice to the device and says that it shows nowhere. The one with
the fewest commands, among those with room. -/
def State.copyEngine (s : State) : Option Nat :=
  argMin (fun t => (tgetD s.copyq t []).length)
    ((List.range 64).filter fun t => ((List.range 8).any fun b => s.bayOn (t * 8 + b)) && !(s.copyFull t))

/-- A COPY command is refused (R160, R323): the code in bytes 0x18..0x1F of the record. -/
def State.copyRefused (s : State) (c : Cmd) (code : Nat) : State :=
  let s := if code = 2 then s.capture (BitVec.ofNat 32 (s.effCapture c.rcb)) .overlap else s
  (s.ctlWriteD (s.cmdPt c) (c.va + 0x18) (toBytes 8 code)).endCmd c.id 1

/-- COPY (R33, R160). -/
def execCopy (s : State) : Outcome State Fault Refusal :=
  runCmd s (fun k => k == 2) fun c s =>
    match s.ctlRead (s.cmdPt c) (recAddr c.rec_) 64 with
    | (.error e, s) => s.cmdFault c e 0
    | (.ok bs, s) =>
      let sh := shadowsOf bs
      if sh.bar.getLsbD 0 then s.endCmd c.id 5
      else match s.launchCheck none (Geo.of sh) true with
        | .error .feature => s.copyRefused c 4
        | .error (.code k) => s.copyRefused c k
        | .ok n =>
          match s.copyEngine with
          | none => s
          | some t =>
            let x := Xfer.zero.launch n s.nextId 0 sh false .copy
            (({ s with nextId := s.nextId + 1 } : State).modCmd c.id fun d =>
              { d with phase := .active, xfer := some x }).copyPut t (.cmd c.id)

end Sys2Proof.Machine
end

