-- ==== Sys2Proof/Machine/Host.lean ====
section
/-! DEFINITION. What happens to the module from outside (R18..R26, R401..R416): power, heat, boot, the host port,
the pod's links, the snapshot pin and the debugger. Each event's docstring says which argument holds what; an event
whose condition does not hold changes nothing. -/

namespace Sys2Proof.Machine

open Host (Outcome)

/-! Power (R18, R23). -/

/-- What is left of memory when the package loses its state: the cells of the host and of other packages (log 26). -/
def outsideMem (m : List Host.Cell) : List Host.Cell := m.filter fun c => isHost c.1 || isRemote c.1

/-- The package right after a package reset (R95, R402): every register at its reset value, the serial flash kept: MINSVN, the
trip record and the boot configuration block (R23, R409, R411). -/
def State.packageReset (s : State) : State :=
  let t : State :=
    { State.reset with
      agenda := s.agenda, cur := s.cur, ev := s.ev, rr := s.rr, free := s.free, nextId := s.nextId, record := s.record
      mem := outsideMem s.mem
      mg := { State.reset.mg with
        inRange := s.mg.inRange, tripRec := s.mg.tripRec, minsvn := s.mg.minsvn, bootCfg := s.mg.bootCfg
        debugHalt := s.mg.debugHalt } }
  if s.mg.tripRec then t.pokeNat (ioBase + 0xB010) 1 1 else t

/-- The package in this power state, with no state of its own but the flash (R18, R23); the clock of the model goes
on. -/
def State.powerLoss (s : State) (p : Power) : State :=
  let t := s.packageReset
  { t with cycle := s.cycle, mg := { t.mg with power := p } }

/-- Does an input of n mV lie in the operating range (R18)? -/
def inputOk (n : Nat) : Bool := decide (46000 ≤ n) && decide (n ≤ 58000)

/-- The input takes a value (R18, R23). Outside the range the package is in reset; a trip ends when the input is
cycled. What counts as cycled is the model's choice (DESIGN CHOICE, log 95): any value outside 46 V to 58 V, low or high. -/
def State.inputChange (s : State) (mv : Nat) : State :=
  if inputOk mv then
    if s.mg.inRange then s
    else
      let s := { s with mg := { s.mg with inRange := true } }
      match s.mg.power with
      | .reset _ => { s with mg := { s.mg with power := .reset (some s.cycle) } }
      | .on | .tripped => s
  else
    let s := s.powerLoss (.reset none)
    { s with mg := { s.mg with inRange := false } }

/-- POWER_INPUT_CHANGE (R18): the input is now n mV. -/
def execPowerInputChange (s : State) : Outcome State Fault Refusal := .next (s.inputChange s.ev.n)

/-- clk in 10 ms and in 100 ms (R8). -/
def tenMs : Nat := 13000000
def hundredMs : Nat := 130000000

/-- POWER_GOOD_TIMER (R18): the input has stayed in its range for 10 ms, and power-on reset ends. -/
def execPowerGoodTimer (s : State) : Outcome State Fault Refusal :=
  .next (match s.mg.power with
    | .reset (some t) => if t + tenMs ≤ s.cycle then s.packageReset else s
    | _ => s)

/-- THRCAUSE of a sample (R21, R408): bit 0 power over the mean of ten samples in mW, bit 1 a junction over 100 °C,
given in thousandths of a degree. Samples not yet taken count 0. -/
def throttleCause (samples : List Nat) (temp : Nat) : Nat :=
  b2n (decide (27000000 < (samples.take 10).foldl (· + ·) 0)) + 2 * b2n (decide (100000 < temp))

/-- One power sample (R21): throttling begins, lasts or ends, and the management status page reports it (R408). -/
def State.powerSample (s : State) (mw temp : Nat) : State :=
  let l := (mw :: s.mg.samples).take 10
  let c := throttleCause l temp
  let on := s.mg.throttled
  let s := { s with mg := { s.mg with samples := l, throttled := c != 0 } }
  if c ≠ 0 then
    if on then s.pokeNat (ioBase + 0xB018) 8 (s.nat (ioBase + 0xB018) 8 ||| c)
    else
      let s := s.pokeNat (ioBase + 0xB018) 8 c
      let s := s.pokeNat (ioBase + 0xB020) 8 s.timeNs
      let s := s.pokeNat (ioBase + 0xB028) 8 0
      (s.countUp (cbAddr 0x090) 8 1).raiseIp ipThrottle
  else if on then s.pokeNat (ioBase + 0xB028) 8 s.timeNs
  else s

/-- POWER_SAMPLE (R21): n mW, and n1 thousandths of a degree at the hottest junction. -/
def execPowerSample (s : State) : Outcome State Fault Refusal := .next (s.powerSample s.ev.n s.ev.n1)

/-- THERMAL_TRIP (R23): a junction at n thousandths of a degree. -/
def execThermalTrip (s : State) : Outcome State Fault Refusal :=
  .next (if 115000 < s.ev.n then
      let s := s.powerLoss .tripped
      { s with mg := { s.mg with tripRec := true } }
    else s)

/-! Boot (R409..R411). -/

/-- The build record of a fully enabled Skeyda 5 (R24, R25, R28): at TILE it carries the figures of the CHIP row. -/
def Record.full5 : Record :=
  { Record.full9 with
    part := 5, bayen := BitVec.ofNat 512 ((2 ^ 64 - 1) * (1 + 2 ^ 128 + 2 ^ 256 + 2 ^ 384)), chiplets := 0x55
    stackMask := 0x55, sills := 0, links := 0x00FF
    cost := [0x0000_0000_0000_0000, 0x0000_0004_000A_0006, 0x0005_0018_0048_0028, 0x0014_012C_0104_008C,
             0x0032_028A_0258_0140, 0x0032_028A_0258_0140, 0x00C8_0D48_0C80_06A4, 0x07D0_6590_9858_32C8]
    rqlat := [40, 40, 60, 180, 400, 400, 2000, 14000] }

/-- Bytes 0x000..0x0FF of the build record (R24). -/
def Record.bytes (r : Record) : List Byte :=
  toBytes 4 0x5344_4252 ++ toBytes 2 1 ++ toBytes 2 (r.part % 256) ++ toBytes 8 r.serial.toNat ++ toBytes 8 r.lot.toNat
  ++ toBytes 64 r.bayen.toNat ++ toBytes 1 r.stackMask.toNat ++ toBytes 1 r.sills.toNat ++ toBytes 2 r.links.toNat
  ++ toBytes 4 r.chiplets.toNat ++ List.replicate 16 0
  ++ ((List.range 8).flatMap fun l => toBytes 8 (r.cost.getD l 0).toNat)
  ++ ((List.range 8).flatMap fun l => toBytes 2 (r.rqlat.getD l 0).toNat) ++ List.replicate 64 0

/-- The checks of R25 beside the signature. -/
def Record.ok (r : Record) : Bool :=
  (if r.part = 9 then r.chiplets == 0xFF && r.stackMask == 0xFF && r.links == 0xFFFF && r.sills == 0xFF
   else r.part == 5 && r.chiplets == 0x55 && r.stackMask == 0x55 && r.links == 0x00FF && r.sills == 0)
  && ((List.range 512).all fun n => !(r.bayen.getLsbD n) || r.chiplets.getLsbD (n / 64)) && r.bayen != 0

/-- Does the boot ROM accept the record (R25)? -/
def Record.accepted (r : Record) : Bool := r.ok && signatureOk r.bytes r.sig

/-- BOOTSTAT (R410): the step of R409 reached, and the code. -/
def bootstatOf (stage code : Nat) : W64 := w64 (stage * 256 + code)

/-- Fields of an image header (R411). -/
def hdrNat (h : List Byte) (off n : Nat) : Nat := ofBytes ((h.drop off).take n)
def hdrLoad (h : List Byte) : Nat := hdrNat h 0x18 6
def hdrEntry (h : List Byte) : Nat := hdrNat h 0x20 6
def hdrLength (h : List Byte) : Nat := hdrNat h 0x10 4

/-- The header's fields (R411): MAGIC, VERSION, LENGTH, LOAD in stack 0, ENTRY. -/
def hdrOk (h : List Byte) : Bool :=
  h.length == 0x160 && hdrNat h 0 4 == 0x5346_574D && hdrNat h 4 2 == 1 && decide (1 ≤ hdrLength h)
  && decide (hdrLength h ≤ 2 ^ 28) && hdrLoad h % 4096 == 0 && decide (hdrLoad h + hdrLength h ≤ stackBytes)
  && hdrEntry h % 4 == 0

/-- Why a boot that has reached a step fails (R409, R410), as stage and code; none when it succeeds. The network's outcome is 0,
or the code 3 or 4. A body whose hash differs fails like a signature (log 35). -/
def bootFail (r : Record) (minsvn stage net : Nat) (hdr body : List Byte) : Option (Nat × Nat) :=
  if decide (stage < 2) && !r.accepted then some (2, 2)
  else if stage < 3 ∧ net = 3 then some (3, 3)
  else if stage < 4 ∧ net = 4 then some (4, 4)
  else if !(hdrOk hdr) then some (5, 5)
  else if !(signatureOk (hdr.take 0x100) (hdr.drop 0x100)) then some (5, 6)
  else if hdrNat hdr 8 4 < minsvn then some (5, 7)
  else if body.length ≠ hdrLength hdr ∨ sha384 body ≠ (hdr.drop 0x40).take 48 then some (5, 6)
  else none

/-- A plate core starts at an address (R409): its other registers as after package reset. -/
def Plate.startAt (pc : Nat) : Plate := { Plate.zero with run := .running, pc := w64 pc }

/-- The step of R409 that BOOTSTAT names. -/
def State.bootStage (s : State) : Nat := (s.mg.bootstat.extractLsb' 8 8).toNat

/-- A boot fails (R409): BOOTSTAT says so, and one datagram goes out. -/
def State.bootFailed (s : State) (stage code : Nat) : State :=
  { s with mg := { s.mg with
      bootstat := bootstatOf stage code, datagrams := bootstatOf stage code :: s.mg.datagrams } }

/-- The end of a boot (R409): failed, or the body in place and four cores at ENTRY. -/
def State.bootWith (s : State) (net : Nat) (hdr body : List Byte) : State :=
  match bootFail s.record s.mg.minsvn s.bootStage net hdr body with
  | some (stage, code) => s.bootFailed stage code
  | none =>
    let s := s.poke (hdrLoad hdr) body
    let p := Plate.startAt (hdrEntry hdr)
    { s with
      plates := [(0, p), (1, p), (2, p), (3, p)]
      mg := { s.mg with bootstat := bootstatOf 5 1, bodyHash := (hdr.drop 0x40).take 48 } }

/-- Is the module powered? -/
def State.powered (s : State) : Bool := s.mg.power == .on

/-- Is the boot ROM at work (R409, R410)? -/
def State.booting (s : State) : Bool := s.powered && s.mg.bootstat.extractLsb' 0 8 == 0

/-- BOOT (R409): the boot ROM takes every step that is left: bs the image header, bs1 the body, n the network's outcome. -/
def execBoot (s : State) : Outcome State Fault Refusal :=
  .next (if s.booting then s.bootWith s.ev.n s.ev.bs s.ev.bs1 else s)

/-- The boot ROM reaches its next step, up to the fourth (R409, R410); ok says whether the network, or the target, answers. -/
def State.bootStep (s : State) (ok : Bool) : State :=
  let at_ : Nat → State := fun n => { s with mg := { s.mg with bootstat := bootstatOf n 0 } }
  if s.booting then
    match s.bootStage with
    | 0 => at_ 1
    | 1 => if s.record.accepted then at_ 2 else s.bootFailed 2 2
    | 2 => if ok then at_ 3 else s.bootFailed 3 3
    | 3 => if ok then at_ 4 else s.bootFailed 4 4
    | _ => s
  else s

/-- BOOTCTL (R402): the host writes w. -/
def execBootctl (s : State) : Outcome State Fault Refusal :=
  .next (if s.powered && s.ev.w.getLsbD 0 then s.packageReset else s)

/-- RESTART (R249, R402): the host writes w. -/
def execRestart (s : State) : Outcome State Fault Refusal :=
  .next ((List.range 4).foldl (fun (s : State) (p : Nat) =>
    if s.ev.w.getLsbD p && (s.plate p).run == .halted then s.modPlate p fun c => { c with run := .running } else s) s)

/-! The scope discovery table (R29, R189). -/

/-- Bays in one instance of a level, BAY 1 to PKG 6. -/
def levelBays (l : Nat) : Nat :=
  match l with
  | 1 => 1 | 2 => 8 | 3 => 32 | 4 => 64 | 5 => 128 | _ => 512

/-- Does a run of bays contain an enabled one? -/
def State.anyBay (s : State) (lo n : Nat) : Bool := (span lo n).any s.bayOn

/-- Per instance of a level TRUSS 2 to PKG 6 with an enabled bay, how many instances of the next lower level contain one. -/
def State.memberCounts (s : State) (l : Nat) : List Nat :=
  let big := levelBays l
  let small := levelBays (l - 1)
  ((List.range (512 / big)).map fun i =>
    ((List.range (big / small)).filter fun j => s.anyBay (i * big + j * small) small).length).filter (· != 0)

/-- Members of a level, and whether its instances differ in their count (R29). -/
def State.members (s : State) (l : Nat) : Nat × Bool :=
  match l with
  | 0 => (4, false)
  | 1 => (8, false)
  | 7 => (1, false)
  | _ =>
    match s.memberCounts l with
    | [] => (0, false)
    | c :: cs => (cs.foldl min c, cs.any (· != c))

/-- One entry of the table: members, irregular, and the record's figures times a number of hops. -/
def State.sdtEntry (s : State) (l members : Nat) (irr : Bool) (hops : Nat) : List Byte :=
  let c := (s.record.cost.getD l 0).toNat
  toBytes 4 members ++ toBytes 4 (b2n irr) ++ toBytes 4 (hops * fld c 0 16) ++ toBytes 4 (hops * fld c 16 16)
  ++ toBytes 4 (hops * fld c 32 16) ++ toBytes 4 (hops * (s.record.rqlat.getD l 0).toNat) ++ toBytes 8 (hops * (10 * fld c 48 16))

/-- The table of a package that is a pod of one. -/
def State.sdtBytes (s : State) : List Byte :=
  (List.range 8).flatMap fun l => s.sdtEntry l (s.members l).1 (s.members l).2 1

/-- Plate firmware writes into the table, through the translation of plate core 0 (log 96): with the cause where it cannot. -/
def State.sdtStore (s : State) (a : Nat) (bs : List Byte) : Option Cause × State :=
  match s.xlatPlate 0 .write a with
  | (.error c, s) => (some c, s)
  | (.ok p, s) => s.storeAt p.key bs

def State.sdtPut (s : State) (a : Nat) (bs : List Byte) : State := (s.sdtStore a bs).2

/-- Has the boot ended well, with an accepted record and firmware running (R25, R409), and does no context run? -/
def State.beforeContexts (s : State) : Bool :=
  s.mg.bootstat == bootstatOf 5 1 && s.placed.isEmpty && s.parked.isEmpty && s.cmds.isEmpty

/-- Plate firmware builds the table, before any context runs, and points SDTBASE at it (R29). -/
def State.sdtBuild (s : State) (base : Nat) : State :=
  if base % 256 = 0 ∧ base < 2 ^ 47 ∧ s.beforeContexts then
    match s.sdtStore base s.sdtBytes with
    | (some _, s) => s
    | (none, s) => { s with preg := { s.preg with sdtbase := BitVec.ofNat 48 base } }
  else s

/-- Where the level-0 entry of an address stands, when the tables above it are there (R129). -/
def State.slotFrom (s : State) (va : Nat) : Nat → Nat → Option Nat
  | 0, _ => none
  | level + 1, table =>
    let at_ := table + 8 * fld va (12 + 9 * level) 9
    if !(isHbm s at_) || readBad s at_ 8 then none
    else if level = 0 then some at_
    else
      let pte := s.nat at_ 8
      if pte.testBit 0 && !(pte.testBit 1) then s.slotFrom va level (fld pte 12 40 * 4096) else none

/-- Plate firmware maps the table read-only, at SDTBASE, into the context of an RCB (R29): a valid leaf with READ alone, of the frame that
holds the table. -/
def State.sdtMap (s : State) (rcb : Nat) : State :=
  let va := s.preg.sdtbase.toNat
  if va ≠ 0 ∧ isHbm s rcb ∧ rcb % 64 = 0 ∧ s.rcbLevel rcb = 2 then
    match s.xlatPlate 0 .read va with
    | (.error _, s) => s
    | (.ok p, s) =>
      match s.slotFrom va 4 (s.ctxOf rcb).ptbase with
      | some a => if isHbm s p.key then s.pokeNat a 8 (p.key / 4096 * 4096 + 7) else s
      | none => s
  else s

/-! The host port. -/

/-- How a host access completes: with its data, or as Unsupported Request (R402). -/
def State.complete (s : State) (c : Option (List Byte)) : State := { s with mg := { s.mg with completion := c } }

/-- Do n bytes at an offset of the PF's BAR 0 lie in the mailbox (R402)? -/
def inMailbox (off n : Nat) : Bool := decide (0x1000 ≤ off) && decide (off + n ≤ 0x10000)

/-- Bytes written into the mailbox. -/
def State.mailboxWrite (s : State) (off : Nat) (bs : List Byte) : State :=
  { s with mg := { s.mg with mailbox := memWrite s.mg.mailbox (off - 0x1000) bs } }

/-- MAILBOX (R402): the host writes the bytes bs at offset n of BAR 0; only a write to 0x1000 raises IPEND.MGMT. A write that the
table does not map completes as Unsupported Request; one to 0x000..0x017 is of the registers, which have events of their own. -/
def execMailbox (s : State) : Outcome State Fault Refusal :=
  let o := s.ev.n
  .next (if inMailbox o s.ev.bs.length then
      let s := (s.mailboxWrite o s.ev.bs).complete (some [])
      if o = 0x1000 then s.raiseIp ipMgmt else s
    else if o + s.ev.bs.length ≤ 0x18 then s
    else s.complete none)

/-- The host reads n bytes at an offset of the PF's BAR 0 (R402). What RESTART and BOOTCTL read as is a free value (log 97). -/
def State.pfRead (s : State) (off n : Nat) : State :=
  if 1 ≤ n ∧ off + n ≤ 8 then s.complete (some (((toBytes 8 s.mg.bootstat.toNat).drop off).take n))
  else if 1 ≤ n ∧ 8 ≤ off ∧ off / 8 = (off + n - 1) / 8 ∧ off + n ≤ 0x18 then
    ({ s with free := s.free + 1 } : State).complete (some (toBytes n (Config.freeWord s.free).toNat))
  else if 1 ≤ n ∧ inMailbox off n then s.complete (some (memRead s.mg.mailbox (off - 0x1000) n))
  else s.complete none

/-- The host reads n bytes of a doorbell page (R403): 0. -/
def State.doorbellRead (s : State) (n : Nat) : State := s.complete (some (List.replicate n 0))

/-- The new value of an AtomicOp of the host (R401): 2 FetchAdd, 3 Swap, 4 CAS (w compared, w1 swapped in). -/
def hostAtomic (kind size old : Nat) (w w1 : W64) : Option Nat :=
  match kind with
  | 2 => some ((old + w.toNat) % 256 ^ size)
  | 3 => some (w.toNat % 256 ^ size)
  | 4 => if old = w.toNat % 256 ^ size then some (w1.toNat % 256 ^ size) else none
  | _ => none

/-- A host access to cells that may be accessed: kind 0 reads, 1 writes, 2 to 4 are the AtomicOps. A word with an
uncorrectable error completes without data (log 36). -/
def State.hostAccess (s : State) (l : List (Nat × Nat)) (kind : Nat) (a : EvArg) : State :=
  match kind with
  | 0 =>
    if l.any fun p => readBad s p.1 p.2 then s.countUncorr.complete none
    else s.complete (some (l.flatMap fun p => s.bytes p.1 p.2))
  | 1 =>
    let r := l.foldl (fun (x : List Byte × State) (p : Nat × Nat) =>
      (x.1.drop p.2, (x.2.storeAt p.1 (x.1.take p.2)).2)) (a.bs, s)
    r.2.complete (some [])
  | _ =>
    match l with
    | [(k, n)] =>
      if (n = 4 ∨ n = 8) ∧ k % n = 0 then
        match s.loadAt k n with
        | (.error _, s) => s.complete none
        | (.ok old, s) =>
          match hostAtomic kind n old a.w a.w1 with
          | none => s.complete (some (toBytes n old))
          | some v => ((s.storeAt k (toBytes n v)).2).complete (some (toBytes n old))
      else s.complete none
    | _ => s.complete none

/-- Bytes an access touches: those of a write, else n2. -/
def EvArg.size (a : EvArg) (kind : Nat) : Nat := if kind = 1 then a.bs.length else a.n2

/-- PF_BAR2_ACCESS (R402, R404): offset n, kind n1, size n2 or the bytes bs, operands w and w1. -/
def execPfBar2Access (s : State) : Outcome State Fault Refusal :=
  let a := s.ev
  let sz := a.size a.n1
  .next (if 1 ≤ sz ∧ sz ≤ 4096 ∧ a.n1 ≤ 4 ∧ isHbm s a.n ∧ isHbm s (a.n + sz - 1) then s.hostAccess [(a.n, sz)] a.n1 a
    else s.complete none)

/-- The context nodes of the region tree that RCBROOT names: their RCBs lie in local HBM, 64-byte aligned, and no RCB with an ASID
has a first dword of zeros (R30, R182). -/
def State.contexts (s : State) : List Nat :=
  let heads := (s.mem.filter fun c => decide (c.1 % 64 < 8) && isHbm s c.1).map fun c => c.1 / 64 * 64
  heads.eraseDups.filter fun r => s.rcbLevel r == 2 && (s.path r).getLast? == some s.preg.rcbroot.toNat

/-- The page-table base of a VF's aperture (R403), when it is open: the context of that ASID, among the regions the device
knows and in the region tree. -/
def State.aperture (s : State) (v : Nat) : Option Nat :=
  let d := s.nat (ioBase + 0xA000 + 8 * v) 8
  if d.testBit 12 && !(s.inFlr v) then
    (((s.regions ++ s.contexts).map s.ctxOf).find? fun c => c.asid == d % 4096 && c.vf == v).map (·.ptbase)
  else none

/-- May the host access a page through an aperture (R403)? -/
def State.apertureOk (s : State) (pt : Nat) (k : Acc) (va : Nat) : Bool :=
  match s.walk pt va with
  | .leaf pte _ _ _ => permOk pte false k && !(pte.testBit 5) && fld pte 7 2 == 0
  | _ => false

/-- Does the walk of the first page of a host access that does not pass meet an uncorrectable error (R128, R398)? -/
def State.apertureLost (s : State) (pt : Nat) (k : Acc) (ps : List (Nat × Nat)) : Bool :=
  match ps.find? fun p => !(s.apertureOk pt k p.1) with
  | some p => s.walk pt p.1 == .uncorr
  | none => false

/-- The permission an access of this kind needs (R131). -/
def hostAcc (kind : Nat) : Acc := match kind with
  | 0 => .read
  | 1 => .write
  | _ => .atomic

/-- APERTURE_ACCESS (R402, R403): VF n, address n1, size n2 or the bytes bs, kind n3, operands w and w1. -/
def execApertureAccess (s : State) : Outcome State Fault Refusal :=
  let a := s.ev
  let sz := a.size a.n3
  let k := hostAcc a.n3
  .next (match s.aperture a.n with
    | none => s.complete none
    | some pt =>
      if !(decide (1 ≤ sz) && decide (sz ≤ 4096) && decide (a.n3 ≤ 4) && decide (a.n1 + sz ≤ 2 ^ 36)) then s.complete none
      else if s.apertureLost pt k (pagesOf a.n1 sz) then s.countUncorr.complete none
      else if (pagesOf a.n1 sz).all fun p => s.apertureOk pt k p.1 then
        match s.xlatPieces pt false k (pagesOf a.n1 sz) with
        | (.error _, s) => s.complete none
        | (.ok l, s) => s.hostAccess l a.n3 a
      else s.complete none)

/-- Address of the byte of the FLR map that holds a VF's bit (R405). -/
def flrByte (v : Nat) : Nat := ioBase + 0xA800 + v / 8

/-- FUNCTION_LEVEL_RESET (R405): VF n, or the PF where n is 256. -/
def execFunctionLevelReset (s : State) : Outcome State Fault Refusal :=
  let v := s.ev.n
  .next (if 256 ≤ v then s.packageReset
    else
      let s := s.poke (flrByte v) [memGet s.mem (flrByte v) ||| BitVec.ofNat 8 (2 ^ (v % 8))]
      let s : State := { s with mg := { s.mg with
        flr := tput s.mg.flr v s.cycle, flrDone := s.mg.flrDone.filter fun x => x != v } }
      s.raiseIp ipMgmt)

/-- FLR_CLEAR (R405): firmware writes 1 to the bit of VF n. -/
def execFlrClear (s : State) : Outcome State Fault Refusal :=
  .next (if s.ev.n < 256 then s.ioStore (flrByte s.ev.n) [BitVec.ofNat 8 (2 ^ (s.ev.n % 8))] else s)

/-- FLR_TIMEOUT (R405): 100 ms after it began, the FLR of VF n completes; its bit stays. -/
def execFlrTimeout (s : State) : Outcome State Fault Refusal :=
  let v := s.ev.n
  .next (match tget s.mg.flr v with
    | some t =>
      if t + hundredMs ≤ s.cycle then
        { s with mg := { s.mg with flr := tdel s.mg.flr v, flrDone := v :: s.mg.flrDone } }
      else s
    | none => s)

/-- What measurement i covers (R413). -/
def State.measure (s : State) (i : Nat) : List Byte :=
  match i with
  | 1 => Config.bootRom
  | 2 => s.record.bytes ++ s.record.sig
  | 3 => s.mg.bodyHash
  | 4 => s.mg.bootCfg
  | 5 => [s.feat]
  | _ => []

/-- What an index asks for: one measurement, or all. -/
def State.measured (s : State) (i : Nat) : List Byte :=
  if 1 ≤ i ∧ i ≤ 5 then s.measure i else (span 1 5).flatMap s.measure

/-- SPDM_REQUEST (R413): SPDM version n (12 or 13 for 1.2 and 1.3), the request's place n1 in R413's list, index n2. -/
def execSpdmRequest (s : State) : Outcome State Fault Refusal :=
  let a := s.ev
  let ans :=
    if (a.n = 12 ∨ a.n = 13) ∧ a.n1 < 7 then Spdm.answer (Config.spdmAnswer a.n a.n1 a.n2 (s.measured a.n2))
    else Spdm.unsupported
  .next { s with mg := { s.mg with doe := some ans } }

/-! The pod. -/

/-- The POD entry as firmware rewrites it (R29): the packages of the pod, and each figure of one hop times the longest path. -/
def State.sdtPod (s : State) (hops : Nat) : State :=
  let pod := s.mg.pod ||| BitVec.ofNat 64 (2 ^ s.pkgNum)
  if s.preg.sdtbase = 0 then s
  else s.sdtPut (s.preg.sdtbase.toNat + 224) (s.sdtEntry 7 (popCount 64 pod.toNat) false (max 1 hops))

/-- POD_FORMED (R29, R408): firmware writes PKGNUM n with FORMED; w names the packages of the pod, and n1 is its longest path in
hops. -/
def execPodFormed (s : State) : Outcome State Fault Refusal :=
  .next (if s.formed then s
    else
      let s : State := { s with mg := { s.mg with pod := s.ev.w } }
      (s.ioStore (ioBase + 0xB008) (toBytes 8 (s.ev.n % 64 + 256))).sdtPod s.ev.n1)

/-- Address of LINKSTATE_k (R408). -/
def linkAddr (k : Nat) : Nat := ioBase + 0xB100 + 8 * k

/-- LINKSTATE_k and NBPKG. -/
def State.linkState (s : State) (k : Nat) : Nat := fld (s.nat (linkAddr k) 8) 0 2
def State.linkPkg (s : State) (k : Nat) : Nat := fld (s.nat (linkAddr k) 8) 8 6

/-- LINK_UP (R408): link n is up to link n2 of package n1. -/
def execLinkUp (s : State) : Outcome State Fault Refusal :=
  let k := s.ev.n
  .next (if k < 16 ∧ s.record.links.getLsbD k then
      let s := s.pokeNat (linkAddr k) 8 (2 + s.ev.n1 % 64 * 256 + s.ev.n2 % 64 * 65536)
      { s with mg := { s.mg with replays := tput s.mg.replays k 0, inRow := tput s.mg.inRow k 0 } }
    else s)

/-- Does a transfer have a chunk on its way to a package? -/
def Xfer.toPkg (x : Xfer) (pkg : Nat) : Bool :=
  x.flight.any fun f => f.writes.any fun c => isRemote c.1 && (c.1 - 2 ^ 58) / 2 ^ 52 == pkg

/-- A transfer with a chunk on its way to a package that no path leads to fails (R407); that chunk sets no bit (landOne). -/
def State.loseXfer (s : State) (pkg : Nat) (r : XRef) : State :=
  match s.xfer? r with
  | none => s
  | some x => if x.toPkg pkg then s.failXfer r 4 else s

/-- Every transfer under way: those of the harts and those of COPY commands. -/
def State.allXfers (s : State) : List XRef :=
  s.placed.flatMap s.hartXfers ++ (s.cmds.filter fun c => c.xfer.isSome).map fun c => .cmd c.id

/-- The bit of a package. -/
def pkgBit (pkg : Nat) : BitVec 64 := BitVec.ofNat 64 (2 ^ (pkg % 64))

/-- A package has become unreachable (R407): what is outstanding to it ends, and later accesses fail until firmware has rerouted. -/
def State.unreachable (s : State) (pkg : Nat) : State :=
  let s : State := { s with mg := { s.mg with cut := s.mg.cut ||| pkgBit pkg } }
  let s := s.allXfers.foldl (fun (s : State) (r : XRef) => s.loseXfer pkg r) s
  let gone : RqRec → Bool := fun q => match q.kind with
    | .enqueue _ => hdlPkg q.handle == pkg
    | .steal _ _ => false
  if s.rq.any gone then ({ s with rq := s.rq.filter fun q => !(gone q) } : State).raiseIp ipUncorr else s

/-- Link k goes down (R407): when it was up, its neighbour becomes unreachable where no other link to it is up, and with it the packages
that only it led to. A link that was only training led nowhere yet, and the package itself stays reachable (DEDUCED, log 114). -/
def State.linkDown (s : State) (k : Nat) (behind : W64) : State :=
  let up := s.linkState k == 2
  let pkg := s.linkPkg k
  let s := (s.pokeNat (linkAddr k) 1 3).raiseIp ipLink
  if !up || (List.range 16).any fun j => s.linkState j == 2 && s.linkPkg j == pkg then s
  else ((List.range 64).filter fun p => p != s.pkgNum && (p == pkg || behind.getLsbD p)).foldl State.unreachable s

/-- Is link k up or training? -/
def State.linkLive (s : State) (k : Nat) : Bool := decide (k < 16) && (s.linkState k == 1 || s.linkState k == 2)

/-- LINK_DOWN (R407): link n loses lane lock, when it is up or training; w names packages that only its neighbour leads to. -/
def execLinkDown (s : State) : Outcome State Fault Refusal :=
  .next (if s.linkLive s.ev.n then s.linkDown s.ev.n s.ev.w else s)

/-- LINK_REPLAY (R407): a CRC error on link n; n1 is 1 when the flit is the one of the last replay. The 64th replay in a row of one
flit takes the link down, with w as LINK_DOWN has it. -/
def execLinkReplay (s : State) : Outcome State Fault Refusal :=
  let k := s.ev.n
  .next (if k < 16 ∧ s.record.links.getLsbD k then
      let row := if s.ev.n1 = 1 then tgetD s.mg.inRow k 0 + 1 else 1
      let t := s.countUp (cbAddr (0x100 + 8 * k)) 8 1
      let t : State := { t with mg := { t.mg with
        replays := tput s.mg.replays k (tgetD s.mg.replays k 0 + 1), inRow := tput s.mg.inRow k row } }
      if 64 ≤ row ∧ t.linkLive k then t.linkDown k s.ev.w else t
    else s)

/-! The pin and the debugger. -/

/-- SNAP_PIN (R114): the pin triggers a snapshot where SNAPCTL.PINEN is set. -/
def execSnapPin (s : State) : Outcome State Fault Refusal := .next (if s.preg.pinen then s.snapTrigger else s)

/-- DEBUGGER_HALT (R344): bay n is halted (n1 = 1) or let go (n1 = 0). The harts of a halted bay issue nothing; its
translation cache goes on to acknowledge, and CYCLE and TIME go on (R196). -/
def execDebuggerHalt (s : State) : Outcome State Fault Refusal :=
  let l := s.mg.debugHalt.filter fun b => b != s.ev.n
  .next { s with mg := { s.mg with debugHalt := if s.ev.n1 = 1 then s.ev.n :: l else l } }

end Sys2Proof.Machine
end

