-- ==== Sys2Proof/Machine/Sync.lean ====
section
/-! DEFINITION. Stream loads, stage barriers, the truss barrier and ring rotation: majors 0x14 and 0x15 (R327..R330),
with the events that fill a stream load's entry and release a truss. -/

namespace Sys2Proof.Machine

open Host (Outcome)

/-! Stream loads. -/

/-- The first of these reads that no range holds (R117). -/
def State.firstOut (s : State) (ag : Agent) (us : List (Nat × Nat)) : Option Nat :=
  (us.find? fun u => s.placeOf ag u.1 u.2 == .bounds).map (·.1)

/-- Translates reads one after another; an error names the address. -/
def State.slXlat (s : State) (ag : Agent) : List (Nat × Nat) → Except (Cause × Nat) (List Phys) × State
  | [] => (.ok [], s)
  | (va, n) :: t =>
    match (match s.placeOf ag va n with
      | .bounds => ((.error .bounds : Except Cause Phys), s)
      | .scratch k => (.ok ⟨k, false⟩, s)
      | .paged => s.paged ag .read va) with
    | (.error c, s) => (.error (c, va), s)
    | (.ok k, s) =>
      match s.slXlat ag t with
      | (.error e, s) => (.error e, s)
      | (.ok ks, s) => (.ok (k :: ks), s)

/-- The reads of a stream load, one after another through the bay's L1 (R124, R328); an error names its address. -/
def State.slRead (s : State) (ag : Agent) : List ((Nat × Nat) × Phys) → Except Nat (List Byte) × State
  | [] => (.ok [], s)
  | (u, p) :: t =>
    match s.readAs ag p u.2 with
    | (.error _, s) => (.error u.1, s)
    | (.ok v, s) =>
      match s.slRead ag t with
      | (.error e, s) => (.error e, s)
      | (.ok bs, s) => (.ok (toBytes u.2 v ++ bs), s)

/-- A stream load whose reads are given in order with their sizes, each in one page: checks in the order of R235, the
reservation, and the entry that the data will fill (R328). image answers the register image, or the address that a
decode error names. -/
def State.streamLoad (s : State) (srcs : List RCode) (a : RCode) (us : List (Nat × Nat)) (misaligned : Option Nat)
    (image : List Byte → Except Nat Nat) : State :=
  let h := s.curHart
  match s.firstOut s.cur us with
  | some va => s.raise .bounds (w64 va)
  | none =>
    match misaligned with
    | some va => s.raise .align (w64 va)
    | none =>
      match s.slXlat s.cur us with
      | (.error e, s) => s.raiseAcc e.1 (w64 e.2) 0
      | (.ok ks, s) =>
        let entry : AEntry × State :=
          match s.slRead s.cur (us.zip ks) with
          | (.error va, s) => (.failing (w64 va), s)
          | (.ok bs, s) => match image bs with
            | .ok v => (.filling (BitVec.ofNat 1024 v), s)
            | .error va => (.failing (w64 va), s)
        let s := entry.2.aPop srcs
        (s.modR h fun r =>
          { r with ae := tput r.ae (a.toNat - 4) (tgetD r.ae (a.toNat - 4) [] ++ [entry.1]) }).advance

/-- The reads of n bytes from an address in 8-byte units (R328). -/
def units8 (va n : Nat) : List (Nat × Nat) := (List.range (n / 8)).map fun i => (va + 8 * i, 8)

/-- SLD (R327). -/
def execSld (a b : RCode) (s : State) : Outcome State Fault Refusal :=
  withA (.sld a b) [b] [a] s fun v s =>
    let va := (v.getD 0 0).toNat
    let n := s.vlen s.curHart / 8
    s.streamLoad [b] a (units8 va n) (if va % n = 0 then none else some va) fun bs => .ok (ofBytes bs)

/-- SLDS (R327). -/
def execSlds (a b c : RCode) (s : State) : Outcome State Fault Refusal :=
  withA (.slds a b c) [b, c] [a] s fun v s =>
    let base := v.getD 0 0
    let st := v.getD 1 0
    let n := s.vlen s.curHart / 32
    let us := (List.range n).map fun i => ((base + w64 i * st).toNat, 4)
    s.streamLoad [b, c] a us ((us.find? fun u => u.1 % 4 != 0).map (·.1)) fun bs => .ok (ofBytes bs)

/-- SLDZ (R327, R328). -/
def execSldz (a b c : RCode) (s : State) : Outcome State Fault Refusal :=
  withA (.sldz a b c) [b, c] [a] s fun v s =>
    let va := (v.getD 0 0).toNat
    let base := fld (v.getD 1 0).toNat 0 48
    let n := fld (v.getD 1 0).toNat 48 16 + 1
    let vb := s.vlen s.curHart / 8
    if va < base ∨ base + 512 * n ≤ va then s.raise .bounds (w64 va)
    else
      let i := (va - base) / 512
      let hdr := base + 512 * n + 2 * i
      let mis := if va % vb ≠ 0 then some va else if base % 512 ≠ 0 then some base else none
      s.streamLoad [b, c] a ((hdr, 2) :: units8 (base + 512 * i) 512) mis fun bs =>
        match decodeBlock (ofBytes (bs.take 2)) (bs.drop 2) with
        | some raw => .ok (ofBytes ((raw.drop (va - base - 512 * i)).take vb))
        | none => .error hdr

/-- The first entry that waits for its data, filled or failed (R328). -/
def fillFirst : List AEntry → List AEntry
  | [] => []
  | .filling v :: t => .full v :: t
  | .failing va :: t => .failed va :: t
  | e :: t => e :: fillFirst t

/-- STREAM_LOAD_FILL (R328): queue n1 of hart n. -/
def execStreamLoadFill (s : State) : Outcome State Fault Refusal :=
  .next (s.modR s.ev.n fun r => { r with ae := tput r.ae s.ev.n1 (fillFirst (tgetD r.ae s.ev.n1 [])) })

/-! Stage barriers. -/

/-- The cell of the barrier at an address, behind the checks of R329; bad ECC words trap UNCORR (R128). -/
def State.barAt (s : State) (va : W64) (reads : Bool) : Except Cause Nat × State :=
  match s.placeH s.curHart va.toNat 1 with
  | .scratch k =>
    if va.toNat % 16 ≠ 0 then (.error .align, s)
    else if reads && readBad s k 16 then (.error .uncorr, s.countUncorr)
    else (.ok k, s)
  | _ => (.error .bounds, s)

/-- An instruction that changes a barrier (R203, R329), after a release at the scope rel. -/
def barOp (i : Instr) (srcs : List RCode) (reads : Bool) (rel : Nat) (s : State) (f : Bar → W64 → Bar) :
    Outcome State Fault Refusal :=
  withA i srcs [] s fun v s =>
    match s.barAt (v.getD 0 0) reads with
    | (.error c, s) => s.raise c (v.getD 0 0)
    | (.ok k, s) =>
      let s := s.releaseBy s.cur rel
      ((s.setBar k (f (s.bar k) (v.getD 1 0))).markDirty k 16).aDone0 srcs

/-- BINIT (R329). -/
def execBinit (b c : RCode) (s : State) : Outcome State Fault Refusal :=
  barOp (.binit b c) [b, c] false 0 s fun _ x =>
    { pending := 0, left := fld x.toNat 0 16, count := fld x.toNat 0 16, phase := false }

/-- BEXPECT (R329). -/
def execBexpect (b c : RCode) (s : State) : Outcome State Fault Refusal :=
  barOp (.bexpect b c) [b, c] true 0 s fun r x => r.expect (fld x.toNat 0 32)

/-- BARRIVE (R329): a release at TRUSS, then the arrival. -/
def execBarrive (b : RCode) (s : State) : Outcome State Fault Refusal :=
  barOp (.barrive b) [b] true 2 s fun r _ => r.arrive

/-- BWAIT (R329). -/
def execBwait (b c : RCode) (s : State) : Outcome State Fault Refusal :=
  withA (.bwait b c) [b, c] [] s fun v s =>
    match s.barAt (v.getD 0 0) true with
    | (.error e, s) => s.raise e (v.getD 0 0)
    | (.ok k, s) => if (s.bar k).phase != (v.getD 1 0).getLsbD 0 then (s.acquireBy s.cur 2).aDone0 [b, c] else s.standAt .bwait

/-- BTEST (R329). -/
def execBtest (a b : RCode) (s : State) : Outcome State Fault Refusal :=
  withA (.btest a b) [b] [a] s fun v s =>
    match s.barAt (v.getD 0 0) true with
    | (.error e, s) => s.raise e (v.getD 0 0)
    | (.ok k, s) => (s.acquireBy s.cur 2).aDone [b] a (w64 (s.nat (k + 8) 8))

/-! The truss. -/

/-- TBAR (R330): the hart arrives, with a release at TRUSS, and waits. -/
def execTbar (s : State) : Outcome State Fault Refusal :=
  gate .tbar s fun s =>
    let s := if (s.hart s.curHart).a.tbarrived then s else s.releaseBy s.cur 2
    (s.modA s.curHart fun a => { a with tbarrived := true }).standAt .tbar

/-- RROT (R330): the hart stands at the rotation once its queues are ready. -/
def execRrot (a b c : RCode) (s : State) : Outcome State Fault Refusal :=
  withA (.rrot a b c) [b, c] [a] s fun _ s => s.standAt (.rrot a b c)

/-- Does what an agent does, and leaves the executing agent as it was. -/
def State.asAgent (s : State) (ag : Agent) (f : State → State) : State :=
  { f { s with cur := ag } with cur := s.cur }

/-- Does the A-stream of a hart wait at a TBAR? -/
def Hart.atTbar (v : Hart) : Bool := v.a.wait == .tbar && !v.a.ended

/-- The fields of the RROT a hart waits at. -/
def Hart.atRrot (v : Hart) : Option (RCode × RCode × RCode) :=
  match v.a.wait with
  | .rrot a b c => if v.a.ended then none else some (a, b, c)
  | _ => none

/-- The harts of the truss step that hart h belongs to, or none when it holds no truss step. -/
def State.trussStep (s : State) (h : Nat) : List Nat :=
  if (s.hart h).occ && (s.hart h).id.truss then s.stepHarts h else []

/-- All eight harts complete a TBAR, each with an acquire at TRUSS. -/
def State.tbarDone (s : State) (hs : List Nat) : State :=
  hs.foldl (fun s h => s.asAgent (.aStream h) fun s =>
    ((s.acquireBy s.cur 2).modA h fun a => { a with tbarrived := false }).advance) s

/-- The operands of a hart's RROT: destination, sources, value and distance. -/
def State.rrotOf (s : State) (h : Nat) : RCode × List RCode × W64 × Nat :=
  match (s.hart h).atRrot with
  | some (a, b, c) =>
    let v := ({ s with cur := .aStream h } : State).aVals [] [b, c]
    (a, [b, c], v.getD 0 0, (v.getD 1 0).toNat % 8)
  | none => (0, [], 0, 0)

/-- All eight harts complete an RROT: each takes the value of the hart at its distance. -/
def State.rrotDone (s : State) (hs : List Nat) : State :=
  let ops := hs.map s.rrotOf
  (List.range hs.length).foldl (fun t i =>
    let o := ops.getD i (0, [], 0, 0)
    let v := (ops.getD ((i + o.2.2.2) % 8) (0, [], 0, 0)).2.2.1
    t.asAgent (.aStream (hs.getD i 0)) fun t => t.aDone o.2.1 o.1 v) s

/-- TRUSS_BARRIER_RELEASE (R330): once all eight A-streams of the step of hart n stand at a TBAR, or all at an RROT. -/
def execTrussBarrierRelease (s : State) : Outcome State Fault Refusal :=
  let hs := s.trussStep s.ev.n
  .next (if hs.isEmpty then s
    else if hs.all fun h => (s.hart h).atTbar then s.tbarDone hs
    else if hs.all fun h => (s.hart h).atRrot.isSome then s.rrotDone hs
    else s)

end Sys2Proof.Machine
end

