-- ==== Sys2Proof/Machine/Sys.lean ====
section
/-! DEFINITION. Fences and system instructions: majors 0x11 and 0x12 (R243..R255), and the event that completes a pair
of fences. GLAUNCH stands in Graph.lean, SCOPEOF and KILLCK in Ridge.lean. -/

namespace Sys2Proof.Machine

open Host (Outcome)

/-! Fences. -/

/-- A pending row trap lands at an E-stream fence, MSWAP or STEPEND (R87). -/
def State.rowTrapAny (s : State) (h : Nat) (body : State → State) : State :=
  match (s.hart h).m.rowTraps with
  | r :: _ => s.rowTrapAt h r
  | [] => body s

/-- An E-stream instruction that names no operand completes. -/
def State.eStep (s : State) (h : Nat) : State := (s.dropKept h).advance

/-- A fence of a kind and a scope (R244, R245): VV and a plate core's ALL do not pair; the others wait for their partner. A fence,
MSWAP or STEPEND does not wait for a row that is still in flight: flags that it raises later are not visible after the fence, and
one that is enabled traps at a later use, or never (R87 and R88 do not say; DESIGN CHOICE, log 88). -/
def fenceOp (i : Instr) (kind : Nat) (scope : BitVec 3) (s : State) : Outcome State Fault Refusal :=
  gate i s fun s =>
    match s.cur with
    | .plate _ => s.advance
    | .aStream _ => s.standAt (.fence kind scope)
    | .eStream h => s.rowTrapAny h fun s => if kind = 2 then s.eStep h else s.standAt (.fence kind scope)

/-- FENCE.SV (R244). -/
def execFenceSv (sc : BitVec 3) (s : State) : Outcome State Fault Refusal := fenceOp (.fenceSv sc) 0 sc s

/-- FENCE.VS (R244). -/
def execFenceVs (sc : BitVec 3) (s : State) : Outcome State Fault Refusal := fenceOp (.fenceVs sc) 1 sc s

/-- FENCE.VV (R245). -/
def execFenceVv (sc : BitVec 3) (s : State) : Outcome State Fault Refusal := fenceOp (.fenceVv sc) 2 sc s

/-- FENCE.ALL (R244, R245). -/
def execFenceAll (sc : BitVec 3) (s : State) : Outcome State Fault Refusal := fenceOp (.fenceAll sc) 3 sc s

/-- Does a stream stand at a pairing fence (R244)? -/
def Wait.isFence : Wait → Bool
  | .fence _ _ => true
  | _ => false

/-- Do both streams of a hart stand at fences? -/
def Hart.pairReady (v : Hart) : Bool :=
  v.occ && !v.a.ended && !v.e.ended && v.a.wait.isFence && v.e.wait.isFence

/-- Does a fence order from the A-stream to the E-stream, and the other way (R244)? -/
def Wait.ordersSV : Wait → Bool
  | .fence k _ => k == 0 || k == 3
  | _ => false
def Wait.ordersVS : Wait → Bool
  | .fence k _ => k == 1 || k == 3
  | _ => false

/-- The scope of a fence. -/
def Wait.scope : Wait → Nat
  | .fence _ s => s.toNat
  | _ => 0

/-- What a pair of fences of a hart orders (R244, R245): the directions that either member names, at the narrower scope. At TRUSS
or wider the A-stream's side writes the bay's L1 back where it releases, and drops the clean lines where it acquires. -/
def State.pairOrders (s : State) (h : Nat) : State :=
  let v := s.hart h
  let sc := min v.a.wait.scope v.e.wait.scope
  let s := if v.a.wait.ordersSV || v.e.wait.ordersSV then s.releaseBy (.aStream h) sc else s
  if v.a.wait.ordersVS || v.e.wait.ordersVS then s.acquireBy (.aStream h) sc else s

/-- FENCE_PAIR_COMPLETE (R244, R245): both members of hart n's pair complete together. -/
def execFencePairComplete (s : State) : Outcome State Fault Refusal :=
  let h := s.ev.n
  .next (if (s.hart h).pairReady then
      ((s.pairOrders h).asAgent (.aStream h) State.advance).asAgent (.eStream h) fun s => s.eStep h
    else s)

/-! Traps and ends. -/

/-- ECALL (R248). -/
def execEcall (s : State) : Outcome State Fault Refusal := gate .ecall s fun s => s.raise .ecall 0

/-- EBREAK (R248). -/
def execEbreak (s : State) : Outcome State Fault Refusal := gate .ebreak s fun s => s.raise .ebreak 0

/-- ERET (R248, R388). -/
def execEret (s : State) : Outcome State Fault Refusal := gate .eret s State.eret

/-- The number of the executing plate core. -/
def State.curPlate (s : State) : Nat :=
  match s.cur with
  | .plate p => p
  | _ => 0

/-- WFI (R249): the core stands there until an enabled interrupt is pending. -/
def execWfi (s : State) : Outcome State Fault Refusal :=
  gate .wfi s fun s =>
    let p := s.curPlate
    if s.preg.ipend &&& s.preg.ien ≠ 0 then (s.modPlate p fun c => { c with run := .running }).advance
    else s.modPlate p fun c => { c with run := .wfi }

/-- HALT (R249): the core stops, and resumes at the instruction after it. -/
def execHalt (s : State) : Outcome State Fault Refusal :=
  gate .halt s fun s => s.advance.modPlate s.curPlate fun c => { c with run := .halted }

/-- STEPEND (R250): the stream ends its part and stands at this instruction's address. -/
def execStepend (s : State) : Outcome State Fault Refusal :=
  gate .stepend s fun s =>
    match s.cur with
    | .aStream h => (s.goto (s.pcOf s.cur)).modA h fun a => { a with ended := true }
    | .eStream h => s.rowTrapAny h fun s =>
        ((s.dropKept h).goto (s.pcOf s.cur)).modE h fun e => { e with ended := true }
    | .plate _ => s

/-- The command whose body a hart executes (R251): the producer's node in the first body of a spliced step. -/
def State.bodyNode (s : State) (h : Nat) : Option Cmd :=
  match s.cmd? (s.hart h).id.node with
  | none => none
  | some c =>
    match c.run.bind (·.splice) with
    | some sp => if (s.hart h).r.bodyC then some c else s.cmd? sp.pcmd
    | none => some c

/-- POST (R251): a store with release at PKG to the result word of a graph node's instance; nothing for a launch queue's command. -/
def execPost (b : RCode) (s : State) : Outcome State Fault Refusal :=
  withA (.post b) [b] [] s fun v s =>
    match s.bodyNode s.curHart with
    | some c => match c.src with
      | .node iid i => match s.inst? iid with
        | some g => ((s.releaseBy s.cur 5).aDone0 [b]).ctlWriteD (s.ctxOf c.rcb).ptbase (g.area + 136 + 128 * i)
            (toBytes 8 (v.getD 0 0).toNat)
        | none => s.aDone0 [b]
      | .queue _ _ _ => s.aDone0 [b]
    | none => s.aDone0 [b]

/-- SNAP (R114, R255). R114 speaks of a SNAP in a step; that one on a plate core triggers as well is the model's choice (DESIGN
CHOICE, log 89). -/
def execSnap (s : State) : Outcome State Fault Refusal :=
  gate .snap s fun s => (if s.preg.armed && s.preg.useren then s.snapLatch else s).advance

/-- SETSCOPE (R254). A plate core looks at B[2:0] alone (DEDUCED, log 107). -/
def execSetscope (b : RCode) (s : State) : Outcome State Fault Refusal :=
  withA (.setscope b) [b] [] s fun v s =>
    let x := v.getD 0 0
    let a : BitVec 3 := x.extractLsb' 0 3
    let e : BitVec 3 := x.extractLsb' 3 3
    match s.cur with
    | .plate p =>
      if a = 7 && !(s.has .pod) then s.raise .feature (evalOf (.setscope b))
      else (s.modPlate p fun c => { c with ascope := a }).aDone0 [b]
    | _ =>
      if (a = 7 || e = 7) && !(s.has .pod) then s.raise .feature (evalOf (.setscope b))
      else (s.modA s.curHart fun r => { r with ascope := a, escope := e }).aDone0 [b]

end Sys2Proof.Machine
end

