-- ==== Sys2Proof/Machine/Vector.lean ====
section
/-! DEFINITION. The vector instructions that access no memory: majors 0x20..0x2A, 0x2E and 0x2F (R265..R285). -/

namespace Sys2Proof.Machine

open Host (Outcome)

/-! Shapes. -/

/-- The vector registers of the executing hart, as its instruction sees them. -/
def State.curE (s : State) : ERegs := (s.hart s.curHart).e.view

/-- A result of w bits that raises no flag. -/
def exact (w v : Nat) : Nat × BitVec 5 := (v % 2 ^ w, 0)

/-- Element-wise over groups b and c into group a, in the format of VTYPE; f is given format, width, FRM and two
elements (R265, R268). -/
def vBin (i : Instr) (cls : Nat → Bool) (a b c : RCode) (m : BitVec 2) (s : State)
    (f : Nat → Nat → Nat → Nat → Nat → Nat × BitVec 5) : Outcome State Fault Refusal :=
  let e := s.curE
  let op : EOp := { cls := some cls, derived := [], srcs := [b, c], vecs := [(b, e.g), (c, e.g)], dst := .vec a e.g e.w }
  eRun i s op noPre fun x s =>
    let vb := x.vec 0 e.g
    let vc := x.vec 1 e.g
    .ok (s, eMap x (eSize e.w) m fun k => f e.fmt.toNat e.w e.frm.toNat (elemOf e.w vb k) (elemOf e.w vc k))

/-- Element-wise over group b alone. -/
def vUn (i : Instr) (cls : Nat → Bool) (a b : RCode) (m : BitVec 2) (s : State)
    (f : Nat → Nat → Nat → Nat → Nat × BitVec 5) : Outcome State Fault Refusal :=
  let e := s.curE
  let op : EOp := { cls := some cls, derived := [], srcs := [b], vecs := [(b, e.g)], dst := .vec a e.g e.w }
  eRun i s op noPre fun x s =>
    let vb := x.vec 0 e.g
    .ok (s, eMap x (eSize e.w) m fun k => f e.fmt.toNat e.w e.frm.toNat (elemOf e.w vb k))

/-- Element-wise over b, c and the old value of the destination a, whose elements are wa bits wide in a group of ga
registers. -/
def vTer (i : Instr) (cls : Nat → Bool) (a b c : RCode) (m : BitVec 2) (s : State) (ga wa : Nat)
    (f : Nat → Nat → Nat → Nat → Nat → Nat → Nat × BitVec 5) : Outcome State Fault Refusal :=
  let e := s.curE
  let op : EOp := { cls := some cls, derived := [ga], srcs := [b, c], vecs := [(b, e.g), (c, e.g), (a, ga)], dst := .vec a ga wa }
  eRun i s op noPre fun x s =>
    let vb := x.vec 0 e.g
    let vc := x.vec 1 e.g
    let va := x.e.groupVal x.vlen a ga
    .ok (s, eMap x (eSize (max wa e.w)) m fun k =>
      f e.fmt.toNat e.w e.frm.toNat (elemOf e.w vb k) (elemOf e.w vc k) (elemOf wa va k))

/-- A compare: bit i of mask a (R279). -/
def vCmp (i : Instr) (cls : Nat → Bool) (a : BitVec 3) (b c : RCode) (m : BitVec 2) (s : State)
    (f : Nat → Nat → Nat → Nat → Bool × BitVec 5) : Outcome State Fault Refusal :=
  let e := s.curE
  let op : EOp := { cls := some cls, derived := [], srcs := [b, c], vecs := [(b, e.g), (c, e.g)], dst := .mask a.toNat }
  eRun i s op noPre fun x s =>
    let vb := x.vec 0 e.g
    let vc := x.vec 1 e.g
    .ok (s, eMap x (eSize e.w) m fun k =>
      let r := f e.fmt.toNat e.w (elemOf e.w vb k) (elemOf e.w vc k)
      (b2n r.1, r.2))

/-- The active elements below VL, lowest first. -/
def EIn.actives (x : EIn) (m : BitVec 2) : List Nat := (List.range x.e.vl).filter (x.active m)

/-- Is a format signed (R69)? -/
def fmtSigned (fmt : Nat) : Bool := fmt % 2 == 0

/-- An element as the format's integer. -/
def intOf (fmt w v : Nat) : Int := if fmtSigned fmt then sext w v else ((v % 2 ^ w : Nat) : Int)

/-- The floating format of VTYPE (R71). -/
def fsp (fmt : Nat) : FSpec := (fspecOf fmt).getD spFP32

/-- Mask n of a hart as a number. -/
def ERegs.maskNat (e : ERegs) (n : Nat) : Nat := (tgetD e.mask n 0).toNat

/-! Configuration (R273, R274). -/

/-- VSETVL on the registers: the new configuration and VL. -/
def ERegs.setVl (e : ERegs) (vlen avl : Nat) (g : BitVec 2) (t : BitVec 4) : ERegs :=
  if 14 ≤ t.toNat then { e with vill := true, group := 0, fmt := 0, vl := 0 }
  else { e with vill := false, group := g, fmt := t, vl := min avl (vlen / fmtWidth t.toNat * 2 ^ g.toNat) }

/-- VSETVL (R273). -/
def execVsetvl (a b : RCode) (g : BitVec 2) (t : BitVec 4) (s : State) : Outcome State Fault Refusal :=
  let op : EOp := { cls := none, derived := [], srcs := [b], vecs := [(b, 1)], dst := .vec a 1 (s.vlen s.curHart) }
  eRun (.vsetvl a b g t) s op noPre fun x s =>
    let e := x.e.setVl x.vlen (x.sc 0) g t
    .ok (s.modE x.h fun r => { r with vill := e.vill, group := e.group, fmt := e.fmt, vl := e.vl },
      { EOut.none with writes := [(0, e.vl)] })

/-- WBASE (R274). -/
def execWbase (i : BitVec 12) (s : State) : Outcome State Fault Refusal :=
  gate (.wbase i) s fun s =>
    let h := s.curHart
    let wb := ((s.hart h).e.wb : Int) + sext 12 i.toNat
    if wb < 0 ∨ ((s.hart h).id.rsize : Int) ≤ wb then s.eTrapPre h (TrapInfo.of .regrange (evalOf (.wbase i)))
    else (s.modE h fun e => { e with wb := wb.toNat }).eStep h

/-! Integer arithmetic (R275). -/

/-- VADD (R275). -/
def execVadd (a b c : RCode) (m : BitVec 2) (s : State) : Outcome State Fault Refusal :=
  vBin (.vadd a b c m) clsI a b c m s fun _ w _ x y => exact w (x + y)

/-- VSUB (R275). -/
def execVsub (a b c : RCode) (m : BitVec 2) (s : State) : Outcome State Fault Refusal :=
  vBin (.vsub a b c m) clsI a b c m s fun _ w _ x y => exact w (x + 2 ^ w - y)

/-- VMUL (R275). -/
def execVmul (a b c : RCode) (m : BitVec 2) (s : State) : Outcome State Fault Refusal :=
  vBin (.vmul a b c m) clsI a b c m s fun _ w _ x y => exact w (x * y)

/-- VMULH (R275). -/
def execVmulh (a b c : RCode) (m : BitVec 2) (s : State) : Outcome State Fault Refusal :=
  vBin (.vmulh a b c m) clsI a b c m s fun fmt w _ x y => exact w (wrap (2 * w) (intOf fmt w x * intOf fmt w y) / 2 ^ w)

/-- VAND (R275). -/
def execVand (a b c : RCode) (m : BitVec 2) (s : State) : Outcome State Fault Refusal :=
  vBin (.vand a b c m) clsI a b c m s fun _ w _ x y => exact w (x &&& y)

/-- VOR (R275). -/
def execVor (a b c : RCode) (m : BitVec 2) (s : State) : Outcome State Fault Refusal :=
  vBin (.vor a b c m) clsI a b c m s fun _ w _ x y => exact w (x ||| y)

/-- VXOR (R275). -/
def execVxor (a b c : RCode) (m : BitVec 2) (s : State) : Outcome State Fault Refusal :=
  vBin (.vxor a b c m) clsI a b c m s fun _ w _ x y => exact w (x ^^^ y)

/-- VSLL (R275). -/
def execVsll (a b c : RCode) (m : BitVec 2) (s : State) : Outcome State Fault Refusal :=
  vBin (.vsll a b c m) clsI a b c m s fun _ w _ x y => exact w (x * 2 ^ (y % w))

/-- VSRL (R275). -/
def execVsrl (a b c : RCode) (m : BitVec 2) (s : State) : Outcome State Fault Refusal :=
  vBin (.vsrl a b c m) clsI a b c m s fun _ w _ x y => exact w (x / 2 ^ (y % w))

/-- VSRA (R275). -/
def execVsra (a b c : RCode) (m : BitVec 2) (s : State) : Outcome State Fault Refusal :=
  vBin (.vsra a b c m) clsI a b c m s fun _ w _ x y => exact w (wrap w (sext w x / ((2 ^ (y % w) : Nat) : Int)))

/-- VMIN (R275). -/
def execVmin (a b c : RCode) (m : BitVec 2) (s : State) : Outcome State Fault Refusal :=
  vBin (.vmin a b c m) clsI a b c m s fun _ w _ x y => exact w (if sext w y < sext w x then y else x)

/-- VMAX (R275). -/
def execVmax (a b c : RCode) (m : BitVec 2) (s : State) : Outcome State Fault Refusal :=
  vBin (.vmax a b c m) clsI a b c m s fun _ w _ x y => exact w (if sext w x < sext w y then y else x)

/-- VMINU (R275). -/
def execVminu (a b c : RCode) (m : BitVec 2) (s : State) : Outcome State Fault Refusal :=
  vBin (.vminu a b c m) clsI a b c m s fun _ w _ x y => exact w (Nat.min x y)

/-- VMAXU (R275). -/
def execVmaxu (a b c : RCode) (m : BitVec 2) (s : State) : Outcome State Fault Refusal :=
  vBin (.vmaxu a b c m) clsI a b c m s fun _ w _ x y => exact w (Nat.max x y)

/-- VSADD (R70, R275). -/
def execVsadd (a b c : RCode) (m : BitVec 2) (s : State) : Outcome State Fault Refusal :=
  vBin (.vsadd a b c m) clsI a b c m s fun fmt w _ x y => exact w ((intClamp fmt (intOf fmt w x + intOf fmt w y)).1)

/-- VSSUB (R70, R275). -/
def execVssub (a b c : RCode) (m : BitVec 2) (s : State) : Outcome State Fault Refusal :=
  vBin (.vssub a b c m) clsI a b c m s fun fmt w _ x y => exact w ((intClamp fmt (intOf fmt w x - intOf fmt w y)).1)

/-- The immediate of the VI form, sign-extended to the element width (R212). -/
def vImm (w : Nat) (i : BitVec 7) : Nat := wrap w (sext 7 i.toNat)

/-- VADDI (R275). -/
def execVaddi (a b : RCode) (i : BitVec 7) (m : BitVec 2) (s : State) : Outcome State Fault Refusal :=
  vUn (.vaddi a b i m) clsI a b m s fun _ w _ x => exact w (let y := vImm w i; x + y)

/-- VANDI (R275). -/
def execVandi (a b : RCode) (i : BitVec 7) (m : BitVec 2) (s : State) : Outcome State Fault Refusal :=
  vUn (.vandi a b i m) clsI a b m s fun _ w _ x => exact w (let y := vImm w i; x &&& y)

/-- VORI (R275). -/
def execVori (a b : RCode) (i : BitVec 7) (m : BitVec 2) (s : State) : Outcome State Fault Refusal :=
  vUn (.vori a b i m) clsI a b m s fun _ w _ x => exact w (let y := vImm w i; x ||| y)

/-- VXORI (R275). -/
def execVxori (a b : RCode) (i : BitVec 7) (m : BitVec 2) (s : State) : Outcome State Fault Refusal :=
  vUn (.vxori a b i m) clsI a b m s fun _ w _ x => exact w (let y := vImm w i; x ^^^ y)

/-- VSLLI (R275). -/
def execVslli (a b : RCode) (i : BitVec 7) (m : BitVec 2) (s : State) : Outcome State Fault Refusal :=
  vUn (.vslli a b i m) clsI a b m s fun _ w _ x => exact w (let y := vImm w i; x * 2 ^ (y % w))

/-- VSRLI (R275). -/
def execVsrli (a b : RCode) (i : BitVec 7) (m : BitVec 2) (s : State) : Outcome State Fault Refusal :=
  vUn (.vsrli a b i m) clsI a b m s fun _ w _ x => exact w (let y := vImm w i; x / 2 ^ (y % w))

/-- VSRAI (R275). -/
def execVsrai (a b : RCode) (i : BitVec 7) (m : BitVec 2) (s : State) : Outcome State Fault Refusal :=
  vUn (.vsrai a b i m) clsI a b m s fun _ w _ x => exact w (let y := vImm w i; wrap w (sext w x / ((2 ^ (y % w) : Nat) : Int)))

/-- An element-wise result from nothing but the element's number. -/
def vGen (i : Instr) (cls : Nat → Bool) (a : RCode) (m : BitVec 2) (s : State) (f : Nat → Nat → Nat) :
    Outcome State Fault Refusal :=
  let e := s.curE
  let op : EOp := { cls := some cls, derived := [], srcs := [], vecs := [], dst := .vec a e.g e.w }
  eRun i s op noPre fun x s => .ok (s, eMap x (eSize e.w) m fun k => exact e.w (f e.w k))

/-- VMVI (R275). -/
def execVmvi (a : RCode) (i : BitVec 7) (m : BitVec 2) (s : State) : Outcome State Fault Refusal :=
  vGen (.vmvi a i m) clsI a m s fun w _ => vImm w i

/-- VID (R283). -/
def execVid (a : RCode) (m : BitVec 2) (s : State) : Outcome State Fault Refusal :=
  vGen (.vid a m) clsI a m s fun _ k => k

/-! Floating arithmetic (R276, R277). -/

/-- VFADD (R276). -/
def execVfadd (a b c : RCode) (m : BitVec 2) (s : State) : Outcome State Fault Refusal :=
  vBin (.vfadd a b c m) clsF a b c m s fun fmt _ frm x y => fpAdd (fsp fmt) frm ((fsp fmt).decode x) ((fsp fmt).decode y)

/-- VFSUB (R276). -/
def execVfsub (a b c : RCode) (m : BitVec 2) (s : State) : Outcome State Fault Refusal :=
  vBin (.vfsub a b c m) clsF a b c m s fun fmt _ frm x y => fpAdd (fsp fmt) frm ((fsp fmt).decode x) ((fsp fmt).decode y).neg

/-- VFMUL (R276). -/
def execVfmul (a b c : RCode) (m : BitVec 2) (s : State) : Outcome State Fault Refusal :=
  vBin (.vfmul a b c m) clsF a b c m s fun fmt _ frm x y => fpMul (fsp fmt) frm ((fsp fmt).decode x) ((fsp fmt).decode y)

/-- VFDIV (R276). -/
def execVfdiv (a b c : RCode) (m : BitVec 2) (s : State) : Outcome State Fault Refusal :=
  vBin (.vfdiv a b c m) clsF a b c m s fun fmt _ frm x y => fpDiv (fsp fmt) frm ((fsp fmt).decode x) ((fsp fmt).decode y)

/-- VFMIN (R276). -/
def execVfmin (a b c : RCode) (m : BitVec 2) (s : State) : Outcome State Fault Refusal :=
  vBin (.vfmin a b c m) clsF a b c m s fun fmt _ _ x y => fpMinMax (fsp fmt) false x y

/-- VFMAX (R276). -/
def execVfmax (a b c : RCode) (m : BitVec 2) (s : State) : Outcome State Fault Refusal :=
  vBin (.vfmax a b c m) clsF a b c m s fun fmt _ _ x y => fpMinMax (fsp fmt) true x y

/-- VFSGN (R276). -/
def execVfsgn (a b c : RCode) (m : BitVec 2) (s : State) : Outcome State Fault Refusal :=
  vBin (.vfsgn a b c m) clsF a b c m s fun fmt _ _ x y => fpSgn (fsp fmt) x y

/-- VFSQRT (R276). -/
def execVfsqrt (a b : RCode) (m : BitVec 2) (s : State) : Outcome State Fault Refusal :=
  vUn (.vfsqrt a b m) clsF a b m s fun fmt _ frm x => fpSqrt (fsp fmt) frm ((fsp fmt).decode x)

/-- A fused multiply-add in the format of VTYPE, with the signs of product and accumulator (R277). -/
def vFma (i : Instr) (a b c : RCode) (m : BitVec 2) (s : State) (np na : Bool) : Outcome State Fault Refusal :=
  let e := s.curE
  vTer i clsF a b c m s e.g e.w fun fmt _ frm x y z =>
    let f := fsp fmt
    let p := f.decode x
    let q := f.decode z
    fpFma f frm (if np then p.neg else p) (f.decode y) (if na then q.neg else q)

/-- VFMA (R277). -/
def execVfma (a b c : RCode) (m : BitVec 2) (s : State) : Outcome State Fault Refusal :=
  vFma (.vfma a b c m) a b c m s false false

/-- VFMS (R277). -/
def execVfms (a b c : RCode) (m : BitVec 2) (s : State) : Outcome State Fault Refusal :=
  vFma (.vfms a b c m) a b c m s false true

/-- VFNMA (R277). -/
def execVfnma (a b c : RCode) (m : BitVec 2) (s : State) : Outcome State Fault Refusal :=
  vFma (.vfnma a b c m) a b c m s true true

/-- VFNMS (R277). -/
def execVfnms (a b c : RCode) (m : BitVec 2) (s : State) : Outcome State Fault Refusal :=
  vFma (.vfnms a b c m) a b c m s true false

/-- The formats of VFMAW: FP16 and BF16. -/
def clsH (f : Nat) : Bool := f == 7 || f == 8

/-- VFMAW (R277): an FP32 accumulator group of 2G registers. -/
def execVfmaw (a b c : RCode) (m : BitVec 2) (s : State) : Outcome State Fault Refusal :=
  let e := s.curE
  vTer (.vfmaw a b c m) clsH a b c m s (2 * e.g) 32 fun fmt _ frm x y z =>
    fpFma spFP32 frm ((fsp fmt).decode x) ((fsp fmt).decode y) (spFP32.decode z)

/-! Conversion (R278). -/

/-- Size of a group of elements of another width (R265): below 1 it is one register. -/
def groupFor (g w wd : Nat) : Nat := max 1 (g * wd / max 1 w)

/-- One element converted (R278): to its own format it stays as it is, but for a NaN or NaR. -/
def convElem (fmt tgt mode v : Nat) : Nat × BitVec 5 :=
  match fmt == tgt, fmtDecode fmt v with
  | true, .nan b => convert (.nan b) tgt mode
  | true, .nar => convert .nar tgt mode
  | true, _ => (v, 0)
  | false, x => convert x tgt mode

/-- VCVT (R278). -/
def vCvt (i : Instr) (a b : RCode) (t : BitVec 4) (m : BitVec 2) (s : State) (mode : Nat) : Outcome State Fault Refusal :=
  let e := s.curE
  let wt := fmtWidth t.toNat
  let gd := groupFor e.g e.w wt
  let op : EOp := { cls := some clsA, derived := [gd], srcs := [b], vecs := [(b, e.g)], dst := .vec a gd wt }
  eRun i s op noPre fun x s =>
    let vb := x.vec 0 e.g
    .ok (s, eMap x (eSize (max e.w wt)) m fun k => convElem e.fmt.toNat t.toNat mode (elemOf e.w vb k))

/-- VCVT.RNE (R278). -/
def execVcvtRne (a b : RCode) (t : BitVec 4) (m : BitVec 2) (s : State) : Outcome State Fault Refusal :=
  vCvt (.vcvtRne a b t m) a b t m s 0

/-- VCVT.RTZ (R278). -/
def execVcvtRtz (a b : RCode) (t : BitVec 4) (m : BitVec 2) (s : State) : Outcome State Fault Refusal :=
  vCvt (.vcvtRtz a b t m) a b t m s 1

/-- VCVT.RDN (R278). -/
def execVcvtRdn (a b : RCode) (t : BitVec 4) (m : BitVec 2) (s : State) : Outcome State Fault Refusal :=
  vCvt (.vcvtRdn a b t m) a b t m s 2

/-- VCVT.RUP (R278). -/
def execVcvtRup (a b : RCode) (t : BitVec 4) (m : BitVec 2) (s : State) : Outcome State Fault Refusal :=
  vCvt (.vcvtRup a b t m) a b t m s 3

/-- VCVT.RNE.SAT (R278). -/
def execVcvtRneSat (a b : RCode) (t : BitVec 4) (m : BitVec 2) (s : State) : Outcome State Fault Refusal :=
  vCvt (.vcvtRneSat a b t m) a b t m s 4

/-- VCVT.RTZ.SAT (R278). -/
def execVcvtRtzSat (a b : RCode) (t : BitVec 4) (m : BitVec 2) (s : State) : Outcome State Fault Refusal :=
  vCvt (.vcvtRtzSat a b t m) a b t m s 5

/-! Compares and masks (R279..R282). -/

/-- VCEQ (R279). -/
def execVceq (a : BitVec 3) (b c : RCode) (m : BitVec 2) (s : State) : Outcome State Fault Refusal :=
  vCmp (.vceq a b c m) clsI a b c m s fun _ _ x y => (x == y, 0)

/-- VCNE (R279). -/
def execVcne (a : BitVec 3) (b c : RCode) (m : BitVec 2) (s : State) : Outcome State Fault Refusal :=
  vCmp (.vcne a b c m) clsI a b c m s fun _ _ x y => (x != y, 0)

/-- VCLT (R279). -/
def execVclt (a : BitVec 3) (b c : RCode) (m : BitVec 2) (s : State) : Outcome State Fault Refusal :=
  vCmp (.vclt a b c m) clsI a b c m s fun _ w x y => (decide (sext w x < sext w y), 0)

/-- VCLE (R279). -/
def execVcle (a : BitVec 3) (b c : RCode) (m : BitVec 2) (s : State) : Outcome State Fault Refusal :=
  vCmp (.vcle a b c m) clsI a b c m s fun _ w x y => (decide (sext w x ≤ sext w y), 0)

/-- VCLTU (R279). -/
def execVcltu (a : BitVec 3) (b c : RCode) (m : BitVec 2) (s : State) : Outcome State Fault Refusal :=
  vCmp (.vcltu a b c m) clsI a b c m s fun _ _ x y => (decide (x < y), 0)

/-- A floating compare: false with a NaN; NV for a signalling NaN, or for any (R279). -/
def fpCmp (f : FSpec) (anyNan : Bool) (p : FVal → FVal → Bool) (x y : Nat) : Bool × BitVec 5 :=
  let a := f.decode x
  let b := f.decode y
  let nan := a.isNan || b.isNan
  (!nan && p a b, if (anyNan && nan) || a.isSig || b.isSig then flNV else 0)

/-- VFCEQ (R279). -/
def execVfceq (a : BitVec 3) (b c : RCode) (m : BitVec 2) (s : State) : Outcome State Fault Refusal :=
  vCmp (.vfceq a b c m) clsF a b c m s fun fmt _ x y => fpCmp (fsp fmt) false (fpEq) x y

/-- VFCLT (R279). -/
def execVfclt (a : BitVec 3) (b c : RCode) (m : BitVec 2) (s : State) : Outcome State Fault Refusal :=
  vCmp (.vfclt a b c m) clsF a b c m s fun fmt _ x y => fpCmp (fsp fmt) true (fpLt false) x y

/-- VFCLE (R279). -/
def execVfcle (a : BitVec 3) (b c : RCode) (m : BitVec 2) (s : State) : Outcome State Fault Refusal :=
  vCmp (.vfcle a b c m) clsF a b c m s fun fmt _ x y => fpCmp (fsp fmt) true (fun p q => !(fpLt false q p)) x y

/-- A mask operation on every bit below VL (R280). -/
def mOp (i : Instr) (a b c : BitVec 3) (s : State) (f : Bool → Bool → Bool) : Outcome State Fault Refusal :=
  let op : EOp := { cls := some clsA, derived := [], srcs := [], vecs := [], dst := .mask a.toNat }
  eRun i s op noPre fun x s =>
    let vb := x.e.maskNat b.toNat
    let vc := x.e.maskNat c.toNat
    .ok (s, eWhole x ((List.range x.e.vl).map fun k => (k, b2n (f (vb.testBit k) (vc.testBit k)))) 0)

/-- MAND (R280). -/
def execMand (a b c : BitVec 3) (s : State) : Outcome State Fault Refusal :=
  mOp (.mand a b c) a b c s (fun p q => p && q)

/-- MOR (R280). -/
def execMor (a b c : BitVec 3) (s : State) : Outcome State Fault Refusal :=
  mOp (.mor a b c) a b c s (fun p q => p || q)

/-- MXOR (R280). -/
def execMxor (a b c : BitVec 3) (s : State) : Outcome State Fault Refusal :=
  mOp (.mxor a b c) a b c s (fun p q => p != q)

/-- MANDN (R280). -/
def execMandn (a b c : BitVec 3) (s : State) : Outcome State Fault Refusal :=
  mOp (.mandn a b c) a b c s (fun p q => p && !q)

/-- A scalar result from a mask (R266, R280). -/
def mScalar (i : Instr) (a : RCode) (b : BitVec 3) (s : State) (f : Nat → Nat → Nat) : Outcome State Fault Refusal :=
  let op : EOp := { cls := some clsA, derived := [], srcs := [], vecs := [], dst := .vec a 1 (s.vlen s.curHart) }
  eRun i s op noPre fun x s => .ok (s, eWhole x [(0, f x.e.vl (x.e.maskNat b.toNat))] 0)

/-- MPOPC (R280). -/
def execMpopc (a : RCode) (b : BitVec 3) (s : State) : Outcome State Fault Refusal :=
  mScalar (.mpopc a b) a b s popCount

/-- MFIRST (R280). -/
def execMfirst (a : RCode) (b : BitVec 3) (s : State) : Outcome State Fault Refusal :=
  mScalar (.mfirst a b) a b s fun vl v => (firstIdx vl v.testBit).getD (2 ^ 64 - 1)

/-- Entry j of a mask pushed by MTOQ (R281). -/
def mtoqEntry (vl v j : Nat) : W64 := w64 (fld (v % 2 ^ vl) (64 * j) 64)

/-- MTOQ pushes entry j and stands before the next one (R281). -/
def State.mtoqPush (s : State) (h q : Nat) (x word : W64) (j : Nat) : State :=
  s.modHart h fun v =>
    { v with
      r := { v.r with ea := tput v.r.ea q (tgetD v.r.ea q [] ++ [x]) }
      e := { v.e with prog := some (v.progAt word (64 * (j + 1))) } }

/-- MTOQ from entry j on, n entries: it pushes what fits, stands while the queue is full, and stops where this turn ends
(R281). -/
def State.mtoq (s : State) (h q vl v : Nat) (word : W64) : Option Nat → Nat → Nat → State
  | _, 0, _ => (s.modE h fun e => e.atBoundary 0).advance
  | lim, n + 1, j =>
    if lim = some 0 then s.modE h fun e => { e with wait := .none }
    else if 8 ≤ (tgetD (s.hart h).r.ea q []).length then s.standAt (.queue [] [q])
    else (s.mtoqPush h q (mtoqEntry vl v j) word j).mtoq h q vl v word (lim.map (· - 1)) n (j + 1)

/-- MTOQ (R281). -/
def execMtoq (a : BitVec 2) (b : BitVec 3) (s : State) : Outcome State Fault Refusal :=
  gate (.mtoq a b) s fun s =>
    let h := s.curHart
    let e := s.curE
    let op : EOp := { cls := some clsA, derived := [], srcs := [], vecs := [], dst := .none }
    match s.eChecks h op with
    | some c => s.eTrapPre h (TrapInfo.of c (evalOf (.mtoq a b)))
    | none =>
      let j := e.vstart / 64
      s.mtoq h a.toNat e.vl (e.maskNat b.toNat) (evalOf (.mtoq a b)) s.limit (ceilDiv e.vl 64 - j) j

/-- Writes a whole mask. -/
def State.putMask (s : State) (h m : Nat) (v : Nat) : State :=
  s.modE h fun e => { e with mask := tput e.mask m (BitVec.ofNat 2048 v) }

/-- VCKM (R282). -/
def execVckm (a : BitVec 3) (b : RCode) (s : State) : Outcome State Fault Refusal :=
  let op : EOp := { cls := none, derived := [], srcs := [b], vecs := [(b, 1)], dst := .none }
  eRun (.vckm a b) s op noPre fun x s =>
    let tid := w64 (x.sc 0)
    match s.live x.h tid with
    | none => .ok (s.putMask x.h a.toNat (2 ^ 64 - 1), EOut.none)
    | some i =>
      let t := s.slot x.h i
      let all : W64 := BitVec.allOnes 64
      if t.state = .failed then
        .ok ((s.cover x.h i all).reported x.h t,
          { EOut.none with stop := some { vstart := 0, cause := .cperr, eval := 0, elem := 0, elaunch := t.launchPc,
                                          etid := tid } })
      else .ok ((if t.ended then s.cover x.h i all else s).putMask x.h a.toNat t.bitmap.toNat, EOut.none)

/-! Permutations (R283). -/

/-- A permutation of group b into group a, committed whole: for each active element below VL its value, or none to
leave it. -/
def vPerm (i : Instr) (a b : RCode) (extra : List RCode) (vecs : List (RCode × Nat)) (m : BitVec 2) (s : State)
    (f : EIn → (Nat → Nat) → Nat → Nat → Option Nat) : Outcome State Fault Refusal :=
  let e := s.curE
  let op : EOp := { cls := some clsA, derived := [], srcs := b :: extra, vecs := (b, e.g) :: vecs, dst := .vec a e.g e.w }
  eRun i s op noPre fun x s =>
    let vb := x.vec 0 e.g
    let vlmax := tlenOf x.vlen x.e * e.g
    let g := f x (elemOf e.w vb) vlmax
    .ok (s, eWhole x ((x.actives m).filterMap fun k => (g k).map fun v => (k, v)) 0)

/-- VSLIDEUP (R283). -/
def execVslideup (a b c : RCode) (m : BitVec 2) (s : State) : Outcome State Fault Refusal :=
  vPerm (.vslideup a b c m) a b [c] [(c, 1)] m s fun x src _ i =>
    if x.sc 1 ≤ i then some (src (i - x.sc 1)) else none

/-- VSLIDEDN (R283). -/
def execVslidedn (a b c : RCode) (m : BitVec 2) (s : State) : Outcome State Fault Refusal :=
  vPerm (.vslidedn a b c m) a b [c] [(c, 1)] m s fun x src vlmax i =>
    some (if i + x.sc 1 < vlmax then src (i + x.sc 1) else 0)

/-- VRGATHER (R283). -/
def execVrgather (a b c : RCode) (m : BitVec 2) (s : State) : Outcome State Fault Refusal :=
  let e := s.curE
  vPerm (.vrgather a b c m) a b [c] [(c, e.g)] m s fun x src vlmax i =>
    let k := elemOf e.w (x.vec 1 e.g) i
    some (if k < vlmax then src k else 0)

/-- VCOMPRESS (R283). -/
def execVcompress (a b : RCode) (c : BitVec 3) (s : State) : Outcome State Fault Refusal :=
  vPerm (.vcompress a b c) a b [] [] 0 s fun x src _ j =>
    let on := bitList x.e.vl (x.e.maskNat c.toNat)
    on[j]?.map src

/-- VEXPAND (R283). -/
def execVexpand (a b : RCode) (c : BitVec 3) (s : State) : Outcome State Fault Refusal :=
  vPerm (.vexpand a b c) a b [] [] 0 s fun x src _ i =>
    let v := x.e.maskNat c.toNat
    if v.testBit i then some (src (popCount i v)) else none

/-- VSPLAT (R283). -/
def execVsplat (a b : RCode) (m : BitVec 2) (s : State) : Outcome State Fault Refusal :=
  let e := s.curE
  let op : EOp := { cls := some clsA, derived := [], srcs := [b], vecs := [(b, 1)], dst := .vec a e.g e.w, scal := [b] }
  eRun (.vsplat a b m) s op noPre fun x s => .ok (s, eMap x (eSize e.w) m fun _ => exact e.w (x.sc 0))

/-- VMERGE (R283): its mask selects data, and every element below VL is written. -/
def execVmerge (a b c : RCode) (m : BitVec 2) (s : State) : Outcome State Fault Refusal :=
  let e := s.curE
  let op : EOp := { cls := some clsA, derived := [], srcs := [b, c], vecs := [(b, e.g), (c, e.g)], dst := .vec a e.g e.w }
  eRun (.vmerge a b c m) s op noPre fun x s =>
    let vb := x.vec 0 e.g
    let vc := x.vec 1 e.g
    .ok (s, eMap x (eSize e.w) 0 fun k => (if x.active m k then elemOf e.w vb k else elemOf e.w vc k, 0))

/-! Reductions (R284). -/

/-- A reduction of the active elements of group b into element 0 of register a, committed whole; f is given format,
width, FRM and the list of all VL positions, none where inactive. -/
def vRed (i : Instr) (cls : Nat → Bool) (a b : RCode) (m : BitVec 2) (s : State)
    (f : Nat → Nat → Nat → List (Option Nat) → Nat × BitVec 5) : Outcome State Fault Refusal :=
  let e := s.curE
  let op : EOp := { cls := some cls, derived := [], srcs := [b], vecs := [(b, e.g)], dst := .vec a 1 e.w }
  eRun i s op noPre fun x s =>
    let vb := x.vec 0 e.g
    let r := f e.fmt.toNat e.w e.frm.toNat
      ((List.range x.e.vl).map fun k => if x.active m k then some (elemOf e.w vb k) else none)
    .ok (s, eWhole x [(0, r.1)] r.2)

/-- VREDSUM (R284). -/
def execVredsum (a b : RCode) (m : BitVec 2) (s : State) : Outcome State Fault Refusal :=
  vRed (.vredsum a b m) clsI a b m s fun _ w _ l => exact w ((l.filterMap id).foldl (· + ·) 0)

/-- The integer extremum of a list; the other end of the format when it is empty (R284). -/
def intRed (isMax : Bool) (fmt w : Nat) (l : List Nat) : Nat :=
  l.foldl (fun r x =>
    if isMax then (if intOf fmt w r < intOf fmt w x then x else r)
    else (if intOf fmt w x < intOf fmt w r then x else r)) (intEnd fmt isMax)

/-- VREDMIN (R284). -/
def execVredmin (a b : RCode) (m : BitVec 2) (s : State) : Outcome State Fault Refusal :=
  vRed (.vredmin a b m) clsI a b m s fun fmt w _ l => exact w (intRed false fmt w (l.filterMap id))

/-- VREDMAX (R284). -/
def execVredmax (a b : RCode) (m : BitVec 2) (s : State) : Outcome State Fault Refusal :=
  vRed (.vredmax a b m) clsI a b m s fun fmt w _ l => exact w (intRed true fmt w (l.filterMap id))

/-- −0 of a floating format. -/
def FSpec.negZero (f : FSpec) : Nat := 2 ^ (f.eb + f.fb)

/-- A sum of two patterns with its flags added to those so far. -/
def fpSum (f : FSpec) (frm : Nat) (x y : Nat) : Nat × BitVec 5 := fpAdd f frm (f.decode x) (f.decode y)

/-- VFREDOSUM (R92, R284): in order, from −0. -/
def execVfredosum (a b : RCode) (m : BitVec 2) (s : State) : Outcome State Fault Refusal :=
  vRed (.vfredosum a b m) clsF a b m s fun fmt _ frm l =>
    let f := fsp fmt
    l.foldl (fun r x =>
      let t := fpSum f frm r.1 (x.getD f.negZero)
      (t.1, r.2 ||| t.2)) (f.negZero, 0)

/-- One level of a pairwise sum (R92). -/
def pairSum (f : FSpec) (frm : Nat) : List Nat → List (Nat × BitVec 5)
  | x :: y :: t => fpSum f frm x y :: pairSum f frm t
  | [x] => [(x, 0)]
  | [] => []

/-- The levels of a pairwise sum, n of them. -/
def treeSum (f : FSpec) (frm : Nat) : Nat → List Nat → BitVec 5 → Nat × BitVec 5
  | 0, l, fl => (l.headD f.negZero, fl)
  | n + 1, l, fl =>
    let r := pairSum f frm l
    treeSum f frm n (r.map (·.1)) (fl ||| r.foldl (fun a p => a ||| p.2) 0)

/-- log2 of the smallest power of two that is at least n, up to 2^12. -/
def log2Up (n : Nat) : Nat := (firstIdx 13 fun k => decide (n ≤ 2 ^ k)).getD 13

/-- VFREDTSUM (R92, R284): pairwise, padded with −0 to a power of two; one element is no addition. -/
def execVfredtsum (a b : RCode) (m : BitVec 2) (s : State) : Outcome State Fault Refusal :=
  vRed (.vfredtsum a b m) clsF a b m s fun fmt _ frm l =>
    let f := fsp fmt
    let n := log2Up l.length
    let vals := l.map (·.getD f.negZero) ++ List.replicate (2 ^ n - l.length) f.negZero
    if n = 0 then
      let x := f.decode (vals.headD f.negZero)
      if x.isNan then (f.cnan, if x.isSig then flNV else 0) else (vals.headD f.negZero, 0)
    else treeSum f frm n vals 0

/-- The floating extremum of a list (R72, R284). -/
def fpRed (f : FSpec) (isMax : Bool) (l : List Nat) : Nat × BitVec 5 :=
  match l with
  | [] => ((infOut f isMax).1, 0)
  | x :: t =>
    t.foldl (fun r y =>
      let q := fpMinMax f isMax r.1 y
      (q.1, r.2 ||| q.2)) (fpMinMax f isMax x x)

/-- VFREDMIN (R284). -/
def execVfredmin (a b : RCode) (m : BitVec 2) (s : State) : Outcome State Fault Refusal :=
  vRed (.vfredmin a b m) clsF a b m s fun fmt _ _ l => fpRed (fsp fmt) false (l.filterMap id)

/-- VFREDMAX (R284). -/
def execVfredmax (a b : RCode) (m : BitVec 2) (s : State) : Outcome State Fault Refusal :=
  vRed (.vfredmax a b m) clsF a b m s fun fmt _ _ l => fpRed (fsp fmt) true (l.filterMap id)

/-- Running sums of the active elements (R284). -/
def scanSums (w : Nat) (v : Nat) : List Nat → Nat → List (Nat × Nat)
  | [], _ => []
  | k :: ks, acc =>
    let t := (acc + elemOf w v k) % 2 ^ w
    (k, t) :: scanSums w v ks t

/-- VSCAN (R284). -/
def execVscan (a b : RCode) (m : BitVec 2) (s : State) : Outcome State Fault Refusal :=
  let e := s.curE
  let op : EOp := { cls := some clsI, derived := [], srcs := [b], vecs := [(b, e.g)], dst := .vec a e.g e.w }
  eRun (.vscan a b m) s op noPre fun x s => .ok (s, eWhole x (scanSums e.w (x.vec 0 e.g) (x.actives m) 0) 0)

/-! Bit operations (R285). -/

/-- VMV (R285). -/
def execVmv (a b : RCode) (m : BitVec 2) (s : State) : Outcome State Fault Refusal :=
  vUn (.vmv a b m) clsA a b m s fun _ w _ x => exact w (x)

/-- VNOT (R285). -/
def execVnot (a b : RCode) (m : BitVec 2) (s : State) : Outcome State Fault Refusal :=
  vUn (.vnot a b m) clsA a b m s fun _ w _ x => exact w (2 ^ w - 1 - x)

/-- VPOPC (R285). -/
def execVpopc (a b : RCode) (m : BitVec 2) (s : State) : Outcome State Fault Refusal :=
  vUn (.vpopc a b m) clsI a b m s fun _ w _ x => exact w (popCount w x)

/-- VCLZ (R285). -/
def execVclz (a b : RCode) (m : BitVec 2) (s : State) : Outcome State Fault Refusal :=
  vUn (.vclz a b m) clsI a b m s fun _ w _ x => exact w (clzN w x)

/-- VCTZ (R285). -/
def execVctz (a b : RCode) (m : BitVec 2) (s : State) : Outcome State Fault Refusal :=
  vUn (.vctz a b m) clsI a b m s fun _ w _ x => exact w (ctzN w x)

/-- VCLMUL (R285). -/
def execVclmul (a b c : RCode) (m : BitVec 2) (s : State) : Outcome State Fault Refusal :=
  vBin (.vclmul a b c m) clsI a b c m s fun _ w _ x y => exact w (clmulN w x y)

/-- VCLMULH (R285). -/
def execVclmulh (a b c : RCode) (m : BitVec 2) (s : State) : Outcome State Fault Refusal :=
  vBin (.vclmulh a b c m) clsI a b c m s fun _ w _ x y => exact w (clmulN w x y / 2 ^ w)

/-- VSEL (R285). -/
def execVsel (a b c : RCode) (m : BitVec 2) (s : State) : Outcome State Fault Refusal :=
  let e := s.curE
  vTer (.vsel a b c m) clsA a b c m s e.g e.w fun _ w _ x y z => exact w ((z &&& x) ||| ((2 ^ w - 1 - z) &&& y))

end Sys2Proof.Machine
end

