-- ==== Sys2Proof/Machine/VMem.lean ====
section
/-! DEFINITION. The vector instructions that access memory: majors 0x2B, 0x2C and 0x2D (R286..R294). -/

namespace Sys2Proof.Machine

open Host (Outcome)

/-! Element accesses. -/

/-- Where an element lies: no memory (a position of a tile outside the tensor), a virtual address, or a cell of the
splice buffer; bit is where a 4-bit element stands in its byte. -/
inductive VPlace where
  | zero
  | va (a : Nat) (bit : Nat)
  | cell (k : Nat) (bit : Nat)
  deriving DecidableEq, Repr

/-- The address an element traps with; 0 for a cell of the splice buffer, which has none (DESIGN CHOICE, log 108). -/
def VPlace.eval : VPlace → W64
  | .va a _ => w64 a
  | _ => 0

def VPlace.bit : VPlace → Nat
  | .zero => 0
  | .va _ b => b
  | .cell _ b => b

/-- Checks 1 to 4 of R286 on an element of nb bytes. -/
def State.vCheck (s : State) (h : Nat) (write : Bool) (nb : Nat) (p : VPlace) : Except Cause (Option Phys) :=
  match p with
  | .zero => .ok none
  | .cell k _ => .ok (some ⟨k, false⟩)
  | .va a _ =>
    if s.placeH h a nb = .bounds then .error .bounds
    else if a % nb ≠ 0 then .error .align
    else match s.xlatV h write a nb with
      | .error c => .error c
      | .ok x => .ok (some x)

/-- Check 5 of R286: atomics and sequentially consistent accesses (R125, R293). -/
def scopeCheck (sc atomic : Bool) (x : Phys) : Option Cause :=
  if (sc || atomic) && isHost x.key && x.dev then some .scope
  else if sc && isRemote x.key then some .scope
  else none

/-- An access instruction over elements: E, where to start, the limit, bytes of an element, the element's place, and
whether it writes. -/
structure VAcc where
  h : Nat
  E : Nat
  vstart : Nat
  n : Nat
  w : Nat
  write : Bool
  sc : Bool
  atomic : Bool
  active : Nat → Bool
  place : Nat → VPlace

/-- Bytes of an element. -/
def VAcc.nb (v : VAcc) : Nat := max 1 (v.w / 8)

/-- An element's checks 1 to 5. -/
def State.vElem (s : State) (v : VAcc) (i : Nat) : Except Cause (Option Phys) :=
  match s.vCheck v.h v.write v.nb (v.place i) with
  | .error c => .error c
  | .ok none => .ok none
  | .ok (some x) => match scopeCheck v.sc v.atomic x with
    | some c => .error c
    | none => .ok (some x)

/-- Does an element's address lie in a DEVICE page (R269), whatever its checks find? -/
def State.vDev (s : State) (h : Nat) : VPlace → Bool
  | .va a _ => match s.xlatV h false a 1 with
    | .ok x => x.dev
    | .error _ => false
  | _ => false

/-- A checked element: its number and what its checks found. -/
abbrev VEl := Nat × Except Cause (Option Phys)

/-- The parts of a group: an element of a DEVICE page stands alone (R269). Each part has the element it starts at. -/
def splitDev (dev : Nat → Bool) : Nat → List VEl → List VEl → List (Nat × List VEl)
  | start, acc, [] => if acc.isEmpty then [] else [(start, acc.reverse)]
  | start, acc, e :: t =>
    if dev e.1 then
      (if acc.isEmpty then [] else [(start, acc.reverse)]) ++ (e.1, [e]) :: splitDev dev (e.1 + 1) [] t
    else splitDev dev start (e :: acc) t

/-- All parts of an instruction in their order, with their checks (R268, R269, R286). -/
def State.vParts (s : State) (v : VAcc) : List (Nat × List VEl) :=
  (groupNos v.E v.vstart v.n).flatMap fun k =>
    let is := (span (k * v.E) v.E).filter fun i => decide (v.vstart ≤ i) && decide (i < v.n) && v.active i
    splitDev (fun i => s.vDev v.h (v.place i)) (max (k * v.E) v.vstart) [] (is.map fun i => (i, s.vElem v i))

/-- The first element of a part that fails checks 1 to 5. -/
def partFault (els : List VEl) : Option (Nat × Cause) :=
  els.findSome? fun e => match e.2 with
    | .error c => some (e.1, c)
    | .ok _ => none

/-- The elements of a part with their cells. -/
def partCells (els : List VEl) : List (Nat × Option Phys) :=
  els.filterMap fun e => match e.2 with
    | .ok x => some (e.1, x)
    | .error _ => none

/-- Does a read go to a package that no path leads to (R407)? -/
def State.vCut (s : State) (v : VAcc) (x : Option Phys) : Bool :=
  match x with
  | some p => !v.write && s.cutKey p.key
  | none => false

/-- Does an element's access meet an uncorrectable error (R128, R407)? -/
def State.vBad (s : State) (v : VAcc) (x : Option Phys) : Bool :=
  match x with
  | some p =>
    s.vCut v x || (if v.write then writeBad s p.key v.nb
      else if p.snooped then s.snoopBad (bayOf v.h) p.key v.nb else readBad s p.key v.nb)
  | none => false

/-- The first element of a part that meets an uncorrectable error. -/
def State.partBad (s : State) (v : VAcc) (cs : List (Nat × Option Phys)) : Option Nat :=
  (cs.find? fun c => s.vBad v c.2).map (·.1)

/-- A stop at an element of a part. -/
def VAcc.stop (v : VAcc) (start i : Nat) (c : Cause) (eval : W64) : EStop :=
  { vstart := max start v.vstart, cause := c, eval := eval, elem := i, elaunch := 0, etid := 0 }

/-- The value an element reads; dirty lines of its own bay's L1 are seen (R124). -/
def State.vRead (s : State) (v : VAcc) (i : Nat) (x : Option Phys) : Nat :=
  match x with
  | some p =>
    fld (if p.snooped then ofBytes (s.snoopBytes (bayOf v.h) p.key v.nb) else s.nat p.key v.nb) (v.place i).bit v.w
  | none => 0

/-- What a part whose elements pass checks 1 to 5 does before it is performed: a sequentially consistent element is a release at
PKG (R353, R363), and the lines of what is written leave the bay's L1 (R124). -/
def State.vBegin (s : State) (v : VAcc) (els : List VEl) : State :=
  match partFault els with
  | some _ => s
  | none =>
    let s := if v.sc then s.l1Release v.h else s
    if v.write then
      (partCells els).foldl (fun s c => match c.2 with
        | some p => if p.snooped then s.l1Flush (bayOf v.h) p.key v.nb else s
        | none => s) s
    else s

/-- What a performed part does last: a sequentially consistent element takes a ticket and is an acquire at PKG (R199, R293, R363). -/
def State.vEnd (s : State) (v : VAcc) : State :=
  if v.sc then ({ s with ticket := s.ticket + 1 } : State).l1Acquire v.h else s

/-- A part fails at checks 1 to 6, or does not: the element and the cause. -/
def State.partStop (s : State) (v : VAcc) (els : List VEl) : Option (Nat × Cause) :=
  match partFault els with
  | some f => some f
  | none => (s.partBad v (partCells els)).map fun i => (i, .uncorr)

/-- Counts an uncorrectable error that element i of a part met; one of a package without a path is none of memory. -/
def State.noteCause (s : State) (v : VAcc) (els : List VEl) (i : Nat) (c : Cause) : State :=
  if c = .uncorr && !((partCells els).any fun p => p.1 == i && s.vCut v p.2) then s.countUncorr else s

/-- Loads the parts in order (R268). -/
def State.vLoads (s : State) (v : VAcc) : List (Nat × List VEl) → EOut → State × EOut
  | [], o => (s, o)
  | (start, els) :: t, o =>
    let s := s.vBegin v els
    match s.partStop v els with
    | some (i, c) => (s.noteCause v els i c, { o with stop := some (v.stop start i c (v.place i).eval) })
    | none =>
      let ws := (partCells els).map fun p => (p.1, s.vRead v p.1 p.2)
      (s.vEnd v).vLoads v t { o with writes := o.writes ++ ws }

/-- Stores one element: its bytes, or its nibble of a byte. -/
def State.vWrite (s : State) (v : VAcc) (i val : Nat) (x : Option Phys) : State :=
  match x with
  | none => s
  | some p =>
    let bytes := if v.w < 8 then toBytes 1 (setFld (memGet s.mem p.key).toNat (v.place i).bit v.w val) else toBytes v.nb val
    (s.storeAt p.key bytes).2

/-- Stores the parts in order; f answers an element's value and the flags of its conversion (R86, R268, R289). -/
def State.vStores (s : State) (v : VAcc) (fpen : BitVec 5) (f : Nat → Nat × BitVec 5) :
    List (Nat × List VEl) → EOut → State × EOut
  | [], o => (s, o)
  | (start, els) :: t, o =>
    let s := s.vBegin v els
    match s.partStop v els with
    | some (i, c) => (s.noteCause v els i c, { o with stop := some (v.stop start i c (v.place i).eval) })
    | none =>
      let rs := (partCells els).map fun p => (p, f p.1)
      let fl := rs.foldl (fun a r => a ||| r.2.2) (0 : BitVec 5)
      if enabled fpen fl ≠ 0 then
        let bad := ((rs.find? fun r => enabled fpen r.2.2 != 0).map (·.1.1)).getD 0
        (s, { o with stop := some (v.stop start bad (fpCause (enabled fpen fl)) 0) })
      else
        let s := rs.foldl (fun s r => s.vWrite v r.1.1 r.2.1 r.1.2) s
        (s.vEnd v).vStores v fpen f t { o with flags := o.flags ||| fl }

/-- The parts an access performs in this turn, and where it stands after them (R269). -/
def EIn.parts (x : EIn) (l : List (Nat × List VEl)) (run : List (Nat × List VEl) → State × EOut) : State × EOut :=
  let r := run (x.cut l)
  (r.1, x.over l (·.1) r.2)

/-! Raw, strided and indexed accesses (R291..R293). -/

/-- Element i of a contiguous access (R291). -/
def rawPlace (base : W64) (w i : Nat) : VPlace := .va (base + w64 (i * w / 8)).toNat (i * w % 8)

/-- Element i of a strided access. -/
def stridePlace (base st : W64) (i : Nat) : VPlace := .va (base + w64 i * st).toNat 0

/-- Element i of an indexed access: a 32-bit signed index. -/
def indexPlace (base : W64) (v i : Nat) : VPlace := .va (base + w64i (sext 32 (elemOf 32 v i))).toNat 0

/-- The access over VL elements of VTYPE's format. -/
def EIn.acc (x : EIn) (E : Nat) (m : BitVec 2) (write sc : Bool) (p : Nat → VPlace) : VAcc :=
  { h := x.h, E := E, vstart := x.e.vstart, n := x.e.vl, w := x.e.w, write := write, sc := sc, atomic := false,
    active := x.active m, place := p }

/-- Size of an index group (R291). -/
def ERegs.idxG (e : ERegs) : Nat := groupFor e.g e.w 32

/-- A load of VTYPE's elements into group a; the sources after the base, with their group sizes, those of them that are scalars,
and E. -/
def vLoadOp (i : Instr) (cls : Nat → Bool) (a b : RCode) (extra : List (RCode × Nat)) (scal : List RCode) (m : BitVec 2)
    (s : State) (E : Nat) (sc : Bool) (p : EIn → Nat → VPlace) : Outcome State Fault Refusal :=
  let e := s.curE
  let op : EOp := { cls := some cls, derived := extra.map (·.2), srcs := b :: extra.map (·.1), vecs := (b, 1) :: extra,
                    dst := .vec a e.g e.w,
                    scal := b :: scal }
  eRun i s op noPre fun x s =>
    let v := x.acc E m false sc (p x)
    .ok (x.parts (s.vParts v) fun l => s.vLoads v l EOut.none)

/-- A store of group b; a is the base. -/
def vStoreOp (i : Instr) (cls : Nat → Bool) (a b : RCode) (extra : List (RCode × Nat)) (m : BitVec 2) (s : State) (E : Nat)
    (sc : Bool) (p : EIn → Nat → VPlace) : Outcome State Fault Refusal :=
  let e := s.curE
  let op : EOp := { cls := some cls, derived := extra.map (·.2), srcs := b :: a :: extra.map (·.1),
                    vecs := (b, e.g) :: (a, 1) :: extra, dst := .none }
  eRun i s op noPre fun x s =>
    let v := x.acc E m true sc (p x)
    let vb := x.vec 0 e.g
    .ok (x.parts (s.vParts v) fun l => s.vStores v 0 (fun k => (elemOf e.w vb k, 0)) l EOut.none)

/-- VLR (R291). -/
def execVlr (a b : RCode) (m : BitVec 2) (s : State) : Outcome State Fault Refusal :=
  vLoadOp (.vlr a b m) clsA a b [] [] m s (eSize s.curE.w) false fun x i => rawPlace (w64 (x.sc 0)) x.e.w i

/-- VLRS (R291). -/
def execVlrs (a b c : RCode) (m : BitVec 2) (s : State) : Outcome State Fault Refusal :=
  vLoadOp (.vlrs a b c m) clsA8 a b [(c, 1)] [c] m s (eSize s.curE.w) false fun x i =>
    stridePlace (w64 (x.sc 0)) (w64 (x.sc 1)) i

/-- VLRX (R291). -/
def execVlrx (a b c : RCode) (m : BitVec 2) (s : State) : Outcome State Fault Refusal :=
  vLoadOp (.vlrx a b c m) clsA8 a b [(c, s.curE.idxG)] [] m s 4 false fun x i =>
    indexPlace (w64 (x.sc 0)) (x.vec 1 x.e.idxG) i

/-- VLRSC (R293): each element is a group of its own. -/
def execVlrsc (a b : RCode) (m : BitVec 2) (s : State) : Outcome State Fault Refusal :=
  vLoadOp (.vlrsc a b m) clsA8 a b [] [] m s 1 true fun x i => rawPlace (w64 (x.sc 0)) x.e.w i

/-- VSTR (R291). -/
def execVstr (a b : RCode) (m : BitVec 2) (s : State) : Outcome State Fault Refusal :=
  vStoreOp (.vstr a b m) clsA a b [] m s (eSize s.curE.w) false fun x i => rawPlace (w64 (x.sc 1)) x.e.w i

/-- VSTRS (R291). -/
def execVstrs (a b c : RCode) (m : BitVec 2) (s : State) : Outcome State Fault Refusal :=
  vStoreOp (.vstrs a b c m) clsA8 a b [(c, 1)] m s (eSize s.curE.w) false fun x i =>
    stridePlace (w64 (x.sc 1)) (w64 (x.sc 2)) i

/-- VSTRX (R291). -/
def execVstrx (a b c : RCode) (m : BitVec 2) (s : State) : Outcome State Fault Refusal :=
  vStoreOp (.vstrx a b c m) clsA8 a b [(c, s.curE.idxG)] m s 4 false fun x i =>
    indexPlace (w64 (x.sc 1)) (x.vec 2 x.e.idxG) i

/-- VSTRSC (R293). -/
def execVstrsc (a b : RCode) (m : BitVec 2) (s : State) : Outcome State Fault Refusal :=
  vStoreOp (.vstrsc a b m) clsA8 a b [] m s 1 true fun x i => rawPlace (w64 (x.sc 1)) x.e.w i

/-- The first active element at or after VSTART, as it stood when the instruction started. -/
def State.ffFirst (s : State) (v : VAcc) : Option Nat :=
  let n := (s.hart v.h).e.vstart
  (span n (v.n - n)).find? v.active

/-- The lowest element of a part that fails, of the faults of checks 1 to 5 and the errors of the elements below. -/
def State.ffStop (s : State) (v : VAcc) (els : List VEl) : Option (Nat × Cause) :=
  let f := partFault els
  let below := match f with
    | some (i, _) => (partCells els).filter fun c => decide (c.1 < i)
    | none => partCells els
  match s.partBad v below with
  | some i => some (i, .uncorr)
  | none => f

/-- Loads parts until an element fails: the first active one traps, a later one becomes VL (R292). Where this turn ends before
that, the instruction stands before the next part. -/
def State.ffLoads (s : State) (v : VAcc) : Option Nat → List (Nat × List VEl) → EOut → State × EOut
  | _, [], o => (s, o)
  | lim, (start, els) :: t, o =>
    if lim = some 0 then (s, { o with pause := some start })
    else match s.ffStop v els with
    | some (i, c) =>
      if s.ffFirst v = some i then (s.noteCause v els i c, { o with stop := some (v.stop start i c (v.place i).eval) })
      else
        let ws := ((partCells els).filter fun p => decide (p.1 < i)).map fun p => (p.1, s.vRead v p.1 p.2)
        ((s.noteCause v els i c).modE v.h fun e => { e with vl := i }, { o with writes := o.writes ++ ws })
    | none =>
      let ws := (partCells els).map fun p => (p.1, s.vRead v p.1 p.2)
      s.ffLoads v (lim.map (· - 1)) t { o with writes := o.writes ++ ws }

/-- VLRFF (R292). -/
def execVlrff (a b : RCode) (m : BitVec 2) (s : State) : Outcome State Fault Refusal :=
  let e := s.curE
  let op : EOp := { cls := some clsA, derived := [], srcs := [b], vecs := [(b, 1)], dst := .vec a e.g e.w, scal := [b] }
  eRun (.vlrff a b m) s op noPre fun x s =>
    let v := x.acc (eSize e.w) m false false fun i => rawPlace (w64 (x.sc 0)) e.w i
    .ok (s.ffLoads v x.lim (s.vParts v) EOut.none)

/-! Tiles (R288..R290). -/

/-- The smallest power of two of registers that holds n elements of w bits, 16 when 8 registers do not (R288). -/
def tileG (vlen n w : Nat) : Nat :=
  match [1, 2, 4, 8].find? fun g => decide (n * w ≤ g * vlen) with
  | some g => g
  | none => 16

/-- Where position j of a tile lies. -/
def Tens.place (t : Tens) (tile j : Nat) : VPlace :=
  if t.inside tile j then
    match t.elem tile j with
    | (.va a, bit) => .va (w64i a).toNat bit
    | (.cell k, bit) => .cell k bit
  else .zero

/-- A tile instruction's tensor, behind the checks of R177, R267 and the group size of R288: g answers the group for
a descriptor, c the register it names. -/
def State.tileTens (s : State) (h tid : Nat) (word : W64) (c : RCode) (g : BitVec 1024 → Nat) :
    Except TrapInfo Tens × State :=
  match s.tens h tid with
  | (.error e, s) => (.error (TrapInfo.of e.1 (w64 e.2)), s)
  | (.ok t, s) =>
    let u := s.tdUse t.td
    let n := g t.td
    let v := s.hart h
    if u = 1 then (.error (TrapInfo.of .bounds (w64 tid)), s)
    else match if n ≤ 8 then groupCheck v.e v.id.rsize c n else none with
      | some x => (.error (TrapInfo.of x word), s)
      | none =>
        if u = 2 then (.error (TrapInfo.of .feature word), s)
        else if u = 3 then (.error (TrapInfo.of .elided (w64 tid)), s)
        else if 8 < n then (.error (TrapInfo.of .bounds (w64 tid)), s)
        else (.ok t, s)

/-- The access of a tile load: positions outside the tensor read 0 (R176). -/
def tileAcc (x : EIn) (t : Tens) (tile n E w : Nat) (write : Bool) (active : Nat → Bool) : VAcc :=
  { h := x.h, E := E, vstart := x.e.vstart, n := n, w := w, write := write, sc := false, atomic := false,
    active := active, place := t.place tile }

/-- A tile load (R288, R290): tile answers the tile number of the scalar, which EVAL gets where it is no tile of the tensor (DESIGN
CHOICE for VLTCK, log 108), and active which elements are loaded. -/
def tileLoad (i : Instr) (a t c : RCode) (s : State) (tile : Nat → Nat)
    (active : EIn → Tens → Nat → Nat → Bool) : Outcome State Fault Refusal :=
  gate i s fun s =>
    let h := s.curHart
    match s.tileTens h t.toNat (evalOf i) a fun td => tileG (s.vlen h) (tdTileElems td) (fmtWidth (tdFmt td)) with
    | (.error e, s) => s.eTrapPre h e
    | (.ok x, s) =>
      let g := tileG (s.vlen h) (tdTileElems x.td) x.w
      let op : EOp := { cls := none, derived := [], srcs := [c], vecs := [(c, 1)], dst := .vec a g x.w, scal := [c] }
      s.eFrame (evalOf i) op noPre fun y s =>
        let n := tile (y.sc 0)
        if !(x.tileOk n) then .error (TrapInfo.of .bounds (w64 n), s)
        else
          let v := tileAcc y x n (tdTileElems x.td) (eSize x.w) x.w false (active y x (y.sc 0))
          .ok (y.parts (s.vParts v) fun l => s.vLoads v l EOut.none)

/-- VLT (R288). -/
def execVlt (a t c : RCode) (m : BitVec 2) (s : State) : Outcome State Fault Refusal :=
  tileLoad (.vlt a t c m) a t c s id fun x _ _ j => x.active m j

/-- Byte offset of position j from the tensor's BASE (R290). -/
def Tens.offset (t : Tens) (tile j : Nat) : Int :=
  match t.buf with
  | some _ => ((j * t.w / 8 : Nat) : Int)
  | none => match (t.elem tile j).1 with
    | .va a => a - (tdBase t.td : Nat)
    | .cell _ => 0

/-- Is position j of a tile loaded by VLTCK (R290): its chunk's bit is set, or it lies outside the tensor? -/
def chunkActive (x : EIn) (t : Tens) (m : BitVec 2) (tile g j : Nat) : Bool :=
  if t.inside tile j then
    let o := t.offset tile j
    decide (0 ≤ o) && decide (o.toNat / (512 * 2 ^ g) ≤ 63) && (x.e.maskNat m.toNat).testBit (o.toNat / (512 * 2 ^ g))
  else true

/-- VLTCK (R290). -/
def execVltck (a t c : RCode) (m : BitVec 2) (s : State) : Outcome State Fault Refusal :=
  tileLoad (.vltck a t c m) a t c s (fun v => fld v 0 32) fun x y v j => chunkActive x y m (fld v 0 32) (fld v 32 3) j

/-- Source format of VSTT (R289). -/
def vsttFmt (e : ERegs) (td : BitVec 1024) : Nat := if e.vill then tdFmt td else e.fmt.toNat

/-- VSTT (R289). -/
def execVstt (t b c : RCode) (m : BitVec 2) (s : State) : Outcome State Fault Refusal :=
  let i : Instr := .vstt t b c m
  gate i s fun s =>
    let h := s.curHart
    let e := (s.hart h).e
    match s.tileTens h t.toNat (evalOf i) b fun td => tileG (s.vlen h) (tdTileElems td) (fmtWidth (vsttFmt e td)) with
    | (.error x, s) => s.eTrapPre h x
    | (.ok x, s) =>
      let fs := vsttFmt e x.td
      let ws := fmtWidth fs
      let fd := tdFmt x.td
      let g := tileG (s.vlen h) (tdTileElems x.td) ws
      let op : EOp := { cls := none, derived := [], srcs := [b, c], vecs := [(b, g), (c, 1)], dst := .none }
      let pre : State → Nat → Option TrapInfo := fun _ _ =>
        if tdRdonly x.td then some (TrapInfo.of .pprot (w64 t.toNat)) else none
      s.eFrame (evalOf i) op pre fun y s =>
        let n := y.sc 1
        if !(x.tileOk n) then .error (TrapInfo.of .bounds (w64 n), s)
        else
          let vb := y.vec 0 g
          let v := tileAcc y x n (tdTileElems x.td) (eSize (max ws x.w)) x.w true fun j => y.active m j && x.inside n j
          let val : Nat → Nat × BitVec 5 := fun j =>
            if fs = fd then (elemOf ws vb j, 0) else convert (fmtDecode fs (elemOf ws vb j)) fd 0
          .ok (y.parts (s.vParts v) fun l => s.vStores v y.e.fpen val l EOut.none)

/-! Vector atomics (R294). -/

/-- Home level of a cell for a hart (R123). -/
def State.homeLevel (s : State) (h key : Nat) : Nat :=
  let me := w64 (s.hartId h)
  if isScratch key then
    max 1 (scopeOf me (w64 (s.hartId (8 * ((key - 2 ^ 52) / 2 ^ 23)))))
  else if isRemote key then 7
  else if isHost key || isIo key then 6
  else max 4 (scopeOf me (w64 (s.hartId (512 * (key / stackBytes)))))

/-- The bit of m7 of an element. -/
def State.setMiss (s : State) (h i : Nat) (b : Bool) : State :=
  s.modE h fun e => { e with mask := tput e.mask 7 (BitVec.ofNat 2048 (setElem 1 (tgetD e.mask 7 0).toNat i (b2n b))) }

/-- A scope miss (R200): m7 and SMISSCNT, which saturates. -/
def State.missOne (s : State) (h i : Nat) : State :=
  (s.setMiss h i true).modE h fun e =>
    { e with smiss := if e.smiss = BitVec.allOnes 32 then e.smiss else e.smiss + 1 }

/-- The elements of a part, performed in index order; the answer is where a read met an uncorrectable error. -/
def State.amoEls (s : State) (h : Nat) (escope : Nat) (opnd : Nat → Nat) (f : Nat → Nat → Nat) :
    List (Nat × Option Phys) → EOut → Option Nat × State × EOut
  | [], o => (none, s, o)
  | (i, x) :: t, o =>
    match x with
    | none => s.amoEls h escope opnd f t o
    | some p =>
      if escope < s.homeLevel h p.key then (s.missOne h i).amoEls h escope opnd f t o
      else match (if p.snooped then s.l1Flush (bayOf h) p.key 4 else s).loadAt p.key 4 with
      | (.error _, s) => (some i, s, o)
      | (.ok old, s) =>
        let s := (s.storeAt p.key (toBytes 4 (f old (opnd i)))).2
        (s.setMiss h i false).amoEls h escope opnd f t { o with writes := o.writes ++ [(i, old)] }

/-- The parts of a vector atomic. -/
def State.amoParts (s : State) (v : VAcc) (escope : Nat) (opnd : Nat → Nat) (f : Nat → Nat → Nat) :
    List (Nat × List VEl) → EOut → State × EOut
  | [], o => (s, o)
  | (start, els) :: t, o =>
    match partFault els with
    | some (i, c) => (s.noteCause v els i c, { o with stop := some (v.stop start i c (v.place i).eval) })
    | none =>
      match s.amoEls v.h escope opnd f (partCells els) o with
      | (some i, s, o) => (s, { o with stop := some { v.stop start i .uncorr (v.place i).eval with vstart := i } })
      | (none, s, o) => s.amoParts v escope opnd f t o

/-- INT32 and UINT32. -/
def clsW (f : Nat) : Bool := f == 4 || f == 5

/-- A vector atomic (R294): f is given the format, memory and operand. -/
def vAmo (i : Instr) (a b c : RCode) (m : BitVec 2) (s : State) (f : Nat → Nat → Nat → Nat) :
    Outcome State Fault Refusal :=
  let e := s.curE
  let op : EOp := { cls := some clsW, derived := [e.idxG], srcs := [b, c], vecs := [(b, 1), (c, e.idxG), (a, e.g)],
                    dst := .vec a e.g 32, scal := [b] }
  eRun i s op noPre fun x s =>
    let va := x.e.groupVal x.vlen a e.g
    let idx := x.vec 1 e.idxG
    let v : VAcc := { x.acc 4 m true false fun i => indexPlace (w64 (x.sc 0)) idx i with atomic := true }
    .ok (x.parts (s.vParts v) fun l => s.amoParts v x.escope.toNat (elemOf 32 va) (f e.fmt.toNat) l EOut.none)

/-- VAMOADD (R294). -/
def execVamoadd (a b c : RCode) (m : BitVec 2) (s : State) : Outcome State Fault Refusal :=
  vAmo (.vamoadd a b c m) a b c m s fun _ old x => (old + x) % 2 ^ 32

/-- VAMOMIN (R294). -/
def execVamomin (a b c : RCode) (m : BitVec 2) (s : State) : Outcome State Fault Refusal :=
  vAmo (.vamomin a b c m) a b c m s fun fmt old x => if intOf fmt 32 x < intOf fmt 32 old then x else old

/-- VAMOMAX (R294). -/
def execVamomax (a b c : RCode) (m : BitVec 2) (s : State) : Outcome State Fault Refusal :=
  vAmo (.vamomax a b c m) a b c m s fun fmt old x => if intOf fmt 32 old < intOf fmt 32 x then x else old

/-- VAMOSWAP (R294). -/
def execVamoswap (a b c : RCode) (m : BitVec 2) (s : State) : Outcome State Fault Refusal :=
  vAmo (.vamoswap a b c m) a b c m s fun _ _ x => x

/-- VAMOOR (R294). -/
def execVamoor (a b c : RCode) (m : BitVec 2) (s : State) : Outcome State Fault Refusal :=
  vAmo (.vamoor a b c m) a b c m s fun _ old x => old ||| x

end Sys2Proof.Machine
end

