-- ==== Sys2Proof/Machine/Matrix.lean ====
section
/-! DEFINITION. The matrix instructions of major 0x30: MBEAM, MSWAP, MSETA, MROW, MROWT and both forms of MZERO
(R296..R306), with the events that end a beam load and complete a row. -/

namespace Sys2Proof.Machine

open Host (Outcome)

/-! Formats and geometry. -/

/-- The class of a matrix format (R297): formats of one class pair with each other. -/
def rowClass (f : Nat) : Option Nat :=
  match f with
  | 9 | 10 | 12 => some 0
  | 11 | 13 => some 1
  | 7 | 8 => some 2
  | 0 | 1 => some 3
  | _ => none

/-- Do a row format and a beam format pair (R297)? -/
def rowPair (sfmt bfmt : Nat) : Bool := (rowClass sfmt).isSome && rowClass sfmt == rowClass bfmt

/-- Registers of an accumulator group (R296). -/
def accG (f : Nat) : Nat := 32 / max 1 (fmtWidth f)

/-! Tiles of a beam and of a row. -/

/-- Extents of tile n along the last two dimensions inside DIM, rows first (R301); a rank-1 tensor is one row. -/
def Tens.extents (t : Tens) (n : Nat) : Nat × Nat :=
  let r := tdRank t.td
  let c := unravel (tdGrid t.td) n
  let ext : Nat → Nat := fun d =>
    match t.buf with
    | some _ => tdTile t.td d
    | none => min (tdTile t.td d) (tdDim t.td d - c.getD d 0 * tdTile t.td d)
  (if r = 1 then 1 else ext (r - 2), ext (r - 1))

/-- Position of element (j, k) in a tile whose leading extents are 1. -/
def Tens.pos (t : Tens) (j k : Nat) : Nat := j * tdTile t.td (tdRank t.td - 1) + k

/-- Check 3 of R301, for a beam (two free dimensions) or a row (one). -/
def Tens.shapeOk (t : Tens) (beam : Bool) (k : Nat) : Bool :=
  let r := tdRank t.td
  let free := if beam then 2 else 1
  ((List.range (r - free)).all fun d => tdTile t.td d == 1) && decide (tdTile t.td (r - 1) ≤ k)
    && (!beam || r == 1 || decide (tdTile t.td (r - 2) ≤ k))

/-- Checks 1 to 3 of R301 and R304. -/
def State.matTens (s : State) (h tid : Nat) (word : W64) (beam : Bool) : Except TrapInfo Tens × State :=
  match s.tensUse h tid word with
  | (.error e, s) => (.error e, s)
  | (.ok t, s) =>
    if (rowClass (tdFmt t.td)).isNone then (.error (TrapInfo.of .illvt word), s)
    else if !(t.shapeOk beam (rowK (s.vlen h) (tdFmt t.td))) then (.error (TrapInfo.of .bounds (w64 tid)), s)
    else (.ok t, s)

/-- Element (j, k) of a tile with its place. -/
structure MEl where
  j : Nat
  k : Nat
  p : VPlace
  deriving DecidableEq, Repr

/-- The elements of a tile inside DIM. -/
def Tens.matEls (t : Tens) (n : Nat) : List MEl :=
  let e := t.extents n
  (List.range e.1).flatMap fun j => (List.range e.2).map fun k => ⟨j, k, t.place n (t.pos j k)⟩

/-- The scale bytes of rows 0..rows-1 along K: row, block and place. -/
def Tens.matScales (t : Tens) (n rows k : Nat) : List (Nat × Nat × VPlace) :=
  let e := t.extents n
  (List.range (min rows e.1)).flatMap fun j => (List.range (ceilDiv k 32)).filterMap fun q =>
    if 32 * q < e.2 then (t.scaleIn n (t.pos j (32 * q))).map fun a => (j, q, VPlace.va a 0) else none

/-- Check 5 of R301: the first place that fails checks 1..5 of R286, with its cause. -/
def State.placesFail (s : State) (h nb : Nat) (ps : List VPlace) : Option (Cause × VPlace) :=
  ps.findSome? fun p => match s.vCheck h false nb p with
    | .error c => some (c, p)
    | .ok _ => none

/-- The access by which a matrix instruction reads nb bytes at a place that has passed its checks. -/
def State.placeAcc (s : State) (h nb : Nat) (p : VPlace) : VAcc × Option Phys :=
  ({ h := h, E := 1, vstart := 0, n := 1, w := 8 * nb, write := false, sc := false, atomic := false, active := fun _ => true,
     place := fun _ => p },
   match s.vCheck h false nb p with
   | .ok x => x
   | .error _ => none)

/-- The first place whose read meets an uncorrectable error. -/
def State.placesBad (s : State) (h nb : Nat) (ps : List VPlace) : Option (Nat × VPlace) :=
  (ps.find? fun p => let a := s.placeAcc h nb p; s.vBad a.1 a.2).map fun p => (nb, p)

/-- Counts that error, unless the place is of a package that no path leads to (R398, R407). -/
def State.notePlace (s : State) (h : Nat) (b : Nat × VPlace) : State :=
  let a := s.placeAcc h b.1 b.2
  if s.vCut a.1 a.2 then s else s.countUncorr

/-- The bits of an element of w bits at a place. -/
def State.placeRead (s : State) (h w : Nat) (p : VPlace) : Nat :=
  let a := s.placeAcc h (max 1 (w / 8)) p
  fld (s.vRead { a.1 with place := fun _ => .zero } 0 a.2) p.bit w

/-- Scale bytes of row j as one word, code 127 where none is read. -/
def State.scaleWord (s : State) (h k : Nat) (scs : List (Nat × Nat × VPlace)) (j : Nat) : W64 :=
  w64 (packElems 8 ((List.range (ceilDiv k 32)).map fun q =>
    match scs.find? fun c => c.1 == j && c.2.1 == q with
    | some c => s.placeRead h 8 c.2.2
    | none => 127))

/-! MBEAM and MSETA. -/

/-- The low n blocks of a row's scales replaced; the others stay (R13, R301). -/
def setScales (old : W64) (n : Nat) (new : W64) : W64 := w64 (setFld old.toNat 0 (8 * n) new.toNat)

/-- The beam a tile gives (R301), over the scale store it replaces. -/
def State.readBeam (s : State) (h : Nat) (t : Tens) (n k : Nat) (old : Tab W64) : Beam :=
  let w := t.w
  let e := t.extents n
  let scs := t.matScales n k k
  { empty := false, fmt := BitVec.ofNat 4 (tdFmt t.td), tn := e.1, tk := e.2
    data := (List.range e.1).map fun j =>
      (j, BitVec.ofNat 1024 (packElems w ((List.range e.2).map fun i => s.placeRead h w (t.place n (t.pos j i)))))
    scale := (List.range k).foldl (fun c j =>
      tput c j (setScales (tgetD old j 0) (ceilDiv k 32) (s.scaleWord h k scs j))) old }

/-- An unreported error of the last load traps here, once (R301); lerr is clear afterwards. -/
def State.beamReady (s : State) (body : State → State) : State :=
  let h := s.curHart
  let m := (s.hart h).m
  if m.loadBusy then s.standAt .stall
  else match m.lerr with
    | some va => (s.modM h fun m => { m with lerr := none }).eTrapPre h (TrapInfo.of .uncorr (va.setWidth 64))
    | none => body s

/-- A tile number below the tile count, else BOUNDS (R301). -/
def Tens.tileTrap (t : Tens) (n : Nat) : Option TrapInfo :=
  if t.tileOk n then none else some (TrapInfo.of .bounds (w64 n))

/-- MBEAM (R301): the reads are made at its place in program order; the load ends with BEAM_LOAD_DONE. The tensor is checked before b's
register (DEDUCED, log 67). -/
def execMbeam (t b : RCode) (s : State) : Outcome State Fault Refusal :=
  let i : Instr := .mbeam t b
  gate i s fun s => s.beamReady fun s =>
    let h := s.curHart
    match s.matTens h t.toNat (evalOf i) true with
    | (.error e, s) => s.eTrapPre h e
    | (.ok x, s) =>
      let op : EOp := { cls := none, derived := [], srcs := [b], vecs := [(b, 1)], dst := .none }
      s.eFrame (evalOf i) op noPre fun y s =>
        let n := y.sc 0
        let k := rowK y.vlen (tdFmt x.td)
        let nb := max 1 (x.w / 8)
        let ps := (x.matEls n).map (·.p)
        let sps := (x.matScales n k k).map (·.2.2)
        match x.tileTrap n with
        | some e => .error (e, s)
        | none =>
          match (s.placesFail h nb ps).or (s.placesFail h 1 sps) with
          | some (c, p) => .error (TrapInfo.of c p.eval, s)
          | none =>
            let bad := (s.placesBad h nb ps).or (s.placesBad h 1 sps)
            let s := match bad with
              | some b => s.notePlace h b
              | none => s
            .ok (s.modM h fun m =>
              { m with loading := s.readBeam h x n k m.loading.scale, loadBusy := true
                       lerrNext := bad.map fun p => p.2.eval.setWidth 48 }, EOut.none)

/-- A beam load's last read is done (R301): an error empties the beam. -/
def MRegs.loadDone (m : MRegs) : MRegs :=
  if m.loadBusy then
    { m with
      loadBusy := false
      loading := if m.lerrNext.isSome then { m.loading with empty := true } else m.loading
      lerr := match m.lerrNext with | some va => some va | none => m.lerr
      lerrNext := none }
  else m

/-- BEAM_LOAD_DONE (R301) on hart n. -/
def execBeamLoadDone (s : State) : Outcome State Fault Refusal := .next (s.modM s.ev.n MRegs.loadDone)

/-- MSETA (R304). -/
def execMseta (t b : RCode) (s : State) : Outcome State Fault Refusal :=
  let i : Instr := .mseta t b
  gate i s fun s =>
    let h := s.curHart
    match s.matTens h t.toNat (evalOf i) false with
    | (.error e, s) => s.eTrapPre h e
    | (.ok x, s) =>
      let op : EOp := { cls := none, derived := [], srcs := [b], vecs := [(b, 1)], dst := .none }
      s.eFrame (evalOf i) op noPre fun y s =>
        let n := y.sc 0
        let k := rowK y.vlen (tdFmt x.td)
        let nb := max 1 (x.w / 8)
        let kt := (x.extents n).2
        let ps := (List.range kt).map fun j => x.place n j
        let scs := (List.range (ceilDiv k 32)).filterMap fun q =>
          if 32 * q < kt then (x.scaleIn n (32 * q)).map fun a => (0, q, VPlace.va a 0) else none
        let sps := scs.map (·.2.2)
        match x.tileTrap n with
        | some e => .error (e, s)
        | none =>
          match (s.placesFail h nb ps).or (s.placesFail h 1 sps) with
          | some (c, p) => .error (TrapInfo.of c p.eval, s)
          | none =>
            match s.placesBad h 1 sps with
            | some b => .error (TrapInfo.of .uncorr b.2.eval, s.notePlace h b)
            | none =>
              .ok (s.modM h fun m => { m with sfmt := BitVec.ofNat 4 (tdFmt x.td), kt := kt,
                                              latch := setScales m.latch (ceilDiv k 32) (s.scaleWord h k scs 0) }, EOut.none)

/-! MSWAP and MZERO. -/

/-- Does a row of the hart still occupy the matrix unit (R296, R302)? -/
def State.rowOccupies (s : State) (h : Nat) : Bool :=
  (s.hart h).m.rows.any fun r => match r.occEnd with
    | some t => decide (s.cycle < t)
    | none => true

/-- The exchange of the two beams (R302). -/
def MRegs.swap (m : MRegs) : MRegs :=
  { m with active := if m.loading.empty then { m.loading with fmt := 0 } else m.loading, loading := m.active,
           abeam := !m.abeam }

/-- MSWAP (R302). -/
def execMswap (s : State) : Outcome State Fault Refusal :=
  gate .mswap s fun s =>
    let h := s.curHart
    s.rowTrapAny h fun s => s.beamReady fun s =>
      let s := s.mxServe (bayOf h)
      if s.rowOccupies h then s.standAt .stall
      else ((s.modM h MRegs.swap).modE h fun e => { e with vstart := 0 }).eStep h

/-- MZERO on an accumulator group (R303). -/
def execMzero (a : RCode) (s : State) : Outcome State Fault Refusal :=
  let f := (s.hart s.curHart).m.sfmt.toNat
  let op : EOp := { cls := none, derived := [], srcs := [], vecs := [], dst := .vec a (accG f) 32 }
  eRun (.mzero a) s op noPre fun y s => .ok (s, { EOut.none with writes := (List.range (rowK y.vlen f)).map fun j => (j, 0) })

/-- The bare MZERO (R303). -/
def execMzeroBare (s : State) : Outcome State Fault Refusal :=
  gate .mzeroBare s fun s => s.beamReady fun s =>
    let h := s.curHart
    ((s.modM h fun m => { m with loading := { m.loading with empty := true, data := [], scale := [] } }).modE h
      fun e => { e with vstart := 0 }).eStep h

/-! Rows. -/

/-- The checks of R305 on a beam and a group, against a row format. -/
def State.rowCheck (s : State) (g sfmt : Nat) (a : RCode) : Option Cause :=
  let v := s.hart g
  if v.m.active.empty then some .illvt
  else if !(rowPair sfmt v.m.active.fmt.toNat) then some .illvt
  else groupCheck v.e v.id.rsize a (accG sfmt)

/-- A row is issued to the matrix unit of hart g's bay, which serves it in its turn (R296, R305, R383). -/
def State.rowIssue (s : State) (g : Nat) (a : RCode) (arow : Nat) (sfmt : BitVec 4) (kt : Nat) (latch pc : W64) : State :=
  s.modHart g fun v =>
    { v with m := { v.m with rows := v.m.rows ++
      [{ arow := BitVec.ofNat 1024 arow, kt := kt, latch := latch, sfmt := sfmt, beam := v.m.active,
         acc := v.e.wb + (a.toNat - 16), pc := pc, fpen := v.e.fpen, issued := s.cycle, occEnd := none }] } }

/-- MROW (R305). -/
def execMrow (a b : RCode) (s : State) : Outcome State Fault Refusal :=
  let i : Instr := .mrow a b
  gate i s fun s =>
    let h := s.curHart
    let m := (s.hart h).m
    let e := (s.hart h).e
    match s.rowCheck h m.sfmt.toNat a with
    | some c => s.eTrapPre h (TrapInfo.of c (evalOf i))
    | none =>
      match m.rowTrap (touches e a (accG m.sfmt.toNat)) with
      | some r => s.rowTrapAt h r
      | none =>
        if 8 ≤ m.rows.length then s.standAt .stall
        else if e.badIn (touches e a (accG m.sfmt.toNat)) then s.regTrap h
        else
          let op : EOp := { cls := none, derived := [], srcs := [b], vecs := [(b, 1)], dst := .none }
          s.eFrame (evalOf i) op noPre fun y s =>
            .ok (s.rowIssue h a (y.src 0) m.sfmt m.kt m.latch e.pc, EOut.none)

/-- The signed or unsigned integer of an element (R297). -/
def intEl (fmt v : Nat) : Int := if fmt = 0 then sext 8 v else ((v % 256 : Nat) : Int)

/-- One column of a row (R89, R90): the new accumulator and its flags. -/
def Row.column (r : Row) (vlen j acc : Nat) : Nat × BitVec 5 :=
  let f := r.sfmt.toNat
  let w := fmtWidth f
  let k := rowK vlen f
  let av := r.arow.toNat
  let bv := (tgetD r.beam.data j 0).toNat
  let bf := r.beam.fmt.toNat
  if rowClass f = some 3 then
    let s := ((List.range k).map fun t => if t < r.kt then intEl f (elemOf w av t) * intEl bf (elemOf w bv t) else 0).foldl
      (· + ·) 0
    (wrap 32 ((acc : Int) + s), 0)
  else
    let a := (List.range k).map fun t => if t < r.kt then fmtDecode f (elemOf w av t) else FVal.fin false 0 0
    let b := (List.range k).map fun t => fmtDecode bf (elemOf w bv t)
    let codes : W64 → List Nat := fun x => (List.range 8).map fun q => elemOf 8 x.toNat q
    blocksAcc (fmtScaled f) (codes r.latch) (codes (tgetD r.beam.scale j 0)) (ceilDiv k 32) 0 a b acc 0

/-- The accumulator group of a row, as one value. -/
def ERegs.accVal (e : ERegs) (vlen p g : Nat) : Nat :=
  (List.range g).foldr (fun j acc => cutV vlen (tgetD e.main (p + j) 0).toNat + 2 ^ vlen * acc) 0

/-- A row finishes (R87, R305): the group, the flags, and the trap an enabled flag leaves for later. -/
def State.rowDone (s : State) (h : Nat) (r : Row) : State :=
  let vlen := s.vlen h
  let f := r.sfmt.toNat
  let g := accG f
  let n := rowK vlen f
  s.modHart h fun v =>
    let old := v.e.accVal vlen r.acc g
    let cols := (List.range n).map fun j => r.column vlen j (elemOf 32 old j)
    let new := packElems 32 (cols.map (·.1))
    let fl := cols.foldl (fun a c => a ||| c.2) (0 : BitVec 5)
    let on := enabled r.fpen fl
    { v with
      e := { v.e with
        main := (List.range g).foldl (fun t j => tput t (r.acc + j) (BitVec.ofNat 1024 (fld new (vlen * j) vlen))) v.e.main
        fflags := accrue v.e.fflags fl }
      m := { v.m with
        rows := v.m.rows.drop 1
        rowTraps := if on ≠ 0 then v.m.rowTraps ++ [{ acc := r.acc, size := g, pc := r.pc, flags := on }] else v.m.rowTraps } }

/-- ROW_COMPLETE (R296, R305): the oldest row of hart n finishes, 4 clk after its last occupancy clk at the earliest. -/
def execRowComplete (s : State) : Outcome State Fault Refusal :=
  let s := s.mxServe (bayOf s.ev.n)
  .next (match (s.hart s.ev.n).m.rows with
    | r :: _ => match r.occEnd with
      | some t => if t + 4 ≤ s.cycle then s.rowDone s.ev.n r else s
      | none => s
    | [] => s)

/-- The fields of the MROWT a hart stands at. -/
def Hart.atMrowt (v : Hart) : Option (RCode × RCode) :=
  match v.e.wait with
  | .mrowt a b => if v.e.ended then none else some (a, b)
  | _ => none

/-- The check that one of the eight harts fails (R306): R305's against bay 0's row format, and on bay 0, h0, R214's on its b. -/
def State.mrowtFail (s : State) (sfmt h0 : Nat) (hs : List Nat) : Option (Nat × TrapInfo) :=
  hs.findSome? fun g => match (s.hart g).atMrowt with
    | some (a, b) =>
      (firstFail [s.rowCheck g sfmt a, if g = h0 then groupCheck (s.hart g).e (s.hart g).id.rsize b 1 else none]).map
        fun c => (g, TrapInfo.of c (evalOf (.mrowt a b)))
    | none => none

/-- The main registers that the MROWT of a hart uses: its group, and on bay 0, h0, its b. -/
def State.mrowtRegs (s : State) (sfmt h0 g : Nat) (a b : RCode) : List Nat :=
  touches (s.hart g).e a (accG sfmt) ++ if g = h0 then touches (s.hart g).e b 1 else []

/-- A pending row trap on a register that one of the eight harts uses (R87). -/
def State.mrowtRowTrap (s : State) (sfmt h0 : Nat) (hs : List Nat) : Option (Nat × RowTrap) :=
  hs.findSome? fun g => match (s.hart g).atMrowt with
    | some (a, b) => ((s.hart g).m.rowTrap (s.mrowtRegs sfmt h0 g a b)).map fun r => (g, r)
    | none => none

/-- One of the eight harts that uses a register with an uncorrectable error (R398). -/
def State.mrowtBad (s : State) (sfmt h0 : Nat) (hs : List Nat) : Option Nat :=
  hs.find? fun g => match (s.hart g).atMrowt with
    | some (a, b) => (s.hart g).e.badIn (s.mrowtRegs sfmt h0 g a b)
    | none => false

/-- Each hart's unit takes the row of bay 0, and its MROWT completes (R306). -/
def State.mrowtGo (s : State) (hs : List Nat) (h0 : Nat) (b0 : RCode) (arow : Nat) : State :=
  let m0 := (s.hart h0).m
  let s := s.modHart h0 fun v => { v with r := v.popOnce [b0] }
  hs.foldl (fun s g => match (s.hart g).atMrowt with
    | some (a, _) =>
      s.asAgent (.eStream g) fun s =>
        ((s.rowIssue g a arow m0.sfmt m0.kt m0.latch (s.hart g).e.pc).modE g fun e => { e with vstart := 0 }).eStep g
    | none => s) s

/-- The joint event of R306, once all eight harts stand at an MROWT. -/
def State.mrowtAll (s : State) (hs : List Nat) : State :=
  let h0 := hs.headD 0
  let sfmt := (s.hart h0).m.sfmt.toNat
  match (s.hart h0).atMrowt with
  | none => s
  | some (_, b0) =>
    match s.mrowtFail sfmt h0 hs with
    | some (g, t) => s.eTrapPre g t
    | none =>
      match s.mrowtRowTrap sfmt h0 hs with
      | some (g, r) => s.rowTrapAt g r
      | none =>
        if hs.any fun g => decide (8 ≤ (s.hart g).m.rows.length) then s
        else
          let e := (s.hart h0).e
          match (s.hart h0).pops [b0] with
          | .waits => s
          | .failed va => s.eTrapPre h0 (TrapInfo.of .uncorr va)
          | .ready vals =>
            match s.mrowtBad sfmt h0 hs with
            | some g => s.regTrap g
            | none =>
              let arow := if isPort b0 then cutV (s.vlen h0) (vals.getD 0 0).toNat else cutV (s.vlen h0) (e.reg b0).toNat
              if (s.hart h0).m.rowBusy (touches e b0 1) then s else s.mrowtGo hs h0 b0 arow

/-- MROWT (R306): the hart stands; when all eight do, the row is formed. -/
def execMrowt (a b : RCode) (s : State) : Outcome State Fault Refusal :=
  gate (.mrowt a b) s fun s =>
    let s := s.standAt (.mrowt a b)
    let hs := s.trussStep s.curHart
    if !hs.isEmpty && hs.all fun g => (s.hart g).atMrowt.isSome then s.mrowtAll hs else s

end Sys2Proof.Machine
end

