-- ==== Sys2Proof/Machine/Run.lean ====
section
/-! DEFINITION. RUN commands (R33, R38..R42): the checks of the operator block, the budgets of R40, the start of a node, and what a
splice does (R377). -/

namespace Sys2Proof.Machine

open Host (Outcome)

/-- ELIDED is set in T, in memory, where the entry can be read, and in every cached copy (R178, R377). -/
def State.setElided (s : State) (rcb tid : Nat) : State :=
  let x := s.ctxOf rcb
  let a := x.tdtbase + 128 * tid + 1
  let s := match s.ctlRead x.ptbase a 1 with
    | (.error _, s) => s
    | (.ok bs, s) => s.ctlWriteD x.ptbase a [BitVec.ofNat 8 (ofBytes bs ||| 0x20)]
  { s with tdc := s.tdc.map fun p => (p.1, p.2.map fun e =>
      if e.asid = x.asid ∧ e.tid = tid then { e with td := e.td ||| BitVec.ofNat 1024 (2 ^ 13) } else e) }

/-- The pair becomes one node, held by the consumer's command (R377), ready since the producer is (R369). -/
def State.splice (s : State) (p : Cmd) (c : Nat) (cb : BitVec 4096) (sp : Splice) : State :=
  let s := s.setElided p.rcb sp.tid
  let s := s.modCmd p.id fun d => { d with phase := .active, mergedInto := some c }
  s.modCmd c fun d => { d with phase := .active, run := some (.start cb (some sp)), ready := true, readyAt := p.readyAt }

/-! RUN. -/

/-- Is a POOL node of the region under way (R206)? -/
def State.poolNode (s : State) (rcb : Nat) : Bool :=
  s.cmds.any fun c => c.rcb == rcb && match c.run with
    | some r => blkPool r.blk
    | none => false

/-- The four counts of a region's pool return to 0 when a POOL node becomes ready while no other is live (R206). -/
def State.poolStart (s : State) (rcb : Nat) : State :=
  if s.poolNode rcb ∨ s.poolDesc rcb = 0 then s
  else s.ctlWriteD (s.ctxOf rcb).ptbase (s.poolDesc rcb + 0x10) (List.replicate 32 0)

/-- A command whose block has passed its own checks: the splice that was decided as it became ready, budgets, start (R39..R41, R375). A LOOP block with an extent of 0
that could not be placed either ends UNFIT and not DONE, as a malformed one ends BADBLOCK before: which check goes first, R40 and
R38 do not say (DESIGN CHOICE, log 90). -/
def State.startRun (s : State) (c : Cmd) (b : BitVec 4096) : State :=
  match c.partner with
  | some (d, db, sp) => (s.splice c d db sp).settleRuns
  | none =>
    if !(s.needsFit c.rcb (blkNeeds b)) then s.endCmd c.id 3
    else (s.modCmd c.id fun d => { d with phase := .active, run := some (.start b none) }).settleRuns

/-- RUN (R33, R38..R41). A POOL block without SEARCH in FEAT belongs to no step that could trap FEATURE (R4): the command ends
FAILED with a fault record of that cause (DESIGN CHOICE, log 50). -/
def execRun (s : State) : Outcome State Fault Refusal :=
  runCmd s (fun k => k == 1) fun c s =>
    match s.ctlRead (s.cmdPt c) (recAddr c.rec_) 512 with
    | (.error e, s) => s.cmdFault c e 0
    | (.ok bs, s) =>
      let b := BitVec.ofNat 4096 (ofBytes bs)
      if !(blkOk b) then s.endCmd c.id 4
      else if blkPool b && !(s.has .search) then (s.logCmd c .feature 1 (recAddr c.rec_)).endCmd c.id 1
      else
        let s := if blkPool b then s.poolStart c.rcb else s
        match (if blkPool b then s.poolErr c.rcb else none) with
        | some e => (s.poolSeen c.rcb).cmdFault c e 0
        | none => if blkPool b && (s.poolOf c.rcb).isNone then s.endCmd c.id 4 else s.startRun c b

end Sys2Proof.Machine
end

