-- ==== Sys2Proof/Machine/Sill.lean ====
section
/-! DEFINITION. The sill engines: SMV, SSUB, SPULL and SSTOP (R334..R337), with the events by which a sill finishes a
chunk, fills a slot, writes a slot back and ends a subscription (R91, R141, R142, R168..R171). -/

namespace Sys2Proof.Machine

open Host (Outcome)

/-! Queues. -/

/-- The stack in which the first page of a tensor lies now, when it lies in one (R142). -/
def State.sillHome (s : State) (ptbase : Nat) (td : BitVec 1024) : Option Nat :=
  if 2 ^ 47 ≤ tdBase td then none
  else match s.walk ptbase (tdBase td) with
    | .leaf pte _ _ size => match s.leafPhys pte size (tdBase td) with
      | some p => if isHbm s p.key then some (p.key / stackBytes) else none
      | none => none
    | _ => none

/-- The sill a command is queued at, as its pages lie at issue: that of the tensor's stack, or the first present one, on which it
fails, while its page is missing or lies elsewhere (log 65). -/
def State.sillFor (s : State) (ptbase : Nat) (td : BitVec 1024) : Nat :=
  (s.sillHome ptbase td).getD ((firstIdx 8 s.record.sills.getLsbD).getD 0)

def State.sillQueue (s : State) (n : Nat) : List SillCmd := tgetD s.sillq n []

def State.setSillQueue (s : State) (n : Nat) (q : List SillCmd) : State := { s with sillq := tput s.sillq n q }

/-- Does a sill hold 32 commands (R168)? -/
def State.sillFull (s : State) (n : Nat) : Bool := decide (32 ≤ (s.sillQueue n).length)

/-- Adds a command to a sill's queue. -/
def State.sillPut (s : State) (n : Nat) (c : SillCmd) : State := s.setSillQueue n (s.sillQueue n ++ [c])

/-- The sill whose queue holds a transfer. -/
def State.sillOf (s : State) (r : XRef) : Nat := (firstIdx 8 fun n => (s.sillQueue n).any fun c => c.ref == r).getD 0

/-- A launch of sill n: a refusal, a wait for the queue, or a taken slot with a release at PKG (R204, R323, R354). -/
def State.sillLaunch (s : State) (h n : Nat) (srcs : List RCode) (a : RCode) (chunks : Nat) (job : Job)
    (cmd : XRef → SillCmd) : State :=
  match s.freeSlot h with
  | none => s.aDone srcs a (refusal 1)
  | some i =>
    if s.sillFull n then s.standAt .stall
    else
      let r := s.takeSlot h i chunks true job
      ((r.2.sillPut n (cmd r.1)).releaseBy s.cur 5).aDone srcs a r.1.tid

/-! Memory accesses. -/

/-- Where a byte of a sill operand lies: in the HBM of the sill's own stack, else the transfer fails STACK (R142). A page without
a valid leaf lies in no stack (R131, R319; log 93); a package outside the pod is PFAULT (R131). -/
def State.sillXlat (s : State) (c : EngCtx) (n : Nat) (va : Int) : Except EngErr Nat × State :=
  if va < 0 ∨ (2 ^ 47 : Int) ≤ va then (.error (.fail 7), s)
  else match s.engXlat c .read va with
    | (.ok k, s) => if isHbm s k && k / stackBytes == n then (.ok k, s) else (.error (.fail 7), s)
    | (.error (.pause _ _), s) => (.error (.fail 7), s)
    | (.error e, s) => (.error e, s)

/-- Bytes of an operand read one after another; those of a splice buffer lie in scratch (R377). -/
def State.sillReads (s : State) (c : EngCtx) (n : Nat) : List Loc → Except EngErr (List Byte) × State
  | [] => (.ok [], s)
  | l :: t =>
    match (match l with | .va a => s.sillXlat c n a | .cell k => (.ok k, s)) with
    | (.error e, s) => (.error e, s)
    | (.ok k, s) =>
      match s.engByte k with
      | (.error e, s) => (.error e, s)
      | (.ok b, s) =>
        match s.sillReads c n t with
        | (.error e, s) => (.error e, s)
        | (.ok bs, s) => (.ok (b :: bs), s)

/-- Scratch bytes read by a sill. -/
def State.sillScratch (s : State) (k n : Nat) : Except EngErr (List Byte) × State :=
  if readBad s k n then (.error (.fail 4), s.countUncorr) else (.ok (s.bytes k n), s)

/-- The cell of an offset of the running body's scratch. -/
def State.scratchAt (s : State) (h off : Nat) : Nat := scratchKey (bayOf h) ((s.hart h).r.alloc + (s.hart h).r.base + off)

/-- A sill access that could not be made fails the transfer; a page without a valid leaf does too (R131; log 93). -/
def State.sillErr (s : State) (r : XRef) (e : EngErr) : State :=
  match e with
  | .pause _ _ => s.failXfer r 1
  | .fail st => s.failXfer r st

/-! SMV. -/

/-- Slices of a sill tensor (R141). -/
def sillSlices (td : BitVec 1024) : Nat := ceilDiv (tdDim td 1) 512

/-- Bytes of the vector x with its scales (R334). -/
def sillXBytes (td : BitVec 1024) : Nat :=
  sillSlices td * tdSliceBytes td + (if fmtScaled (tdFmt td) then sillSlices td * 16 else 0)

/-- SMV (R334). -/
def execSmv (a t c : RCode) (s : State) : Outcome State Fault Refusal :=
  withA (.smv a t c) [c] [a] s fun v s =>
    let h := s.curHart
    let x := (v.getD 0 0).toNat
    match s.tensUse h t.toNat (evalOf (.smv a t c)) with
    | (.error e, s) => s.trap s.cur e
    | (.ok td, s) =>
      let y := 4 * tdDim td.td 0
      let n := ceilDiv y (512 * 2 ^ fld x 48 3)
      let bound := (s.hart h).r.bound
      if tdLayout td.td ≠ 1 ∨ bound < fld x 0 24 + sillXBytes td.td ∨ bound < fld x 24 24 + y ∨ 64 < n then
        s.aDone [c] a (refusal 3)
      else s.sillLaunch h (s.sillFor (s.hart h).ctx.ptbase td.td) [c] a n (.smv td.td (w64 x)) .smv

/-- The elements of n packed elements of width w. -/
def elemsOf (w fmt n v : Nat) : List FVal := (List.range n).map fun i => fmtDecode fmt (elemOf w v i)

/-- Slice q of one y element (R89, R91): x and a row of B, with their scale codes; a short slice is padded to 16 blocks. -/
def smvSlice (fmt n : Nat) (xb bb : List Byte) (xs bs : List Nat) : Nat × BitVec 5 :=
  let w := fmtWidth fmt
  blocksAcc (fmtScaled fmt) xs bs 16 0 (elemsOf w fmt n (ofBytes xb)) (elemsOf w fmt n (ofBytes bb)) 0 0

/-- The slices of row y from slice q on, added to acc in increasing order (R91); none yet before slice 0. -/
def State.smvRow (s : State) (c : EngCtx) (n : Nat) (td : BitVec 1024) (xk y : Nat) :
    Nat → Nat → Nat → BitVec 5 → Except EngErr (Nat × BitVec 5) × State
  | 0, _, acc, fl => (.ok (acc, fl), s)
  | f + 1, q, acc, fl =>
    let fmt := tdFmt td
    let sb := tdSliceBytes td
    let cnt := min 512 (tdDim td 1 - 512 * q)
    let nb := ceilDiv (cnt * fmtWidth fmt) 8
    let row := tdElemAddr td [y, 512 * q]
    let nsc := if fmtScaled fmt then ceilDiv cnt 32 else 0
    let ssc := if tdScale td = 0 then 0 else nsc
    match s.sillReads c n ((List.range nb).map fun (i : Nat) => .va (row + (i : Int))) with
    | (.error e, s) => (.error e, s)
    | (.ok bb, s) =>
      match s.sillReads c n ((List.range ssc).map fun (i : Nat) => .va ((tdScaleAddr td [y, 512 * q] + i : Nat) : Int)) with
      | (.error e, s) => (.error e, s)
      | (.ok bs, s) =>
        match s.sillScratch (xk + q * sb) nb, s.sillScratch (xk + sillSlices td * sb + 16 * q) nsc with
        | (.ok xb, s), (.ok xs, _) =>
          let p := smvSlice fmt cnt xb bb (xs.map (·.toNat)) (bs.map (·.toNat))
          let r := if q = 0 then (p.1, (0 : BitVec 5)) else fpAdd spFP32 0 (spFP32.decode acc) (spFP32.decode p.1)
          s.smvRow c n td xk y f (q + 1) r.1 (fl ||| p.2 ||| r.2)
        | (.error e, s), _ => (.error e, s)
        | _, (.error e, s) => (.error e, s)

/-- The y words from row y on, f of them. -/
def State.smvRows (s : State) (c : EngCtx) (n : Nat) (td : BitVec 1024) (xk : Nat) :
    Nat → Nat → BitVec 5 → Except EngErr (List Nat × BitVec 5) × State
  | 0, _, fl => (.ok ([], fl), s)
  | f + 1, y, fl =>
    match s.smvRow c n td xk y (sillSlices td) 0 0 0 with
    | (.error e, s) => (.error e, s)
    | (.ok w, s) =>
      match s.smvRows c n td xk f (y + 1) (fl ||| w.2) with
      | (.error e, s) => (.error e, s)
      | (.ok (l, fl), s) => (.ok (w.1 :: l, fl), s)

/-- A chunk's words are performed and its bit is set; the last chunk ends the transfer. -/
def State.smvLand (s : State) (r : XRef) (x : Xfer) (k key : Nat) (ws : List Nat) (fl : BitVec 5) : State :=
  match s.storeAt key (ws.flatMap (toBytes 4)) with
  | (some _, s) => s.failXfer r 4
  | (none, s) =>
    (s.setXfer r { x with bitmap := x.bitmap ||| BitVec.ofNat 64 (2 ^ k), started := x.started ||| BitVec.ofNat 64 (2 ^ k),
                          flags := x.flags ||| fl }).doneXfer r

/-- Chunk k of an SMV. -/
def State.smvChunk (s : State) (n h : Nat) (r : XRef) (x : Xfer) (td : BitVec 1024) (w : W64) (k : Nat) : State :=
  let c := s.engCtx r (tlbSill n)
  let per := 128 * 2 ^ fld w.toNat 48 3
  let y0 := k * per
  match s.smvRows c n td (s.scratchAt h (fld w.toNat 0 24)) (min (tdDim td 0) (y0 + per) - y0) y0 0 with
  | (.error e, s) => s.sillErr r e
  | (.ok (ws, fl), s) => s.smvLand r x k (s.scratchAt h (fld w.toNat 24 24 + 4 * y0)) ws fl

/-! Stage rings. -/

/-- Bytes of a ring's header and state bytes (R169). -/
def ringHead (nslot : Nat) : Nat := 64 + roundUp nslot 64

/-- Scale bytes of a tile in a slot (R335). -/
def tileScaleBytes (td : BitVec 1024) : Nat :=
  if fmtScaled (tdFmt td) ∧ tdScale td ≠ 0 then
    let ext := tdTiles td
    (ext.take (ext.length - 1)).foldl (· * ·) 1 * ceilDiv (ext.getD (ext.length - 1) 0) 32
  else 0

/-- Bytes of a tile in a slot (R335). -/
def slotTileBytes (td : BitVec 1024) : Nat := tdTileBytes td + tileScaleBytes td

/-- The states of a ring as the sill takes them over at SSUB: those that software owns or leaves to it; it judges any other code as
written to a byte that is not software's (R170; DESIGN CHOICE, log 92). A byte that cannot be read is met when the sill looks at it
(R398). -/
def State.ringTake (s : State) (k nslot : Nat) : Tab Nat :=
  (List.range nslot).filterMap fun i =>
    let st := (memGet s.mem (k + 64 + i)).toNat
    if (st = 2 ∨ st = 3) ∧ !(readBad s (k + 64 + i) 1) then some (i, st) else none

/-- SSUB (R335): FILLED and PULLED are 0 afterwards. -/
def execSsub (a t c : RCode) (s : State) : Outcome State Fault Refusal :=
  withA (.ssub a t c) [c] [a] s fun v s =>
    let h := s.curHart
    let off := fld (v.getD 0 0).toNat 0 24
    let first := fld (v.getD 0 0).toNat 32 32
    let bound := (s.hart h).r.bound
    let k := s.scratchAt h off
    match s.tensUse h t.toNat (evalOf (.ssub a t c)) with
    | (.error e, s) => s.trap s.cur e
    | (.ok td, s) =>
      if td.buf.isSome && !(td.tileOk first) then s.raise .bounds (w64 first)
      else if off % 64 ≠ 0 ∨ bound < off + 64 then s.aDone [c] a (refusal 3)
      else match s.loadAt k 8 with
        | (.error e, s) => s.raise e (w64 (ownBase + off))
        | (.ok d, s) =>
          let nslot := fld d 0 8 + 1
          let sz := fld d 32 32
          if sz % 512 ≠ 0 ∨ sz < slotTileBytes td.td ∨ bound < off + ringHead nslot + nslot * sz then
            s.aDone [c] a (refusal 3)
          else
            match s.freeSlot h with
            | none => s.aDone [c] a (refusal 1)
            | some _ =>
              let n := s.sillFor (s.hart h).ctx.ptbase td.td
              if s.sillFull n then s.standAt .stall
              else match s.storeAt (k + 8) (List.replicate 16 0) with
                | (some e, s) => s.raise e (w64 (ownBase + off + 8))
                | (none, s) =>
                  s.sillLaunch h n [c] a 1
                    (.ssub td.td td.buf.isSome off nslot sz first (s.ringTake k nslot) []) .sub

/-- A subscription under way. -/
structure Sub where
  h : Nat
  ref : XRef
  x : Xfer
  t : Tens
  off : Nat
  nslot : Nat
  slotsz : Nat
  next : Nat
  states : Tab Nat
  tiles : Tab Nat

/-- The subscription of a transfer, while it is ACTIVE. -/
def State.sub? (s : State) (r : XRef) : Option Sub :=
  match r with
  | .slot h _ _ => match s.xfer? r with
    | some x => match x.job with
      | .ssub td buf off nslot slotsz next states tiles =>
        if x.state = .active then some ⟨h, r, x, s.engTens r td buf, off, nslot, slotsz, next, states, tiles⟩ else none
      | _ => none
    | none => none
  | .cmd _ | .parked _ _ _ _ => none

/-- Writes back what the sill remembers of a subscription. -/
def State.setSub (s : State) (b : Sub) : State :=
  s.setXfer b.ref { b.x with job := .ssub b.t.td b.t.buf.isSome b.off b.nslot b.slotsz b.next b.states b.tiles }

/-- Cells of the state byte of slot i and of the slot itself (R169). -/
def State.ringState (s : State) (b : Sub) (i : Nat) : Nat := s.scratchAt b.h (b.off + 64 + i)
def State.ringSlot (s : State) (b : Sub) (i : Nat) : Nat := s.scratchAt b.h (b.off + ringHead b.nslot + i * b.slotsz)

/-- May software have brought a state byte from what the sill last saw to what it sees now (R170)? -/
def ringMoveOk (old now : Nat) : Bool := old == now || (old == 2 && (now == 3 || now == 0))

/-- Does the sill meet an uncorrectable error when it reads the state bytes of a ring (R398)? -/
def State.ringBad (s : State) (b : Sub) : Bool := readBad s (s.ringState b 0) b.nslot

/-- The state bytes as the sill sees them now; none after a violation (R170). -/
def State.ringLook (s : State) (b : Sub) : Option Sub :=
  let now := (List.range b.nslot).map fun i => (i, (memGet s.mem (s.ringState b i)).toNat)
  if now.all fun p => ringMoveOk (tgetD b.states p.1 0) p.2 then some { b with states := now } else none

/-- Moves slot i to a state, in scratch and in what the sill remembers. -/
def State.ringMove (s : State) (b : Sub) (i st : Nat) : Option Cause × Sub × State :=
  let b := { b with states := tput b.states i st }
  match s.storeAt (s.ringState b i) [BitVec.ofNat 8 st] with
  | (some e, s) => (some e, b, s)
  | (none, s) => (none, b, s.setSub b)

/-- The element positions of a tile and, for a tensor with scales, the blocks of 32 of each row (R335). -/
def tileBlocks (td : BitVec 1024) : List Nat :=
  if tileScaleBytes td = 0 then []
  else
    let last := (tdTiles td).getD (tdRank td - 1) 1
    let per := ceilDiv last 32
    (List.range (tileScaleBytes td)).map fun i => i / per * last + 32 * (i % per)

/-- Places of the bytes of position j of tile n; none outside the tensor. -/
def Tens.elemLocs (t : Tens) (n j : Nat) : List Loc :=
  if t.inside n j then (List.range (max 1 (t.w / 8))).map (t.elem n j).1.plus else []

/-- The image of a tile in a slot (R335): elements in dense row-major order, 0 outside the tensor, then the scales. The
unused bits of a last byte and the scales of blocks outside the tensor are left open. -/
def State.tileImage (s : State) (c : EngCtx) (n : Nat) (t : Tens) (tile : Nat) : Except EngErr (List Byte) × State :=
  let w := t.w
  let cnt := tdTileElems t.td
  let els := (List.range cnt).map fun j => (j, t.elemLocs tile j)
  let scs := (tileBlocks t.td).map fun j => ((t.scaleIn tile j).map fun a => Loc.va (a : Int)).toList
  match s.sillReads c n (els.flatMap (·.2)) with
  | (.error e, s) => (.error e, s)
  | (.ok bs, s) =>
    match s.sillReads c n scs.flatten with
    | (.error e, s) => (.error e, s)
    | (.ok sc, s) =>
      let vals := (els.zip (pieceList (els.map fun p => p.2.length) bs)).map fun p =>
        if p.1.2.isEmpty then 0 else fld (ofBytes p.2) (t.elem tile p.1.1).2 w
      let f := s.fresh
      let pad := if cnt * w % 8 = 0 then 0 else f.1.toNat % 2 ^ (8 - cnt * w % 8) * 2 ^ (cnt * w)
      let tail := (pieceList (scs.map List.length) sc).map fun p => p.headD (byteAt f.1.toNat 7)
      (.ok (toBytes (tdTileBytes t.td) (packElems w vals + pad) ++ tail), f.2)

/-- FILLED or PULLED counts one more (R169). -/
def State.ringCount (s : State) (k : Nat) : Option Cause × State :=
  match s.loadAt k 8 with
  | (.error e, s) => (some e, s)
  | (.ok v, s) => s.storeAt k (toBytes 8 ((v + 1) % 2 ^ 64))

/-- Slot i, FILLING, receives its tile, and FILLED and FULL follow (R170, R171). The tile's number in the tensor gives its slot
(DEDUCED, log 102). -/
def State.fillSlot (s : State) (n : Nat) (b : Sub) : State :=
  let i := b.next % b.nslot
  match s.tileImage (s.engCtx b.ref (tlbSill n)) n b.t b.next with
  | (.error e, s) => s.sillErr b.ref e
  | (.ok bs, s) =>
    match s.storeAt (s.ringSlot b i) bs with
    | (some _, s) => s.failXfer b.ref 4
    | (none, s) =>
      match s.ringCount (s.scratchAt b.h (b.off + 8)) with
      | (some _, s) => s.failXfer b.ref 4
      | (none, s) =>
        let b : Sub := { b with next := b.next + 1, tiles := tput b.tiles i b.next }
        match s.ringMove b i 2 with
        | (some _, _, s) => s.failXfer b.ref 4
        | (none, _, s) => s

/-- Is a subscription ending: stopped or cancelled (R322, R337)? -/
def State.subEnding (s : State) (n : Nat) (b : Sub) : Bool :=
  b.x.cancelled || (s.sillQueue n).any fun c => match c with
    | .stop r => r == b.ref
    | _ => false

/-- What a sill can do next for a subscription (R170). -/
inductive SubStep where
  | nothing
  | badRing
  /-- the ring's state bytes cannot be read. -/
  | uncorr
  /-- start the next tile. -/
  | start (b : Sub)
  /-- complete the tile under way. -/
  | fill (b : Sub)

/-- The next fill step of a subscription of sill n. -/
def State.subStep (s : State) (n : Nat) (r : XRef) : SubStep :=
  match s.sub? r with
  | none => .nothing
  | some b =>
    if s.ringBad b then .uncorr
    else match s.ringLook b with
    | none => .badRing
    | some b =>
      match tgetD b.states (b.next % b.nslot) 0 with
      | 1 => .fill b
      | 0 => if b.t.tileOk b.next && !(s.subEnding n b) then .start b else .nothing
      | _ => .nothing

/-! Whose turn it is. -/

/-- Is the command a write-back or the stop of a subscription? -/
def SillCmd.endsSub (c : SillCmd) (r : XRef) : Bool :=
  match c with
  | .pull q _ _ _ => q == r
  | .stop q => q == r
  | _ => false

/-- Has a subscription been stopped, with every earlier write-back of it done, or been cancelled? -/
def State.subOver (s : State) (n : Nat) (b : Sub) : Bool :=
  b.x.cancelled || match (s.sillQueue n).find? fun c => c.endsSub b.ref with
    | some (SillCmd.stop _) => true
    | _ => false

/-- What an SMV has still to do: its hart, transfer, tensor, offsets and next chunk. -/
def State.smvWork (s : State) (r : XRef) : Option (Nat × XRef × Xfer × BitVec 1024 × W64 × Nat) :=
  match r with
  | .slot h _ _ => match s.xfer? r with
    | some x => match x.job with
      | .smv td w => if x.state = .active ∧ !x.cancelled then
          (firstIdx x.chunks fun k => !(x.started.getLsbD k)).map fun k => (h, r, x, td, w, k)
        else none
      | _ => none
    | none => none
  | .cmd _ | .parked _ _ _ _ => none

/-- Can a sill do anything for a command now? -/
def State.sillCan (s : State) (n : Nat) (c : SillCmd) : Bool :=
  match c with
  | .smv r => (s.smvWork r).isSome
  | .sub r => (match s.subStep n r with | .nothing => false | _ => true) || (s.sub? r).any (·.x.cancelled)
  | .pull r _ _ _ => (s.sub? r).isSome
  | .stop r => (s.sub? r).any (s.subOver n)

/-- The command a sill serves: the oldest for which it can do something, with its place in the queue (R168). -/
def State.sillTurn (s : State) (n : Nat) : Option (Nat × SillCmd) :=
  let q := s.sillQueue n
  (List.range q.length).findSome? fun k => (q[k]?).bind fun c => if s.sillCan n c then some (k, c) else none

/-- The SMV whose turn it is, and its chunk. -/
def State.smvNext (s : State) (n : Nat) : Option (Nat × XRef × Xfer × BitVec 1024 × W64 × Nat) :=
  match s.sillTurn n with
  | some (_, .smv r) => s.smvWork r
  | _ => none

/-- SMV_CHUNK (R334): sill n finishes a chunk of y. -/
def execSmvChunk (s : State) : Outcome State Fault Refusal :=
  .next (match s.smvNext s.ev.n with
    | none => s
    | some (h, r, x, td, w, k) => s.smvChunk s.ev.n h r x td w k)

/-- The subscription whose turn it is, with what there is to do for its tiles. -/
def State.subNext (s : State) (n : Nat) : Option (XRef × SubStep) :=
  match s.sillTurn n with
  | some (_, .sub r) => match s.subStep n r with
    | .nothing => none
    | st => some (r, st)
  | _ => none

/-- SILL_TILE_FILL (R170): sill n moves the next slot to FILLING, or completes the tile under way. -/
def execSillTileFill (s : State) : Outcome State Fault Refusal :=
  let n := s.ev.n
  .next (match s.subNext n with
    | none => s
    | some (r, st) => match st with
      | .nothing => s
      | .badRing => s.failXfer r 8
      | .uncorr => s.countUncorr.failXfer r 4
      | .start b => match s.ringMove b (b.next % b.nslot) 1 with
        | (some _, _, s) => s.failXfer r 4
        | (none, _, s) => s
      | .fill b => s.fillSlot n b)

/-! SPULL. -/

/-- A live subscription of a hart that a TID names. -/
def State.subOf (s : State) (h : Nat) (b : W64) : Option XRef :=
  match s.live h b with
  | none => none
  | some i =>
    let r : XRef := .slot h i (s.slot h i).gen
    (s.sub? r).map fun _ => r

/-- SPULL (R336). -/
def execSpull (b t : RCode) (s : State) : Outcome State Fault Refusal :=
  withA (.spull b t) [b] [] s fun v s =>
    let h := s.curHart
    match s.tensUse h t.toNat (evalOf (.spull b t)) with
    | (.error e, s) => s.trap s.cur e
    | (.ok td, s) =>
      if tdRdonly td.td then s.raise .pprot (w64 t.toNat)
      else match s.subOf h (v.getD 0 0) with
        | none => s.aDone0 [b]
        | some r =>
          let n := s.sillOf r
          if s.sillFull n then s.standAt .stall else (s.sillPut n (.pull r td.td td.buf.isSome 0)).aDone0 [b]

/-- The write-back whose turn it is: its place in the queue, the subscription, the tensor and the scan. -/
def State.pullNext (s : State) (n : Nat) : Option (Nat × XRef × Tens × Nat) :=
  match s.sillTurn n with
  | some (k, .pull r td buf scan) => some (k, r, s.engTens r td buf, scan)
  | _ => none

/-- Does a tile of the target match the slot's tile shape (R336)? A slot that this subscription has not filled holds no tile
(DESIGN CHOICE, log 92). -/
def pullFits (b : Sub) (t : Tens) (tile : Option Nat) : Bool :=
  tdLayout t.td == 0 && tdFmt t.td == tdFmt b.t.td && tdTiles t.td == tdTiles b.t.td && tile.any t.tileOk

/-- Writes of a slot's image of 4-bit elements into a tile: where each nibble goes. -/
def pullNibbles (t : Tens) (tile v : Nat) : List (Loc × Nat × Nat) :=
  (List.range (tdTileElems t.td)).filterMap fun j =>
    if t.inside tile j then some ((t.elem tile j).1, (t.elem tile j).2, elemOf 4 v j) else none

/-- Replaces the nibbles of the bytes at these cells. -/
def State.mergeNibbles (s : State) : List (Nat × Nat × Nat) → List Host.Cell → List Host.Cell
  | [], acc => acc
  | (k, bit, x) :: t, acc =>
    let old := ((acc.find? fun c => c.1 == k).map (·.2)).getD (memGet s.mem k)
    let new : Byte := BitVec.ofNat 8 (setFld old.toNat bit 4 x)
    s.mergeNibbles t ((k, new) :: acc.filter fun c => c.1 != k)

/-- The cells a write-back writes: the tile's elements, and its scales where both tensors have them. -/
def State.pullCells (s : State) (c : EngCtx) (b : Sub) (t : Tens) (tile : Nat) (bs : List Byte) :
    Except EngErr (List Host.Cell) × State :=
  let w := t.w
  let v := ofBytes (bs.take (tdTileBytes t.td))
  let sc := bs.drop (tdTileBytes t.td)
  let blocks := if tileScaleBytes t.td = tileScaleBytes b.t.td then tileBlocks t.td else []
  let scs := (List.range blocks.length).filterMap fun i =>
    (t.scaleIn tile (blocks.getD i 0)).map fun a => (Loc.va (a : Int), sc.getD i 0)
  let plain := (List.range (tdTileElems t.td)).flatMap fun j =>
    let ls := t.elemLocs tile j
    (List.range ls.length).map fun i => (ls.getD i (.cell 0), byteAt (elemOf w v j) i)
  let nib := if w = 4 then pullNibbles t tile v else []
  let whole := (if w = 4 then [] else plain) ++ scs
  match s.engCells c (whole.map (·.1)) with
  | (.error e, s) => (.error e, s)
  | (.ok ks, s) =>
    match s.engCells c (nib.map (·.1)) with
    | (.error e, s) => (.error e, s)
    | (.ok ns, s) =>
      let cells : List Host.Cell := ks.zip (whole.map (·.2))
      (.ok (s.mergeNibbles (ns.zip (nib.map (·.2))) [] ++ cells), s)

/-- The write-back of slot i, PULLING, into tensor t; PULLED and EMPTY follow (R336). -/
def State.pullSlot (s : State) (n : Nat) (b : Sub) (t : Tens) (i : Nat) : Bool × State :=
  if !(pullFits b t (tget b.tiles i)) then (false, s.failXfer b.ref 3)
  else match s.sillScratch (s.ringSlot b i) (slotTileBytes b.t.td) with
    | (.error e, s) => (false, s.sillErr b.ref e)
    | (.ok bs, s) =>
      match s.pullCells (s.engCtx b.ref (tlbSill n)) b t (tgetD b.tiles i 0) bs with
      | (.error e, s) => (false, s.sillErr b.ref e)
      | (.ok cs, s) =>
        if s.cellsBad cs then (false, (s.countUncorr).failXfer b.ref 4)
        else
          let s := s.storeCells cs
          match s.ringCount (s.scratchAt b.h (b.off + 16)) with
          | (some _, s) => (false, s.failXfer b.ref 4)
          | (none, s) =>
            match s.ringMove b i 0 with
            | (some _, _, s) => (false, s.failXfer b.ref 4)
            | (none, _, s) => (true, s)

/-- The write-back at place k of a queue goes on to the next slot, or is done. -/
def State.pullStep (s : State) (n k : Nat) (r : XRef) (t : Tens) (scan nslot : Nat) : State :=
  s.setSillQueue n (if scan + 1 < nslot then setAt (s.sillQueue n) k (.pull r t.td t.buf.isSome (scan + 1))
    else (s.sillQueue n).eraseIdx k)

/-- SILL_SLOT_PULL (R336): the scan of sill n's oldest write-back looks at its next slot: a FINISHED one moves to PULLING,
a PULLING one is written back, any other is passed. -/
def execSillSlotPull (s : State) : Outcome State Fault Refusal :=
  let n := s.ev.n
  .next (match s.pullNext n with
    | none => s
    | some (k, r, t, scan) =>
      if (s.sub? r).any s.ringBad then s.countUncorr.failXfer r 4
      else match (s.sub? r).bind s.ringLook with
      | none => s.failXfer r 8
      | some b =>
        match tgetD b.states scan 0 with
        | 3 => match s.ringMove b scan 4 with
          | (some _, _, s) => s.failXfer r 4
          | (none, _, s) => s
        | 4 => match s.pullSlot n b t scan with
          | (true, s) => s.pullStep n k r t scan b.nslot
          | (false, s) => s
        | _ => s.pullStep n k r t scan b.nslot)

/-! The end of a subscription. -/

/-- SSTOP (R337). -/
def execSstop (b : RCode) (s : State) : Outcome State Fault Refusal :=
  withA (.sstop b) [b] [] s fun v s =>
    match s.subOf s.curHart (v.getD 0 0) with
    | none => s.aDone0 [b]
    | some r =>
      let n := s.sillOf r
      if s.sillFull n then s.standAt .stall else (s.sillPut n (.stop r)).aDone0 [b]

/-- The subscription whose turn it is to end. -/
def State.subToEnd (s : State) (n : Nat) : Option Sub :=
  let done : XRef → Option Sub := fun r => (s.sub? r).bind fun b => if s.subOver n b then some b else none
  match s.sillTurn n with
  | some (_, .sub r) => done r
  | some (_, .stop r) => done r
  | _ => none

/-- The write-back under way for a subscription: its tensor and slot. -/
def State.pullUnderWay (s : State) (n : Nat) (b : Sub) : Option (Tens × Nat) :=
  ((s.sillQueue n).filterMap fun c => match c with
    | .pull r td buf scan => if r == b.ref && tgetD b.states scan 0 == 4 then some (s.engTens r td buf, scan) else none
    | _ => none).head?

/-- SUBSCRIPTION_END (R337): sill n completes a FILLING slot to FULL and a PULLING slot to EMPTY, frees the queue
entries, sets bit 0, and the transfer ends DONE. -/
def execSubscriptionEnd (s : State) : Outcome State Fault Refusal :=
  let n := s.ev.n
  .next (match s.subToEnd n with
    | none => s
    | some b0 =>
      if s.ringBad b0 then s.countUncorr.failXfer b0.ref 4
      else match s.ringLook b0 with
      | none => s.failXfer b0.ref 8
      | some b =>
        if tgetD b.states (b.next % b.nslot) 0 = 1 then s.fillSlot n b
        else match s.pullUnderWay n b with
          | some (t, i) => (s.pullSlot n b t i).2
          | none => (s.setXfer b.ref { b.x with bitmap := b.x.bitmap ||| 1 }).doneXfer b.ref)

end Sys2Proof.Machine
end

