-- ==== Sys2Proof/Machine/Park.lean ====
section
/-! DEFINITION. Park frames (R191..R193, R298), parking and resume (R392..R396). What no section of a frame holds stays
with the device, in State.parked. The spec names no source of RBASE: placement gives a free value (log 23). -/

namespace Sys2Proof.Machine

open Host (Outcome)

/-! Layout. -/

/-- Bytes of a vector register of a hart. -/
def Hart.vb (v : Hart) : Nat := 4 * v.id.lanes

/-- Sizes of the sections before IMAGE, in the order of R191. -/
def secSizes (vb : Nat) : List Nat :=
  [256, 960, 512, 2048, 72, 5 * vb, 8 * vb, 3 * vb, 32 * vb, 256, 512 * vb, 4 * (256 + 16 * vb), 4096, 256]

/-- Offset of section k: each starts at the next multiple of 64 (R191). -/
def secOff (vb k : Nat) : Nat := ((secSizes vb).take k).foldl (fun a n => a + roundUp n 64) 0

/-- Bytes of a frame that saves n granules (R191, R298). -/
def frameSize (vb n : Nat) : Nat := secOff vb 14 + 4160 * n + 4160

/-! Sections. -/

/-- Dwords as bytes. -/
def dwBytes (l : List W64) : List Byte := l.flatMap fun d => toBytes 8 d.toNat

/-- Dword i of bytes. -/
def dwAt (bs : List Byte) (i : Nat) : W64 := w64 (ofBytes ((bs.drop (8 * i)).take 8))

/-- A value of n bytes at an offset. -/
def natAt (bs : List Byte) (off n : Nat) : Nat := ofBytes ((bs.drop off).take n)

/-- n vector registers of a table, from key 0. -/
def vregBytes (vb n : Nat) (t : Tab VReg) : List Byte := (List.range n).flatMap fun k => toBytes vb (tgetD t k 0).toNat

/-- A table of n vector registers. -/
def vregsAt (vb n : Nat) (bs : List Byte) : Tab VReg :=
  (List.range n).map fun k => (k, BitVec.ofNat 1024 (natAt bs (vb * k) vb))

/-- The CSRs of the CSR section, in its order (R191). -/
def frameCsrs : List Nat :=
  [0x040, 0x041, 0x042, 0x011, 0x030, 0x031, 0x032, 0x020, 0x021, 0x045, 0x043, 0x008, 0x100, 0x101, 0x102, 0x103,
   0x104, 0x105, 0x080, 0x081, 0x082, 0x083, 0x084, 0x085, 0x086, 0x087]

/-- The header (R192). -/
def State.hdrBytes (s : State) (h : Nat) (r : ParkReq) : List Byte :=
  let v := s.hart h
  dwBytes ([w64 (0x5046_524D + 2 ^ 32 + v.id.lanes * 2 ^ 40), 0, 0, 0, 0, v.id.stepid, w64 (s.hartId h),
      w64 (v.a.pc.toNat % 2 ^ 48), w64 (v.e.pc.toNat % 2 ^ 48), w64 v.id.rbase, w64 v.id.rsize, w64 v.id.scrb,
      w64 (v.id.kernid.toNat * 2 ^ 32), v.id.opbaddr.setWidth 64,
      w64 (r.reason + (if r.reason = 0 then r.cause.code else 0) * 2 ^ 8 + b2n v.a.tbarrived * 2 ^ 16),
      w64 (r.va.toNat % 2 ^ 48)]
    ++ padDw 8 v.id.stepix ++ List.replicate 8 0)

/-- The image of an entry of an A→E queue; a failed one has no value (R150). -/
def AEntry.image : AEntry → VReg
  | .full v | .filling v => v
  | .failing _ | .failed _ => 0

/-- QSTATE (R191). -/
def Hart.qstate (v : Hart) : List Byte :=
  dwBytes ((List.range 4).map (fun n => w64 ((tgetD v.r.ae n []).length))
    ++ (List.range 4).map (fun n => w64 ((tgetD v.r.ea n []).length + (if v.e.reserved = some n then 256 else 0)))
    ++ [w64 (v.e.latch.length + b2n v.e.kept * 256)])

/-- An accumulator's part of XACC (R191, R307). -/
def XAcc.bytes (x : XAcc) (lanes : Nat) : List Byte :=
  dwBytes [w64 (x.depth + x.count * 2 ^ 8 + x.wdepth * 2 ^ 16), x.thresh, x.tol, w64 (x.conv.toNat + x.stag.toNat * 2 ^ 32),
      w64 x.nzd.toNat, 0, 0, 0]
  ++ dwBytes ((List.range 8).map fun k => tgetD x.wt k 0)
  ++ (List.range 32).flatMap (fun i => toBytes 4 (tgetD x.last i 0).toNat)
  ++ (List.range 8).flatMap fun k => dwBytes ((List.range lanes).map fun i => tgetD (x.hist.getD k []) i 0)

/-- A slot's record (R193). -/
def Xfer.bytes (x : Xfer) : List Byte :=
  dwBytes ([w64 (x.state.code + x.gen.toNat * 2 ^ 8 + x.status.toNat * 2 ^ 16 + b2n x.sill * 2 ^ 24), x.bitmap, x.launchPc, 0]
    ++ (List.range 8).map x.sh.get ++ List.replicate 4 0)

/-- A beam's rows as bytes (R298). -/
def Beam.bytes (b : Beam) (vb : Nat) : List Byte := vregBytes vb 256 b.data

/-- A scale store as bytes (R298). -/
def Beam.scaleBytes (b : Beam) : List Byte := dwBytes ((List.range 256).map fun j => tgetD b.scale j 0)

/-- SCALE (R298). -/
def MRegs.scaleSec (m : MRegs) : List Byte :=
  dwBytes [w64 (b2n m.active.empty + b2n m.loading.empty * 2 + b2n m.lerr.isSome * 4 + m.loading.fmt.toNat * 16
        + m.kt * 2 ^ 16),
      w64 (m.active.tn + m.active.tk * 2 ^ 16 + m.loading.tn * 2 ^ 32 + m.loading.tk * 2 ^ 48),
      (m.lerr.getD 0).setWidth 64, m.latch, 0, 0, 0, 0]
  ++ m.active.scaleBytes ++ m.loading.scaleBytes

/-- Where a hart's allocation stands in memory. -/
def State.allocKey (s : State) (h : Nat) : Nat := scratchKey (bayOf h) (s.hart h).r.alloc

/-- The pieces of IMAGE for granule g at index i: the slots' written bytes and the headers (R137, R144, R191). -/
def State.imagePieces (s : State) (h vb i g : Nat) : List (Nat × List Byte) :=
  let base := secOff vb 14 + 4160 * i
  let raw := s.bytes (s.allocKey h + 4096 * g) 4096
  let enc := (List.range 8).map fun b => encodeBlock ((raw.drop (512 * b)).take 512)
  (enc.zipIdx.map fun p => (base + 512 * p.2, p.1.2)) ++ [(base + 4096, enc.flatMap fun p => toBytes 2 p.1)]

/-- The granules a frame saves, in order. -/
def HRes.granules (r : HRes) : List Nat := (List.range 2048).filter r.dirty.contains

/-- The granule bitmap. -/
def granBytes (l : List Nat) : List Byte := toBytes 256 (l.foldl (fun a g => a + 2 ^ g) 0)

/-- A frame as pieces: offset and bytes. -/
def State.framePieces (s : State) (h : Nat) (r : ParkReq) : List (Nat × List Byte) :=
  let v := s.hart h
  let vb := v.vb
  let gs := v.r.granules
  let secs : List (List Byte) :=
    [s.hdrBytes h r,
     dwBytes ((span 8 120).map fun n => tgetD v.a.x n 0),
     dwBytes (padDw 64 (frameCsrs.map (s.csrHart h))),
     (List.range 8).flatMap fun n => toBytes 256 (tgetD v.e.mask n 0).toNat,
     v.qstate,
     vregBytes vb 4 v.e.l ++ toBytes vb ((v.e.staging.getD 0).toNat),
     vregBytes vb 8 v.e.o,
     (List.range 3).flatMap fun k => toBytes vb (v.e.latch.getD k 0).toNat,
     (List.range 4).flatMap fun n => (List.range 8).flatMap fun k =>
       toBytes vb (((tgetD v.r.ae n []).map AEntry.image).getD k 0).toNat,
     (List.range 4).flatMap fun n => dwBytes ((List.range 8).map fun k => (tgetD v.r.ea n []).getD k 0),
     v.m.active.bytes vb ++ v.m.loading.bytes vb,
     (List.range 4).flatMap fun n => (tgetD v.m.xa n XAcc.zero).bytes v.id.lanes,
     (List.range 32).flatMap fun i => (s.slot h i).bytes,
     granBytes gs]
  (secs.zipIdx.map fun p => (secOff vb p.2, p.1))
  ++ gs.zipIdx.flatMap (fun p => s.imagePieces h vb p.2 p.1)
  ++ [(secOff vb 14 + 4160 * gs.length, v.m.scaleSec)]

/-- Writes pieces into a slot as the device writes PLATE pages (R182). -/
def State.writePieces (s : State) (pt base : Nat) : List (Nat × List Byte) → Option Cause × State
  | [] => (none, s)
  | (off, bs) :: t =>
    match s.ctlWriteAs pt true (base + off) bs with
    | (.error e, s) => (some e.1, s)
    | (.ok _, s) => s.writePieces pt base t

/-! Parking. -/

/-- A transfer's chunks in flight land (R193, R393); one that cannot be written fails it. -/
def State.landSettle (s : State) (r : XRef) : State :=
  match s.xfer? r with
  | none => s
  | some x =>
    let s := x.flight.foldl (fun (s : State) f =>
      match s.landOne r f with
      | (true, s) => s
      | (false, s) => s.failXfer r 4) s
    s.doneXfer r

/-- A slot that a subscription is FILLING completes (R393 item 3). -/
def State.fillSettle (s : State) (r : XRef) : State :=
  if (s.sub? r).any s.ringBad then s.countUncorr.failXfer r 4
  else match (s.sub? r).bind s.ringLook with
  | some b =>
    if tgetD b.states (b.next % b.nslot) 0 = 1 then s.fillSlot (s.sillOf r) b else s
  | none => s

/-- The E-stream of a hart stops at the point of R395, every row completes, its beam load finishes, its stream loads fill, its
chunks in flight land (R393 items 1 to 3). -/
def State.drainHart (s : State) (h : Nat) : State :=
  let s := (s.mxServe (bayOf h)).modHart h Hart.stopE
  let s := (s.hart h).m.rows.foldl (fun s r => s.rowDone h r) s
  let s := s.modM h MRegs.loadDone
  let s := s.modR h fun r => { r with ae := r.ae.map fun p => (p.1, p.2.map fun e => match e with
    | .filling v => .full v
    | .failing va => .failed va
    | e => e) }
  (s.hartXfers h).foldl (fun s r => (s.landSettle r).fillSettle r) s

/-- Must parking still wait: for a REMQ's record (R393 item 2), or for an SMV (item 3)? -/
def Hart.parkWaits (v : Hart) : Bool :=
  v.a.remq.isSome || v.r.slots.any fun p => p.2.state == .active && match p.2.job with
    | .smv _ _ => true
    | _ => false

/-- Can the step of hart h take frame slots (R183)? The slots, one per hart. -/
def State.parkSlots (s : State) (h : Nat) : Option (List Nat) :=
  let hs := s.stepHarts h
  let rcb := (s.hart h).ctx.rcb
  let lg := (s.frameArea rcb).2.2
  if hs.all fun g => decide (frameSize (s.hart g).vb (s.hart g).r.granules.length ≤ 2 ^ lg) then
    s.frameFree rcb hs.length
  else none

/-- The state after the slot-use bitmap has been read for the step of hart h (R183, R398). -/
def State.frameSeen (s : State) (h : Nat) : State :=
  let rcb := (s.hart h).ctx.rcb
  let a := s.frameArea rcb
  if a.2.1 = 0 then s else s.ctlSeen (s.ctxOf rcb).ptbase a.1 (ceilDiv a.2.1 8)

/-- The main registers of a hart go to their backing space (R100); one that cannot be read stops it (R398). -/
def State.flushRegs (s : State) (h : Nat) : Option Cause × State :=
  let v := s.hart h
  if !(v.e.bad.isEmpty) then (some .uncorr, s.countUncorr)
  else s.writePieces v.ctx.ptbase v.id.rbase ((List.range v.id.rsize).map fun k => (v.vb * k, toBytes v.vb (tgetD v.e.main k 0).toNat))

/-- Flushes and frames of the harts of a step, one slot each (R393 items 4, 5). -/
def State.writeFrames (s : State) (r : ParkReq) : List (Nat × Nat) → Option Cause × State
  | [] => (none, s)
  | (h, slot) :: t =>
    let v := s.hart h
    match s.flushRegs h with
    | (some c, s) => (some c, s)
    | (none, s) =>
      if v.r.granules.any fun g => readBad s (s.allocKey h + 4096 * g) 4096 then (some .uncorr, s.countUncorr)
      else
        match (s.frameMark v.ctx.rcb slot true).writePieces v.ctx.ptbase (s.frameSlot v.ctx.rcb slot) (s.framePieces h r) with
        | (some c, s) => (some c, s)
        | (none, s) => s.writeFrames r t

/-- What the device keeps of a hart beside its frame: placed time stops (R45). -/
def State.keepHart (s : State) (h : Nat) : Hart :=
  let v := s.hart h
  { v with
    a := { v.a with gsnap := none }
    r := { v.r with placedBefore := v.r.placedBefore + (s.cycle - v.r.placedAt), pend := none, presumed := false,
                    pendFor := none, waitPage := none } }

/-- References in engine queues renamed: an entry keeps its place (R172, R193; log 111). -/
def SillCmd.renamed (c : SillCmd) (f : XRef → XRef) : SillCmd :=
  match c with
  | .smv r => .smv (f r)
  | .sub r => .sub (f r)
  | .pull r td b k => .pull (f r) td b k
  | .stop r => .stop (f r)
def State.renameRefs (s : State) (f : XRef → XRef) : State :=
  { s with
    copyq := s.copyq.map fun p => (p.1, p.2.map f)
    sillq := s.sillq.map fun p => (p.1, p.2.map fun c => c.renamed f) }

/-- A reference of a step that leaves its harts, and the same once the step is on harts again. -/
def XRef.park (id : W64) (hs : List Nat) (r : XRef) : XRef :=
  match r with
  | .slot h i g => match hs.idxOf? h with
    | some k => .parked id k i g
    | none => r
  | _ => r
def XRef.unpark (id : W64) (hs : List Nat) (r : XRef) : XRef :=
  match r with
  | .parked j k i g => if j = id then .slot (hs.getD k 0) i g else r
  | _ => r

/-- The notice of a fault park (R394); frame 0 when the step waits in place. -/
def State.parkNotice (s : State) (h : Nat) (r : ParkReq) (frame : Nat) : State :=
  let v := s.hart h
  if r.reason = 0 then
    s.postNotice (noticeOf (if r.cause = .pfault then 0 else 2) r.cause.code r.acc v.ctx.asid r.va.toNat v.ctx.rcb
      v.id.stepid.toNat frame (s.hartId h))
  else s

/-- A step that can take no slot (R183, R390): on a page fault it waits in place, unless its page has come; under PARK-ONLY it ends
FAILED; a pre-emption does not happen. -/
def State.parkFails (s : State) (h : Nat) (r : ParkReq) : State :=
  if r.reason ≠ 0 then s.modR h fun v => { v with pend := none, pendFor := none }
  else if r.cause = .pfault then
    (s.parkNotice h r 0).modR h fun v =>
      { v with pend := none, waitPage := if v.presumed then none else some r.va.toNat }
  else s.failStep h r.cause

/-- The step of hart h leaves its harts (R393). -/
def State.parkWith (s : State) (h : Nat) (r : ParkReq) (slots : List Nat) : State :=
  let hs := s.stepHarts h
  let v := s.hart h
  let fr := hs.zip slots
  match s.writeFrames r fr with
  | (some c, s) => (fr.foldl (fun s p => s.frameMark v.ctx.rcb p.2 false) s).failStep h c
  | (none, s) =>
    let p : Parked := { stepid := v.id.stepid, rcb := v.ctx.rcb, frames := fr, harts := hs.map s.keepHart,
                        ready := r.reason != 0 || v.r.presumed, asid := v.ctx.asid, va := r.va.toNat }
    let mine := ((fr.find? fun q => q.1 == h).map (·.2)).getD 0
    let s := s.parkNotice h r (s.frameSlot v.ctx.rcb mine)
    let s := hs.foldl State.vacate (s.renameRefs (XRef.park v.id.stepid hs))
    { s with parked := s.parked ++ [p] }

/-- Parking of the step of hart h, once nothing it must wait for is left (R393). -/
def State.parkStep (s : State) (h : Nat) (r : ParkReq) : State :=
  let hs := s.stepHarts h
  if hs.any fun g => (s.hart g).parkWaits then s
  else
    let t := (hs.foldl State.drainHart s).frameSeen h
    match t.parkSlots h with
    | some slots => t.parkWith h r slots
    | none => (s.frameSeen h).parkFails h r

/-- PARK (R392, R393): the step of hart n meets the request it holds. -/
def execPark (s : State) : Outcome State Fault Refusal :=
  let v := s.hart s.ev.n
  .next (match v.r.pend with
    | some r => if v.occ && r.reason != 3 then s.parkStep s.ev.n r else s
    | none => s)

/-- PARK_NOTICE_RETRY (R394): TAIL is read again, and held notices are written while there is room. -/
def execParkNoticeRetry (s : State) : Outcome State Fault Refusal := .next (s.noticeDrainL s.notices)

/-! Resume. -/

/-- An accumulator read back. -/
def xaccAt (bs : List Byte) (lanes : Nat) : XAcc :=
  let d := dwAt bs 0
  let cnt := fld d.toNat 8 4
  { depth := fld d.toNat 0 4, count := cnt, wdepth := fld d.toNat 16 4, thresh := dwAt bs 1, tol := dwAt bs 2,
    conv := BitVec.ofNat 32 (natAt bs 0x18 4), stag := BitVec.ofNat 32 (natAt bs 0x1C 4), nzd := BitVec.ofNat 32 (natAt bs 0x20 4),
    wt := (List.range 8).map fun k => (k, dwAt bs (8 + k)),
    last := (List.range 32).map fun i => (i, BitVec.ofNat 32 (natAt bs (0x80 + 4 * i) 4)),
    hist := (List.range cnt).map fun k => (List.range lanes).map fun i => (i, dwAt bs (32 + k * lanes + i)) }

/-- A slot read back over what the device kept (R193): chunks that have not landed start again (R393). -/
def Xfer.restore (x : Xfer) (bs : List Byte) : Xfer :=
  let d := (dwAt bs 0).toNat
  { x with
    state := (match fld d 0 8 with | 1 => .active | 2 => .done | 3 => .failed | _ => .free)
    gen := BitVec.ofNat 8 (fld d 8 8)
    status := BitVec.ofNat 8 (fld d 16 8)
    sill := d.testBit 24
    bitmap := dwAt bs 1
    launchPc := dwAt bs 2
    sh := ⟨dwAt bs 4, dwAt bs 5, dwAt bs 6, dwAt bs 7, dwAt bs 8, dwAt bs 9, dwAt bs 10, dwAt bs 11⟩
    started := dwAt bs 1
    flight := []
    paused := [] }

/-- Entries of an A→E queue read back; the mark of a failed one is kept, and so are entries beyond the eight that the frame holds
(R149; log 110). -/
def restoreAe (old : List AEntry) (n vb : Nat) (bs : List Byte) : List AEntry :=
  ((List.range (min 8 n)).map fun k => match (old[k]? : Option AEntry) with
    | some (.failed va) => .failed va
    | _ => .full (BitVec.ofNat 1024 (natAt bs (vb * k) vb))) ++ (old.drop 8).take (n - 8)

/-- The A-stream's part of a frame. -/
def ARegs.restore (a : ARegs) (hd xs cs : List Byte) : ARegs :=
  let c := dwAt cs
  { a with
    x := (List.range 120).map fun i => (i + 8, dwAt xs i)
    pc := dwAt hd 7, wait := .none
    ascope := (c 7).setWidth 3, escope := (c 8).setWidth 3
    epc := c 12, ecause := c 13, eval := c 14, elaunch := c 15, etid := c 16, eelem := c 17
    cp := ⟨c 18, c 19, c 20, c 21, c 22, c 23, c 24, c 25⟩
    instret := 0, remq := none, gsnap := none
    tbarrived := (dwAt hd 14).getLsbD 16 }

/-- The E-stream's part of a frame. -/
def ERegs.restore (e : ERegs) (vb : Nat) (hd cs ms qs lr os la : List Byte) : ERegs :=
  let c := dwAt cs
  let q := dwAt qs
  let vt := (c 1).toNat
  { e with
    pc := dwAt hd 8, wait := .none, prog := none, bad := []
    vl := fld (c 0).toNat 0 12, vill := vt.testBit 63, group := BitVec.ofNat 2 (fld vt 4 2), fmt := BitVec.ofNat 4 (fld vt 0 4)
    vstart := fld (c 2).toNat 0 12, wb := (c 3).toNat
    fflags := (c 4).setWidth 5, fpen := (c 5).setWidth 5, frm := (c 6).setWidth 2, smiss := (c 10).setWidth 32
    mask := (List.range 8).map fun n => (n, BitVec.ofNat 2048 (natAt ms (256 * n) 256))
    l := vregsAt vb 4 lr
    staging := if e.staging.isSome then some (BitVec.ofNat 1024 (natAt lr (4 * vb) vb)) else none
    o := vregsAt vb 8 os
    latch := (List.range (fld (q 8).toNat 0 3)).map fun k => BitVec.ofNat 1024 (natAt la (vb * k) vb)
    kept := (q 8).getLsbD 8
    reserved := (List.range 4).find? fun n => (q (4 + n)).getLsbD 8 }

/-- A beam read back. -/
def beamAt (empty : Bool) (fmt : BitVec 4) (tn tk vb : Nat) (rows scale : List Byte) : Beam :=
  { empty := empty, fmt := fmt, tn := tn, tk := tk
    data := (vregsAt vb 256 rows).filter fun p => p.2 != 0
    scale := ((List.range 256).map fun j => (j, dwAt scale j)).filter fun p => p.2 != 0 }

/-- The matrix and accumulator part of a frame. -/
def MRegs.restore (m : MRegs) (lanes : Nat) (cs bm xa sc : List Byte) : MRegs :=
  let vb := 4 * lanes
  let mx := (dwAt cs 9).toNat
  let d0 := (dwAt sc 0).toNat
  let d1 := (dwAt sc 1).toNat
  { m with
    abeam := mx.testBit 0
    sfmt := BitVec.ofNat 4 (fld mx 8 4)
    active := beamAt (d0.testBit 0) (BitVec.ofNat 4 (fld mx 12 4)) (fld d1 0 9) (fld d1 16 9) vb bm (sc.drop 0x40)
    loading := beamAt (d0.testBit 1) (BitVec.ofNat 4 (fld d0 4 4)) (fld d1 32 9) (fld d1 48 9) vb (bm.drop (256 * vb))
      (sc.drop 0x840)
    lerr := if d0.testBit 2 then some (BitVec.ofNat 48 (dwAt sc 2).toNat) else none
    kt := fld d0 16 9
    latch := dwAt sc 3
    xa := (List.range 4).map fun n => (n, xaccAt (xa.drop ((256 + 16 * vb) * n)) lanes) }

/-- Reads the sections of a frame, one after another. -/
def State.readSecs (s : State) (pt base : Nat) : List (Nat × Nat) → Except Cause (List (List Byte)) × State
  | [] => (.ok [], s)
  | (off, n) :: t =>
    match s.ctlRead pt (base + off) n with
    | (.error e, s) => (.error e.1, s)
    | (.ok bs, s) =>
      match s.readSecs pt base t with
      | (.error c, s) => (.error c, s)
      | (.ok l, s) => (.ok (bs :: l), s)

/-- The blocks of a granule's image at an address, from its eight headers: of each slot the bytes that its header names are read
(R137, R138); none for a decode error (R140). -/
def State.readBlocks (s : State) (pt a : Nat) (hdrs : List Byte) : List Nat → Except Cause (List (Option (List Byte))) × State
  | [] => (.ok [], s)
  | b :: t =>
    let hdr := natAt hdrs (2 * b) 2
    match s.ctlRead pt (a + 512 * b) (slotBytes hdr) with
    | (.error e, s) => (.error e.1, s)
    | (.ok bs, s) =>
      match s.readBlocks pt a hdrs t with
      | (.error e, s) => (.error e, s)
      | (.ok l, s) => (.ok (decodeBlock hdr bs :: l), s)

/-- A granule's bytes from its image at an address: the headers are read first (R137). -/
def State.readGranule (s : State) (pt a : Nat) : Except Cause (Option (List Byte)) × State :=
  match s.ctlRead pt (a + 4096) 16 with
  | (.error e, s) => (.error e.1, s)
  | (.ok hdrs, s) =>
    match s.readBlocks pt a hdrs (List.range 8) with
    | (.error e, s) => (.error e, s)
    | (.ok l, s) => (.ok (if l.any Option.isNone then none else some (l.flatMap fun b => b.getD [])), s)

/-- The main registers of a resumed hart, from their backing space (R100). -/
def State.reloadRegs (s : State) (v : Hart) : Except Cause (Tab VReg) × State :=
  match s.ctlRead v.ctx.ptbase v.id.rbase (v.vb * v.id.rsize) with
    | (.error e, s) => (.error e.1, s)
    | (.ok bs, s) => (.ok (vregsAt v.vb v.id.rsize bs), s)

/-- The granules of a frame go into the new allocation. -/
def State.restoreGranules (s : State) (pt base key : Nat) (vb : Nat) : List (Nat × Nat) → Option Cause × State
  | [] => (none, s)
  | (i, g) :: t =>
    match s.readGranule pt (base + secOff vb 14 + 4160 * i) with
    | (.error c, s) => (some c, s)
    | (.ok none, s) => (some .none, s)
    | (.ok (some raw), s) => (s.poke (key + 4096 * g) raw).restoreGranules pt base key vb t

/-- One hart of a parked step comes back on hart h with an allocation at off (R393): v is what the device kept, slot its
frame. An error is the cause the step ends with; a decode error has none. -/
def State.resumeHart (s : State) (v : Hart) (h off slot : Nat) : Option Cause × State :=
  let pt := v.ctx.ptbase
  let base := s.frameSlot v.ctx.rcb slot
  let vb := v.vb
  let sizes := secSizes vb
  match s.readSecs pt base ((List.range 14).map fun k => (secOff vb k, sizes.getD k 0)) with
  | (.error c, s) => (some c, s)
  | (.ok secs, s) =>
    let sec : Nat → List Byte := fun k => secs.getD k []
    let bits := ofBytes (sec 13)
    let gs := bitList 2048 bits
    match s.ctlRead pt (base + secOff vb 14 + 4160 * gs.length) 4160 with
    | (.error e, s) => (some e.1, s)
    | (.ok sc, s) =>
      let v : Hart := { v with id := { v.id with rbase := natAt (sec 0) 0x48 6, resumed := true } }
      match s.reloadRegs v with
      | (.error c, s) => (some c, s)
      | (.ok main, s) =>
        let ae := (List.range 4).map fun n =>
          (n, restoreAe (tgetD v.r.ae n []) (fld (dwAt (sec 4) n).toNat 0 4) vb ((sec 8).drop (8 * vb * n)))
        let ea := (List.range 4).map fun n =>
          (n, (List.range (fld (dwAt (sec 4) (4 + n)).toNat 0 4)).map fun k => dwAt (sec 9) (8 * n + k))
        let slots := (List.range 32).map fun i => (i, (tgetD v.r.slots i Xfer.zero).restore ((sec 12).drop (128 * i)))
        let e := v.e.restore vb (sec 0) (sec 2) (sec 3) (sec 4) (sec 5) (sec 6) (sec 7)
        let r : HRes := { v.r with ae := ae, ea := ea, slots := slots, alloc := off, dirty := gs, placedAt := s.cycle }
        let new : Hart :=
          { v with
            a := v.a.restore (sec 0) (sec 1) (sec 2)
            e := { e with main := main }
            m := v.m.restore v.id.lanes (sec 2) (sec 10) (sec 11) sc
            r := r }
        let s := s.setHart h new
        s.restoreGranules pt base (scratchKey (bayOf h) off) vb (gs.zipIdx.map fun p => (p.2, p.1))

/-- The harts of a parked step come back, one after another: kept hart, frame slot, new hart and allocation. -/
def State.resumeHarts (s : State) : List (Hart × Nat × Nat × Nat) → Option Cause × State
  | [] => (none, s)
  | (v, slot, h, off) :: t =>
    match s.resumeHart v h off slot with
    | (some c, s) => (some c, s)
    | (none, s) => s.resumeHarts t

/-- A parked step is placed again, with an acquire at POD (R353, R393): spots are (hart, allocation), one per kept hart. A frame that cannot be read
or decoded ends the step FAILED. -/
def State.resume (s : State) (p : Parked) (spots : List (Nat × Nat)) : State :=
  let items := (p.harts.zip p.frames).zip spots |>.map fun q => (q.1.1, q.1.2.2, q.2.1, q.2.2)
  let kept := (p.harts.zip spots).foldl (fun (s : State) q => s.setHart q.2.1 q.1) s
  let s := ({ kept with parked := kept.parked.filter fun q => q.stepid != p.stepid } : State).renameRefs
    (XRef.unpark p.stepid (spots.map (·.1)))
  let res := s.resumeHarts items
  let s := p.frames.foldl (fun s f => s.frameMark p.rcb f.2 false) res.2
  match res.1 with
  | some c => s.failStep ((spots.headD (0, 0)).1) c
  | none => spots.foldl (fun s q => s.l1Acquire q.1) s

end Sys2Proof.Machine
end

