-- ==== Sys2Proof/Machine/Place.lean ====
section
/-! DEFINITION. The scheduler (R31, R32, R44..R47, R118, R135, R368..R372, R379): waiting steps and their order, the
choice of harts, placement, ageing and pre-emption. -/

namespace Sys2Proof.Machine

open Host (Outcome)

/-! Waiting steps. -/

/-- Would a step's needs keep every node on the path within its budgets (R31)? -/
def State.budgetFit (s : State) (rcb harts scratch regs : Nat) : Bool :=
  (s.path rcb).all fun p =>
    decide (s.rcbFld p 0xC0 0 13 + harts ≤ s.effMaxharts p) && decide (s.rcbFld p 0xC8 0 32 + scratch ≤ s.effScratch p)
      && decide (s.rcbFld p 0xD0 0 23 + regs ≤ s.effRegs p)

/-- A waiting step: of a node, new or parked, with its keys of R369. -/
structure Cand where
  cmd : Cmd
  run : RunNode
  parked : Option Parked
  key : List Nat
  deriving DecidableEq, Repr

/-- Lexicographic order of keys. -/
def keyLt : List Nat → List Nat → Bool
  | [], [] => false
  | [], _ => true
  | _, [] => false
  | x :: t, y :: u => decide (x < y) || (x == y && keyLt t u)

/-- Inserts by key. -/
def candInsert (c : Cand) : List Cand → List Cand
  | [] => [c]
  | d :: t => if keyLt c.key d.key then c :: d :: t else d :: candInsert c t

/-- Slot that walks a command's queue; 0 for none. -/
def State.cmdSlot (s : State) (c : Cmd) : Nat :=
  match c.src with
  | .node _ _ => 0
  | .queue n _ _ => ((s.qslots.find? fun p => p.2.state != .free && p.2.rcb == c.rcb && p.2.n == n).map (·.1)).getD 0

/-- The keys 1 to 4 of R369. -/
def State.candKey (s : State) (c : Cmd) : List Nat :=
  let x := s.ctxOf c.rcb
  [15 - s.agedPrio c.rcb, 2 ^ 64 - s.age c.rcb, x.vf, x.asid, x.region, c.readyAt, s.cmdSlot c, c.src.idx]

/-- Has a node a new step to place (R39, R379)? A failure stops the walker; a POOL node's steps come from its pool (log 83). -/
def State.hasNext (s : State) (c : Cmd) (r : RunNode) : Bool :=
  if blkPool r.blk then (List.range 64).any fun t => ((s.shard c.rcb t).best).isSome else !r.failed && decide (r.next < r.total)

/-- The waiting step of a node, when it has one that fits its budgets (R368): a parked one that is ready keeps its place
there (R392). A node whose control blocks cannot be read has none (log 100). -/
def State.cand? (s : State) (c : Cmd) : Option Cand :=
  match c.run with
  | none => none
  | some r =>
    if s.rcbBad c.rcb || s.useBad c.rcb then none else
    let n := r.needs
    let p := s.parked.find? fun p => p.ready && (p.harts.headD Hart.free).id.node == c.id
    match p with
    | some p => if s.budgetFit c.rcb 0 0 0 then some ⟨c, r, some p, s.candKey c⟩ else none
    | none =>
      if s.hasNext c r ∧ s.budgetFit c.rcb n.harts (n.harts * n.scrb) (n.harts * n.rsize) then
        some ⟨c, r, none, s.candKey c⟩
      else none

/-- The waiting steps in the order of R369. -/
def State.cands (s : State) : List Cand := (s.cmds.filterMap s.cand?).foldr candInsert []

/-! Harts. -/

/-- Does hart h hold a step? -/
def State.occ (s : State) (h : Nat) : Bool := (s.hart h).occ

/-- Does a bay hold no step (R46)? -/
def State.bayEmpty (s : State) (b : Nat) : Bool := (List.range 8).all fun i => !(s.occ (b * 8 + i))

/-- Harts that hold steps on a bay. -/
def State.bayCount (s : State) (b : Nat) : Nat := ((List.range 8).filter fun i => s.occ (b * 8 + i)).length

/-- Lanes per hart of a bay's division; an undivided bay is one hart (log 24). -/
def State.bayDiv (s : State) (b : Nat) : Nat := tgetD s.div b 32

/-- The allocations of a bay. -/
def State.allocs (s : State) (b : Nat) : List (Nat × Nat) :=
  (List.range 8).filterMap fun i =>
    let v := s.hart (b * 8 + i)
    if v.occ ∧ 0 < v.r.allocSize then some (v.r.alloc, v.r.allocSize) else none

/-- Where an allocation of a size goes in a bay's scratchpad (R118): the spec leaves the place open; the lowest one
(log 25). -/
def State.room (s : State) (b size : Nat) : Option Nat :=
  let as := s.allocs b
  argMin id ((0 :: as.map fun a => a.1 + a.2).filter fun o =>
    decide (o + size ≤ 2 ^ 23) && as.all fun a => decide (o + size ≤ a.1) || decide (a.1 + a.2 ≤ o))

/-- Is a bay reserved, and is it so for this node (R371)? -/
def State.resvAt (s : State) (b : Nat) (p : Nat → Bool) : Bool :=
  (match s.trussResv with | some (t, id) => b / 8 == t && p id | none => false)
  || (match s.bayResv with | some (x, id) => b == x && p id | none => false)

/-- May a node place on a bay (R26, R371): one that nothing reserves, or that it has reserved itself? Where the reserved bay lies in the
reserved truss, the two that reserve them may both place there (log 112). -/
def State.mayUse (s : State) (cmd b : Nat) : Bool :=
  s.bayOn b && (s.resvAt b (· == cmd) || !(s.resvAt b fun _ => true))

/-- How near a bay is to the node's previous one (R370 items 1, 2). -/
def nearLevel (last : Option Nat) (b : Nat) : Nat :=
  match last with
  | none => 0
  | some l =>
    if b = l then 0 else if b / 8 = l / 8 then 1 else if b / 32 = l / 32 then 2 else if b / 64 = l / 64 then 3
    else if b / 128 = l / 128 then 4 else 5

/-- The places of an ordinary step in the order of R370: hart and allocation. -/
def State.spots1 (s : State) (cmd : Nat) (n : Needs) (last : Option Nat) : List (List (Nat × Nat)) :=
  let bays := (List.range 512).filter (s.mayUse cmd)
  let cnt := 32 / n.lanes
  let divided := bays.filterMap fun b =>
    if s.bayDiv b ≠ n.lanes then none
    else match firstIdx cnt fun i => !(s.occ (b * 8 + i)), s.room b n.scrb with
      | some i, some o => some (b, [(b * 8 + i, o)])
      | _, _ => none
  let empty := bays.filterMap fun b =>
    if s.bayDiv b ≠ n.lanes ∧ s.bayEmpty b then (s.room b n.scrb).map fun o => [(b * 8, o)] else none
  ((List.range 6).flatMap fun k => (divided.filter fun p => nearLevel last p.1 == k).map (·.2)) ++ empty

/-- The places of a TRUSS step in the order of R370. -/
def State.spots8 (s : State) (cmd : Nat) (n : Needs) : List (List (Nat × Nat)) :=
  let ts := (List.range 64).filter fun t => s.trussCapable t && (List.range 8).all fun b =>
    s.mayUse cmd (t * 8 + b) && (s.bayDiv (t * 8 + b) == n.lanes || s.bayEmpty (t * 8 + b))
  (List.range (32 / n.lanes)).flatMap fun i => ts.filterMap fun t =>
    let sp := (List.range 8).filterMap fun b =>
      if s.occ ((t * 8 + b) * 8 + i) then none else (s.room (t * 8 + b) n.scrb).map fun o => ((t * 8 + b) * 8 + i, o)
    if sp.length = 8 then some sp else none

/-- May a waiting step be placed at harts of truss t: a new POOL step only where the shard holds a QUEUED entry (R379)? -/
def State.shardOk (s : State) (c : Cand) (t : Nat) : Bool :=
  c.parked.isSome || !(blkPool c.run.blk) || ((s.shard c.cmd.rcb t).best).isSome

/-- The harts a waiting step could take, with what its shards hold left aside. -/
def State.freeSpots (s : State) (c : Cand) : List (List (Nat × Nat)) :=
  let n := c.run.needs
  if n.truss then s.spots8 c.cmd.id n else s.spots1 c.cmd.id n c.run.lastBay

/-- The places a waiting step could take. -/
def State.spots (s : State) (c : Cand) : List (List (Nat × Nat)) :=
  (s.freeSpots c).filter fun sp => s.shardOk c (trussOf (sp.headD (0, 0)).1)

/-! Placement. -/

/-- The chiplet takes a resident copy of the context's VTT, unless it has one (R135). -/
def State.vttLoad (s : State) (chip : Nat) (x : Ctx) : State :=
  match tget s.vtts (chip * 4096 + x.asid) with
  | some _ => s
  | none =>
    let t : Tab (Option W64) := (List.range 2048).filterMap fun e =>
      if readBad s (x.vttbase + 8 * e) 8 then some (e, none)
      else
        let v := w64 (s.nat (x.vttbase + 8 * e) 8)
        if v = 0 then none else some (e, some v)
    { s with vtts := tput s.vtts (chip * 4096 + x.asid) t }

/-- A granule passes to a context: it is zeroed when another held it (R118). -/
def State.takeGranule (s : State) (bay asid g : Nat) : State :=
  let k := bay * 2048 + g
  let s := match tget s.granOwner k with
    | some a => if a = asid then s else s.poke (scratchKey bay (4096 * g)) (List.replicate 4096 0)
    | none => s
  { s with granOwner := tput s.granOwner k asid }

/-- The harts, allocations and division a step takes (R46, R118, R135). -/
def State.claim (s : State) (x : Ctx) (n : Needs) (sp : List (Nat × Nat)) : State :=
  sp.foldl (fun s p =>
    let b := bayOf p.1
    let s := { s with div := tput s.div b n.lanes }
    let s := (span (p.2 / 4096) (n.scrb / 4096)).foldl (fun s g => s.takeGranule b x.asid g) s
    s.vttLoad (chipletOf p.1) x) s

/-- What a body is: block, address, kernel, step index and linear number (R39, R44, R377). -/
structure Body where
  blk : BitVec 4096
  addr : Addr
  kern : BitVec 32
  index : List W64
  deriving DecidableEq, Repr

/-- STEPIX0..STEPIX7 of a LOOP step (R44). -/
def loopIndex (i : List Nat) (n : Nat) : List W64 :=
  (List.range 6).map (fun d => w64 (i.getD d 0)) ++ [w64 n, 0]

/-- The body of a step of a plain node. -/
def loopBody (c : Cmd) (b : BitVec 4096) (lin : Nat) : Body :=
  { blk := b, addr := BitVec.ofNat 48 (recAddr c.rec_), kern := BitVec.ofNat 32 (recKern c.rec_),
    index := loopIndex (blkIndex b lin) lin }

/-- P's body of a spliced step (R377). -/
def spliceBody (sp : Splice) (cb : BitVec 4096) (lin : Nat) : Body :=
  match opndOnly sp.pblk sp.tid, opndOnly cb sp.tid with
  | some kp, some kc =>
    let j := spliceIndex sp.pblk cb kp kc (blkIndex cb lin)
    { blk := sp.pblk, addr := sp.popba, kern := sp.pkern, index := loopIndex j (blkLinear sp.pblk j) }
  | _, _ => { blk := sp.pblk, addr := sp.popba, kern := sp.pkern, index := loopIndex [] 0 }

/-- The tile of T that a spliced step's pair names (R377). -/
def spliceTile (sp : Splice) (cb : BitVec 4096) (lin : Nat) : Nat :=
  match opndOnly cb sp.tid with
  | some kc => ravel (tdGrid sp.td) (opndTile cb kc (tdRank sp.td) (blkIndex cb lin))
  | none => 0

/-- The result word of a node (R44); 0 outside a graph. An unreadable word is left open (log 17). -/
def State.resWord (s : State) (c : Cmd) : W64 × State :=
  match c.src with
  | .queue _ _ _ => (0, s)
  | .node iid i =>
    match s.inst? iid with
    | none => (0, s)
    | some g =>
      match s.ctlRead (s.cmdPt c) (g.area + 136 + 128 * i) 8 with
      | (.ok bs, s) => (w64 (ofBytes bs), s)
      | (.error _, s) => s.fresh

/-- The registers of a hart at the start of a body (R44). -/
def startRegs (b : BitVec 4096) (fpen : Nat) (lanes : Nat) : ARegs × ERegs × MRegs :=
  ({ Hart.free.a with pc := w64 (blkAentry b) },
   { Hart.free.e with pc := w64 (blkEentry b), fpen := BitVec.ofNat 5 fpen },
   { Hart.free.m with kt := 4 * lanes })

/-- The backing base of a hart's main registers: the spec does not say what sets it, and leaves a free value on a page boundary
of the paged range (log 23). -/
def freeBase (n : Nat) : Nat := fld (Config.freeWord n).toNat 12 35 * 4096

/-- A hart at the start of a new step (R44, R377). -/
def State.newHart (s : State) (c : Cmd) (r : RunNode) (bd : Body) (lin : Nat) (stepid res : W64) (off rbase : Nat) : Hart :=
  let n := r.needs
  let x := s.ctxOf c.rcb
  let regs := startRegs bd.blk (s.effFpen c.rcb) n.lanes
  { occ := true
    ctx := x
    id := { stepix := bd.index, stepid := stepid, kernid := bd.kern, opbaddr := bd.addr, resword := res, rsize := n.rsize,
            rbase := rbase, scrb := n.scrb, lanes := n.lanes, truss := n.truss, pool := blkPool r.blk,
            spliced := r.splice.isSome, resumed := false, snapped := false, node := c.id, lin := lin,
            policy := s.effPolicy c.rcb, steplim := s.effSteplim c.rcb, capture := BitVec.ofNat 32 (s.effCapture c.rcb),
            etvec := BitVec.ofNat 48 (s.effUtrap c.rcb), fpen0 := BitVec.ofNat 5 (s.effFpen c.rcb), code := s.mem }
    a := regs.1
    e := regs.2.1
    m := regs.2.2
    r := { Hart.free.r with
      alloc := off, base := 0, bound := blkScrb bd.blk, allocSize := n.scrb, placedAt := s.cycle
      redirect := r.splice.map fun sp =>
        (sp.tid, spliceTile sp r.blk lin, n.scrb - sp.zbytes, tdClearElided sp.td) } }

/-- What placing any step of a node does to it: its previous bay, the age and the reservations (R368, R370, R371). -/
def State.placedAt (s : State) (c : Cand) (sp : List (Nat × Nat)) : State :=
  let b := bayOf ((sp.headD (0, 0)).1)
  let s := s.modCmd c.cmd.id fun d => { d with run := d.run.map fun r => { r with lastBay := some b } }
  { s with
    ages := tput s.ages c.cmd.rcb s.cycle
    trussResv := match s.trussResv with | some (t, id) => if id = c.cmd.id then none else some (t, id) | none => none
    bayResv := match s.bayResv with | some (t, id) => if id = c.cmd.id then none else some (t, id) | none => none }

/-- The task record of a POOL step goes to the start of its allocation (R41, R143). -/
def State.putRecord (s : State) (h : Nat) (r : BitVec 512) : State :=
  (s.poke (s.allocKey h) (toBytes 64 r.toNat)).markDirty (s.allocKey h) 64

/-- A new step starts (R42, R44): a LOOP step of the walker, or a POOL step with its record. Its harts begin with an acquire. -/
def State.placeNew (s : State) (c : Cand) (sp : List (Nat × Nat)) (rec_ : Option (BitVec 512)) : State :=
  let n := c.run.needs
  let x := s.ctxOf c.cmd.rcb
  let lin := match rec_ with | some _ => 0 | none => c.run.next
  let bd : Body := match rec_ with
    | some r => { loopBody c.cmd c.run.blk 0 with index := w64 (recSeq r) :: List.replicate 7 0 }
    | none => match c.run.splice with
      | some spl => spliceBody spl c.run.blk lin
      | none => loopBody c.cmd c.run.blk lin
  let s := s.claim x n sp
  let stepid := w64 s.nextId
  let res := s.resWord c.cmd
  let f := res.2.free
  let s : State := { res.2 with nextId := s.nextId + 1, free := f + sp.length }
  let s := sp.zipIdx.foldl (fun (s : State) p =>
    (s.setHart p.1.1 (s.newHart c.cmd c.run bd lin stepid res.1 p.1.2 (freeBase (f + p.2)))).l1Acquire p.1.1) s
  let s : State := match rec_ with
    | some r => sp.foldl (fun (s : State) (p : Nat × Nat) => s.putRecord p.1 r) s
    | none => s
  let s := s.useAdd c.cmd.rcb n.harts (n.harts * n.scrb) (n.harts * n.rsize)
  (s.modCmd c.cmd.id fun d => { d with run := d.run.map fun r =>
    { r with live := r.live + 1, next := if rec_.isSome then r.next else r.next + 1 } }).placedAt c sp

/-- Does a context own a ridge (R113)? -/
def State.asidOwnsRidge (s : State) (asid n : Nat) : Bool :=
  let o := (tgetD s.preg.ridgeown n 0).toNat
  o.testBit 12 && o % 4096 == asid

/-- A dequeue from shard t for a hart of a bay (R379): killed entries are counted, the first survivor is taken. -/
def State.dequeue (s : State) (c : Cmd) (t bay : Nat) : Nat → Option PEntry × State
  | 0 => (none, s)
  | f + 1 =>
    let sh := s.shard c.rcb t
    match sh.best with
    | none => (none, s)
    | some (i, e) =>
      let s := (s.setShard c.rcb t { sh with entries := sh.entries.eraseIdx i }).shardTouch c.rcb t
      if e.kill && s.asidOwnsRidge (s.ctxOf c.rcb).asid e.ridge && s.killTest bay e.ridge (recKey e.rec_) then
        let s := s.poolCount c.rcb (s.rcbFld c.rcb 0x60 6 42 * 64) cntKillDeq
        let s := s.modCmd c.id fun d => { d with run := d.run.map fun r => { r with killed := sat32 (r.killed + 1) } }
        s.dequeue c t bay f
      else (some e, s)

/-- A waiting step takes the first of these places that it can (R369, R370, R379). -/
def State.placeAt (s : State) (c : Cand) : List (List (Nat × Nat)) → Bool × State
  | [] => (false, s)
  | sp :: rest =>
    match c.parked with
    | some p =>
      let s := s.claim (s.ctxOf c.cmd.rcb) c.run.needs sp
      (true, (s.placedAt c sp).resume p sp)
    | none =>
      if blkPool c.run.blk then
        let h := (sp.headD (0, 0)).1
        match s.dequeue c.cmd (trussOf h) (bayOf h) ((s.shard c.cmd.rcb (trussOf h)).entries.length + 1) with
        | (some e, s) => (true, s.placeNew c sp (some e.rec_))
        | (none, s) => s.placeAt c rest
      else (true, s.placeNew c sp none)

/-- The first waiting step that can be placed is placed (R369). -/
def State.placeFirst (s : State) : List Cand → Bool × State
  | [] => (false, s)
  | c :: t =>
    match s.placeAt c (s.spots c) with
    | (true, s) => (true, s)
    | (false, s) => s.placeFirst t

/-! Reservations and pre-emption. -/

/-- Has a node a step that is not placed: a new one, or a parked one? -/
def State.stepLeft (s : State) (id : Nat) : Bool :=
  s.cmds.any fun c => c.id == id && c.run.any fun r =>
    s.hasNext c r || s.parked.any fun p => (p.harts.headD Hart.free).id.node == id

/-- A reservation lasts until its step is placed (R371), or there is no such step any more. -/
def State.dropResv (s : State) : State :=
  let keep : Option (Nat × Nat) → Option (Nat × Nat) := fun r => match r with
    | some (t, id) => if s.stepLeft id then some (t, id) else none
    | none => none
  { s with trussResv := keep s.trussResv, bayResv := keep s.bayResv }

/-- The oldest waiting step at effective priority 15 among those that p admits (R50, R371): the first by the keys of R369, which
put the larger age of the region first (DEDUCED, log 94). -/
def State.oldest15 (s : State) (p : Cand → Bool) : Option Cand :=
  s.cands.find? fun c => s.agedPrio c.cmd.rcb == 15 && p c

/-- The reservations of R371: of a truss for the oldest waiting TRUSS step at effective priority 15, of a bay for the oldest such
ordinary step that finds no place. -/
def State.reserve (s : State) : State :=
  let s := s.dropResv
  let s :=
    if s.trussResv.isSome then s
    else match s.oldest15 fun c => c.run.needs.truss,
        argMin (fun t => ((List.range 8).map fun b => s.bayCount (t * 8 + b)).foldl (· + ·) 0) ((List.range 64).filter s.trussCapable) with
      | some c, some t => { s with trussResv := some (t, c.cmd.id) }
      | _, _ => s
  if s.bayResv.isSome then s
  else match s.oldest15 fun c => !c.run.needs.truss && (s.spots c).isEmpty,
      argMin s.bayCount ((List.range 512).filter s.bayOn) with
    | some c, some b => { s with bayResv := some (b, c.cmd.id) }
    | _, _ => s

/-- A spliced node whose combined block no longer passes R40 before its first step ends UNFIT with its partner
(R384). -/
def State.unfitPairs (s : State) : State :=
  s.cmds.foldl (fun s c => match c.run with
    | some r => match r.splice with
      | some sp =>
        if r.next = 0 ∧ r.live = 0 ∧ !(s.needsFit c.rcb r.needs) then (s.endCmd sp.pcmd 3).endCmd c.id 3 else s
      | none => s
    | none => s) s

/-- The scheduler meets an uncorrectable error in the control blocks of a node's region as it looks for the node's next step: the
command has failed, with a record (R398; log 100). -/
def State.failLost (s : State) : State :=
  s.cmds.foldl (fun s c => match c.run with
    | some r =>
      if (s.rcbBad c.rcb || s.useBad c.rcb) && !r.failed && s.stepLeft c.id then
        (s.countUncorr.logCmd c .uncorr 1 c.rcb).modCmd c.id fun d => { d with run := d.run.map fun r => { r with failed := true } }
      else s
    | none => s) s

/-- PLACE_STEP (R369, R414). -/
def execPlaceStep (s : State) : Outcome State Fault Refusal :=
  .next (if s.preg.featack = none then s
    else
      let s := s.failLost.unfitPairs.reserve
      ((s.placeFirst s.cands).2).settleRuns)

/-- The regions with a waiting step age from the clk at which they were first seen to have one; the others have age 0 (R368). -/
def State.ageSync (s : State) : State :=
  { s with ages := (s.cmds.filterMap s.cand?).foldl (fun t c =>
      tput t c.cmd.rcb ((tget s.ages c.cmd.rcb).getD s.cycle)) [] }

/-- REGION_AGEING (R368): each region's age counts on, or is 0. -/
def execRegionAgeing (s : State) : Outcome State Fault Refusal := .next s.ageSync

/-- May the step of hart h be pre-empted: no other request stands, and its frame can be saved (R183)? -/
def State.canPreempt (s : State) (h : Nat) : Bool :=
  s.occ h && ((s.stepHarts h).all fun g => (s.hart g).r.pend.isNone) && (s.parkSlots h).isSome

/-- A pre-emption of the step of hart h for a waiting step (R372, R396): the request the device acts on. -/
def State.preempt (s : State) (h : Nat) (c : Cand) : State :=
  s.askPark h ⟨if (s.hart h).ctx.asid = (s.ctxOf c.cmd.rcb).asid then 1 else 2, .none, 0, 0⟩

/-- The same, remembered until the step has left, so that the waiting step pre-empts one step only (R372). -/
def State.preemptFor (s : State) (h : Nat) (c : Cand) : State :=
  (s.preempt h c).modR h fun v => { v with pendFor := some c.cmd.id }

/-- Is a pre-emption for a waiting step of this command under way (R372)? -/
def State.preempting (s : State) (c : Cand) : Bool :=
  s.placed.any fun h => (s.stepHarts h).any fun g => (s.hart g).r.pendFor == some c.cmd.id

/-- A step on a reserved bay or truss that must leave (R371). -/
def State.resvVictim (s : State) : Option (Nat × Cand) :=
  let find : (Nat → Bool) → Nat → Option (Nat × Cand) := fun on id =>
    match s.cands.find? fun c => c.cmd.id == id,
        s.placed.find? fun h => on (bayOf h) && decide (s.agedPrio (s.hart h).ctx.rcb < 15) && s.canPreempt h with
    | some c, some h => some (h, c)
    | _, _ => none
  match (match s.trussResv with | some (t, id) => find (fun b => b / 8 == t) id | none => none) with
  | some x => some x
  | none => match s.bayResv with | some (b, id) => find (fun x => x == b) id | none => none

/-- Would the waiting step find a place if the step of hart h left (R372)? -/
def State.helps (s : State) (h : Nat) (c : Cand) : Bool :=
  let t := (s.stepHarts h).foldl (fun s g => s.setHart g Hart.free) s
  !(t.spots c).isEmpty

/-- The step that a waiting step pre-empts (R372): lowest base PRIO, then the one placed most recently. -/
def State.victimFor (s : State) (c : Cand) : Option Nat :=
  if !(s.spots c).isEmpty || s.preempting c then none
  else argMin (fun h => s.effPrio (s.hart h).ctx.rcb * 2 ^ 64 + (2 ^ 64 - 1 - (s.hart h).r.placedAt))
    (s.placed.filter fun h =>
      decide (s.effPrio (s.hart h).ctx.rcb + 2 ≤ s.agedPrio c.cmd.rcb) && s.canPreempt h && s.helps h c)

/-- PREEMPT (R371, R372). -/
def execPreempt (s : State) : Outcome State Fault Refusal :=
  let s' := s.reserve
  .next (match s'.resvVictim with
    | some (h, c) => s'.preempt h c
    | none =>
      match s'.cands.findSome? fun c => (s'.victimFor c).map fun h => (h, c) with
      | some (h, c) => s'.preemptFor h c
      | none => s')

end Sys2Proof.Machine
end

