-- ==== Sys2Proof/Machine/Life.lean ====
section
/-! DEFINITION. The device's events in the life of a step (R42, R45, R152, R246, R306, R330, R377, R391): retirement, the
boundary of a spliced step, TIMEOUT, QDEADLOCK and the reset of a domain. Each names a hart of the step (ev.n) and does
nothing unless its condition holds there. -/

namespace Sys2Proof.Machine

open Host (Outcome)

/-- Does a hart hold a step that no request stops? -/
def Hart.active (v : Hart) : Bool := v.occ && v.r.pend.isNone

/-- Is no request pending on any hart of the step of hart h? -/
def State.stepActive (s : State) (h : Nat) : Bool := s.occ h && (s.stepHarts h).all fun g => (s.hart g).active

/-- Have all streams of the step executed STEPEND, with no transfer under way (R42, R377)? -/
def State.bodyOver (s : State) (h : Nat) : Bool :=
  (s.stepHarts h).all fun g => (s.hart g).a.ended && (s.hart g).e.ended && (s.hartXfers g).isEmpty

/-- The earliest launched failure that the step has not reported (R42): hart, launch number, TID and launch PC. -/
def State.oldestFail (s : State) (h : Nat) : Option (Nat × Nat × W64 × W64) :=
  argMin (fun f => f.2.1) ((s.stepHarts h).flatMap fun g => (s.hart g).r.pendFail.map fun p => (g, p.1, p.2.1, p.2.2))

/-- CPERR at the STEPEND of a hart's A-stream (R42): the STEPEND is not performed, so INSTRET does not count it. -/
def State.endFail (s : State) (f : Nat × Nat × W64 × W64) : State :=
  let s := s.modHart f.1 fun v =>
    { v with
      a := { v.a with ended := false, instret := v.a.instret - 1 }
      r := { v.r with pendFail := tdel v.r.pendFail f.2.1 } }
  s.trap (.aStream f.1) { TrapInfo.of .cperr 0 with elaunch := f.2.2.2, etid := f.2.2.1 }

/-- Is hart h in the first body of a spliced step (R377)? -/
def Hart.inProducer (v : Hart) : Bool := v.id.spliced && !v.r.bodyC

/-- STEP_RETIRE (R42). -/
def execStepRetire (s : State) : Outcome State Fault Refusal :=
  let h := s.ev.n
  .next (if !(s.stepActive h) || !(s.bodyOver h) || (s.hart h).inProducer then s
    else match s.oldestFail h with
      | some f => s.endFail f
      | none => s.endStep h .retired)

/-- C's body starts on a hart (R44, R377): its scratch lies SCRB_P bytes into the allocation, and FPEN is the one copied at
placement (R32). -/
def Hart.consumer (v : Hart) (c : Cmd) (r : RunNode) (sp : Splice) (res : W64) : Hart :=
  let bd := loopBody c r.blk v.id.lin
  let regs := startRegs bd.blk v.id.fpen0.toNat v.id.lanes
  { v with
    id := { v.id with stepix := bd.index, kernid := bd.kern, opbaddr := bd.addr, resword := res }
    a := { regs.1 with instret := v.a.instret }
    e := regs.2.1
    m := regs.2.2
    r := { v.r with ae := [], ea := [], slots := [], base := blkScrb sp.pblk, bound := blkScrb bd.blk, bodyC := true } }

/-- SPLICE_BOUNDARY (R377): P's body ends as a step does, so a failure that it has not reported traps at its STEPEND (R42), and its
stores reach their homes. -/
def execSpliceBoundary (s : State) : Outcome State Fault Refusal :=
  let h := s.ev.n
  let v := s.hart h
  .next (if !(s.stepActive h) || !(s.bodyOver h) || !v.inProducer then s
    else match s.cmd? v.id.node with
      | none => s
      | some c => match c.run with
        | none => s
        | some r => match r.splice with
          | none => s
          | some sp =>
            match s.oldestFail h with
            | some f => s.endFail f
            | none =>
              let w := ((s.mxServe (bayOf h)).l1Release h).resWord c
              (w.2.setHart h (v.consumer c r sp w.1)).l1Acquire h)

/-- Has the placed time of a hart's step passed its STEPLIM (R45)? -/
def State.timedOut (s : State) (h : Nat) : Bool :=
  let v := s.hart h
  v.id.steplim != 0 && decide (v.id.steplim * 1300 < v.r.placedBefore + (s.cycle - v.r.placedAt))

/-- TIMEOUT (R45): charged to the hart on the lowest bay, on its A-stream unless that has executed STEPEND. -/
def execTimeout (s : State) : Outcome State Fault Refusal :=
  let h := (s.stepHarts s.ev.n).headD s.ev.n
  .next (if s.stepActive h && s.timedOut h then
      s.trap (if (s.hart h).a.ended then .eStream h else .aStream h) (TrapInfo.of .timeout 0)
    else s)

/-! QDEADLOCK. -/

/-- How often a number stands in a list. -/
def countOf (n : Nat) (l : List Nat) : Nat := (l.filter (· == n)).length

/-- Is an A→E entry still to be filled? -/
def AEntry.unfilled : AEntry → Bool
  | .filling _ | .failing _ => true
  | _ => false

/-- Does the A-stream wait for what only the E-stream can supply (R152, R246)? -/
def Hart.stuckA (v : Hart) : Bool :=
  !v.a.ended && match v.a.wait with
    | .queue pops pushes =>
      (pops.any fun n => decide ((tgetD v.r.ea n []).length < countOf n pops))
        || pushes.any fun n => decide (8 < (tgetD v.r.ae n []).length + countOf n pushes)
    | .fence _ _ => !(v.e.wait.isFence && !v.e.ended)
    | _ => false

/-- Does the E-stream wait for what only the A-stream can supply (R152, R246)? -/
def Hart.stuckE (v : Hart) : Bool :=
  !v.e.ended && match v.e.wait with
    | .queue pops pushes =>
      (pops.any fun n => let q := tgetD v.r.ae n []
        decide (q.length < countOf n pops) && !(q.any AEntry.unfilled))
        || pushes.any fun n => decide (8 < (tgetD v.r.ea n []).length + countOf n pushes)
    | .fence _ _ => !(v.a.wait.isFence && !v.a.ended)
    | _ => false

/-- Does the E-stream of bay 0 of a truss step, at its MROWT with the other seven, wait for an entry that only its own A-stream can
supply (R152, R306)? -/
def State.stuckMrowt (s : State) (h : Nat) : Bool :=
  let v := s.hart h
  let hs := s.trussStep h
  !v.e.ended && hs.head? == some h && hs.all (fun g => (s.hart g).atMrowt.isSome) && match v.atMrowt with
    | some (_, b) => isPort b && !v.e.inside && let q := tgetD v.r.ae (b.toNat - 4) []
        q.isEmpty && !(q.any AEntry.unfilled)
    | none => false

/-- Can neither stream of a hart go on (R152)? -/
def State.deadlocked (s : State) (h : Nat) : Bool :=
  let v := s.hart h
  (v.stuckA || v.a.ended) && (v.stuckE || s.stuckMrowt h || v.e.ended) && !(v.a.ended && v.e.ended)

/-- Does the A-stream wait at a truss rendezvous that can no longer be met (R330)? -/
def State.trussDeadA (s : State) (h : Nat) : Bool :=
  let v := s.hart h
  (v.atTbar || v.atRrot.isSome) && (s.trussStep h).any fun g => (s.hart g).a.ended

/-- Does the E-stream wait at an MROWT that can no longer be met (R306)? -/
def State.trussDeadE (s : State) (h : Nat) : Bool :=
  ((s.hart h).atMrowt).isSome && !(s.hart h).e.ended && (s.trussStep h).any fun g => (s.hart g).e.ended

/-- QDEADLOCK (R152, R387): with both streams waiting, the E-stream's trap is the one taken. -/
def execQdeadlock (s : State) : Outcome State Fault Refusal :=
  let h := s.ev.n
  let v := s.hart h
  let t := TrapInfo.of .qdeadlock 0
  .next (if !(s.stepActive h) then s
    else if s.deadlocked h then s.trap (if v.e.ended then .aStream h else .eStream h) t
    else if s.trussDeadE h then s.trap (.eStream h) t
    else if s.trussDeadA h then s.trap (.aStream h) t
    else s)

/-- DOMAIN_RESET (R390, R391): the domain of a step that faulted under RESET-REPLAY. -/
def execDomainReset (s : State) : Outcome State Fault Refusal :=
  let v := s.hart s.ev.n
  .next (match v.r.pend with
    | some r => if v.occ && r.reason == 3 then s.domainReset (s.faultDomain v.ctx.rcb) else s
    | none => s)

end Sys2Proof.Machine
end

