-- ==== Sys2Proof/Machine/PlateOps.lean ====
section
/-! DEFINITION. The plate instructions of major 0x19: queue slots (R341), KICKCLR (R342), shoot-down (R343, R344),
VTTSET, PRESET and PRESUME (R345..R347), with the event by which a translation cache acknowledges. -/

namespace Sys2Proof.Machine

open Host (Outcome)

/-! Queue slots. -/

/-- A hardware queue slot. -/
def State.qslot (s : State) (i : Nat) : QSlot := tgetD s.qslots i ⟨.free, 0, 0, 0⟩

def State.setQslot (s : State) (i : Nat) (q : QSlot) : State := { s with qslots := tput s.qslots i q }

/-- The conditions of QMAP on a QCB (R341): its region and its number there. -/
def State.qcbRegion (s : State) (b : Nat) (bs : List Byte) : Option (Nat × Nat) :=
  let rcb := ofBytes ((bs.drop 8).take 8) % 2 ^ 48
  let qb := s.rcbFld rcb 0x58 6 42 * 64
  if (qcbRing (ofBytes (bs.take 8))).isNone ∨ !(isHbm s rcb) ∨ rcb % 64 ≠ 0 ∨ s.rcbLevel rcb ≠ 3
      ∨ b < qb ∨ 512 ≤ (b - qb) / 64 then none
  else some (rcb, (b - qb) / 64)

/-- Writes MAPPED and SLOT of a slot's QCB (R154), through the page table of the region's context; a QCB that cannot be read keeps
what it holds. -/
def State.putMapped (s : State) (q : QSlot) (mapped : Bool) (slot : Nat) : State :=
  let pt := (s.ctxOf q.rcb).ptbase
  match s.ctlRead pt (q.qcb + 0x10) 2 with
  | (.error _, s) => s
  | (.ok bs, s) => s.ctlWriteD pt (q.qcb + 0x10) (toBytes 2 (slot % 256 + b2n mapped * 256 + ofBytes bs / 512 * 512))

/-- The RCB that a QCB names, where its control block cannot be read (R128). -/
def State.qcbBad (s : State) (bs : List Byte) : Option Nat :=
  let rcb := ofBytes ((bs.drop 8).take 8) % 2 ^ 48
  if isHbm s rcb && rcb % 64 == 0 && s.rcbBad rcb then some rcb else none

/-- QMAP (R341): the plate core reads the QCB. -/
def execQmap (a b c : RCode) (s : State) : Outcome State Fault Refusal :=
  withA (.qmap a b c) [b, c] [a] s fun v s =>
    let va := v.getD 0 0
    let i := fld (v.getD 1 0).toNat 0 8
    let done : State → Nat → State := fun s st => s.aDone [b, c] a (w64 st)
    if va.toNat % 64 ≠ 0 then s.raise .align va
    else match s.aLoads s.cur va.toNat 8 with
      | (.error e, s) => s.raiseAcc e.1 (w64 e.2) 0
      | (.ok ds, s) =>
        let bs := ds.flatMap fun d => toBytes 8 d.toNat
        if (s.qslot i).state ≠ .free then done s 1
        else if (ds.getD 2 0).getLsbD 8 then done s 2
        else match s.qcbBad bs, s.qcbRegion va.toNat bs with
          | some rcb, _ => s.countUncorr.raise .uncorr (w64 rcb)
          | none, none => done s 3
          | none, some (rcb, n) =>
            let q : QSlot := ⟨.stopped, rcb, n, va.toNat⟩
            done ((s.setQslot i q).putMapped q true i) 0

/-- A slot instruction that requires a state and changes it. -/
def slotOp (i : Instr) (a b : RCode) (s : State) (need : SlotState) (f : Nat → QSlot → State → State) :
    Outcome State Fault Refusal :=
  withA i [b] [a] s fun v s =>
    let k := fld (v.getD 0 0).toNat 0 8
    if (s.qslot k).state = need then (f k (s.qslot k) s).aDone [b] a 0 else s.aDone [b] a 4

/-- QLOAD (R341): the walk starts at the indices of the QCB, which this model always keeps in memory. -/
def execQload (a b : RCode) (s : State) : Outcome State Fault Refusal :=
  slotOp (.qload a b) a b s .stopped fun k q s =>
    (s.setQslot k { q with state := .running }).modQueue q.rcb q.n fun r => { r with held := none }

/-- QSAVE (R341). -/
def execQsave (a b : RCode) (s : State) : Outcome State Fault Refusal :=
  slotOp (.qsave a b) a b s .running fun k q s => (s.setQslot k { q with state := .stopped }).putDone q.rcb q.n

/-- QUNMAP (R341). -/
def execQunmap (a b : RCode) (s : State) : Outcome State Fault Refusal :=
  slotOp (.qunmap a b) a b s .stopped fun k q s => (s.setQslot k ⟨.free, 0, 0, 0⟩).putMapped q false k

/-! RCB operands. -/

/-- A physical address that names an RCB (R182): misaligned traps ALIGN. -/
def withRcb (v : W64) (s : State) (f : Nat → State) : State :=
  let rcb := fld v.toNat 0 48
  if rcb % 64 ≠ 0 then s.raise .align v else f rcb

/-- KICKCLR (R342). An address outside HBM has no page (log 22). -/
def execKickclr (b c : RCode) (s : State) : Outcome State Fault Refusal :=
  withA (.kickclr b c) [b, c] [] s fun v s =>
    withRcb (v.getD 0 0) s fun rcb =>
      let k := rcb + 0x80 + 8 * fld (v.getD 0 0).toNat 48 3
      if !(isHbm s rcb) then s.raise .pfault (v.getD 0 0)
      else match s.loadAt k 8 with
        | (.error e, s) => s.raise e (w64 k)
        | (.ok old, s) => (s.pokeNat k 8 (w64 old &&& ~~~(v.getD 1 0)).toNat).aDone0 [b, c]

/-- A new VTT entry in every resident copy of a context (R345). -/
def State.vttUpdate (s : State) (asid e : Nat) (v : W64) : State :=
  { s with vtts := s.vtts.map fun p => if p.1 % 4096 = asid then (p.1, tput p.2 e (some v)) else p }

/-- VTTSET (R345). -/
def execVttset (a b c : RCode) (s : State) : Outcome State Fault Refusal :=
  withA (.vttset a b c) [b, c] [a] s fun v s =>
    withRcb (v.getD 0 0) s fun rcb =>
      if !(isHbm s rcb) then s.aDone [b, c] a 3
      else if s.rcbBad rcb then s.countUncorr.raise .uncorr (w64 rcb)
      else if s.rcbLevel rcb ≠ 2 then s.aDone [b, c] a 3
      else
        let e := fld (v.getD 0 0).toNat 48 11
        let k := s.rcbFld rcb 0x48 14 38 * 16384 + 8 * e
        match s.storeAt k (toBytes 8 (v.getD 1 0).toNat) with
        | (some x, s) => s.raise x (w64 k)
        | (none, s) => (s.vttUpdate (s.rcbFld rcb 0 16 12) e (v.getD 1 0)).aDone [b, c] a 0

/-- PRESET (R346). -/
def execPreset (a b : RCode) (s : State) : Outcome State Fault Refusal :=
  withA (.preset a b) [b] [a] s fun v s =>
    withRcb (v.getD 0 0) s fun rcb =>
      if !(isHbm s rcb) then s.aDone [b] a 3
      else if s.rcbBad rcb then s.countUncorr.raise .uncorr (w64 rcb)
      else if s.rcbLevel rcb = 0 then s.aDone [b] a 3
      else (s.domainReset rcb).aDone [b] a 0

/-! Shoot-down. -/

/-- The range that R343 encodes: every page of the ASID when the length is 0. -/
structure ShootRange where
  asid : Nat
  lo : Nat
  len : Nat
  deriving DecidableEq, Repr

/-- The range of two operands. -/
def ShootRange.of (b c : W64) : ShootRange := ⟨fld b.toNat 0 12, fld b.toNat 12 36 * 4096, c.toNat⟩

/-- Does the range hold an address? -/
def ShootRange.holds (r : ShootRange) (asid va : Nat) : Bool :=
  asid == r.asid && (r.len == 0 || (decide (r.lo ≤ va) && decide (va < r.lo + r.len)))

/-- Does a page overlap an invalidation (R343)? -/
def TlbInv.overlaps (i : TlbInv) (e : TlbEntry) : Bool :=
  e.asid == i.asid && (i.len == 0 || (decide (e.page < i.lo + i.len) && decide (i.lo < e.page + e.size)))

/-- The translation caches of the package (R133); those of disabled units are not among them (R26). -/
def State.tlbIds (s : State) : List Nat :=
  (List.range 512).filter s.bayOn
  ++ ((List.range 64).filter fun t => (List.range 8).any fun b => s.bayOn (t * 8 + b)).map tlbCopy
  ++ ((List.range 8).filter s.record.sills.getLsbD).map tlbSill
  ++ (List.range 4).map tlbPlate

/-- The length check of R343. -/
def withRange (b c : W64) (s : State) (f : ShootRange → State) : State :=
  if c.toNat % 4096 ≠ 0 then s.raise .bounds c else f (.of b c)

/-- TLBIR (R343): the invalidation is sent to every translation cache. -/
def execTlbir (b c : RCode) (s : State) : Outcome State Fault Refusal :=
  withA (.tlbir b c) [b, c] [] s fun v s =>
    withRange (v.getD 0 0) (v.getD 1 0) s fun r =>
      let i : TlbInv := { core := s.curPlate, asid := r.asid, lo := r.lo, len := r.len, pend := s.tlbIds }
      ({ s with tlbInv := s.tlbInv ++ [i] } : State).aDone0 [b, c]

/-- TLBSYNC (R344): it stands until every TLBIR of this core is acknowledged. -/
def execTlbsync (s : State) : Outcome State Fault Refusal :=
  gate .tlbsync s fun s =>
    if s.tlbInv.any fun i => i.core == s.curPlate && !(i.pend.isEmpty) then s.standAt .stall else s.advance

/-- ASID a transfer works in. -/
def State.xferAsid (s : State) (r : XRef) : Nat :=
  match r with
  | .slot h _ _ => (s.hart h).ctx.asid
  | .cmd _ => (s.ctxOf (s.xferRcb r)).asid
  | .parked _ _ _ _ => 0

/-- Has a cache no access of an ASID in flight (R344)? Only engines keep accesses in flight between steps. -/
def State.tlbDrained (s : State) (id asid : Nat) : Bool :=
  let q : List XRef :=
    if 512 ≤ id ∧ id < 576 then tgetD s.copyq (id - 512) []
    else if 576 ≤ id ∧ id < 584 then (tgetD s.sillq (id - 576) []).map SillCmd.ref
    else []
  q.all fun r => s.xferAsid r != asid || match s.xfer? r with
    | some x => x.flight.isEmpty
    | none => true

/-- TLB_ACK (R344): cache n drops every overlapping entry, and acknowledges what has drained; the writes of a bay's harts are then
at their homes. -/
def execTlbAck (s : State) : Outcome State Fault Refusal :=
  let id := s.ev.n
  let mine := s.tlbInv.filter fun i => i.pend.contains id
  let keep := (tgetD s.tlbs id []).filter fun e => !(mine.any fun i => i.overlaps e)
  let invs := (s.tlbInv.map fun i =>
    if s.tlbDrained id i.asid then { i with pend := i.pend.filter (· != id) } else i).filter fun i => !(i.pend.isEmpty)
  let u := if id < 512 then s.l1WriteBack id fun _ => true else s
  .next (if mine.isEmpty then s else { u with tlbs := tput s.tlbs id keep, tlbInv := invs })

/-! PRESUME. -/

/-- A transfer's chunks that wait for a page of the range are to be started again (R347). -/
def Xfer.resume (x : Xfer) (r : ShootRange) (asid : Nat) : Xfer :=
  let go := x.paused.filter fun p => r.holds asid p.2
  { x with
    paused := x.paused.filter fun p => !(r.holds asid p.2)
    started := go.foldl (fun m p => m &&& ~~~(BitVec.ofNat 64 (2 ^ p.1))) x.started }

/-- A hart's waits for a page of the range end (R183, R347), those of a step still to be parked too. -/
def Hart.presume (v : Hart) (r : ShootRange) : Hart :=
  { v with r := { v.r with
      waitPage := match v.r.waitPage with
        | some va => if r.holds v.ctx.asid va then none else some va
        | none => none
      presumed := v.r.presumed || match v.r.pend with
        | some q => q.reason == 0 && q.cause == .pfault && r.holds v.ctx.asid q.va.toNat
        | none => false
      slots := v.r.slots.map fun p => (p.1, p.2.resume r v.ctx.asid) } }

/-- A command's waits for a page of the range end (R159, R319). -/
def Cmd.presume (c : Cmd) (r : ShootRange) (asid : Nat) : Cmd :=
  { c with
    phase := match c.phase with
      | .held va acc => if r.holds asid va then .waiting else .held va acc
      | p => p
    xfer := c.xfer.map fun x => x.resume r asid }

/-- A range is present (R347): parked steps, steps waiting in place, chunks, commands and walkers go on. -/
def State.presume (s : State) (r : ShootRange) : State :=
  { s with
    parked := s.parked.map fun p => if r.holds p.asid p.va then { p with ready := true } else p
    harts := s.harts.map fun p => (p.1, p.2.presume r)
    cmds := s.cmds.map fun c => c.presume r (s.ctxOf c.rcb).asid
    queues := s.queues.map fun p =>
      match p.2.held with
      | some va => if r.holds (s.ctxOf (p.1 / 512)).asid va then (p.1, { p.2 with held := none }) else p
      | none => p }

/-- PRESUME (R347). -/
def execPresume (b c : RCode) (s : State) : Outcome State Fault Refusal :=
  withA (.presume b c) [b, c] [] s fun v s =>
    withRange (v.getD 0 0) (v.getD 1 0) s fun r => (s.presume r).aDone0 [b, c]

end Sys2Proof.Machine
end

