-- ==== Sys2Proof/Machine/Scalar.lean ====
section
/-! DEFINITION. Loads, stores, atomics, branches and jumps: majors 0x0A to 0x0F (R234..R241). -/

namespace Sys2Proof.Machine

open Host (Outcome)

/-- The address of a load or store (R234). -/
def lsAddr (b : W64) (o : BitVec 9) (size : Nat) : Nat := (b + o.signExtend 64 * w64 size).toNat

/-- A load of size bytes, extended (R234, R235). -/
def loadOp (i : Instr) (a b : RCode) (o : BitVec 9) (size : Nat) (ext : Nat → W64) (s : State) :
    Outcome State Fault Refusal :=
  withA i [b] [a] s fun v s =>
    let va := lsAddr (v.getD 0 0) o size
    match s.aLoad s.cur va size with
    | (.error c, s) => s.raiseAcc c (w64 va) 0
    | (.ok x, s) => s.aDone [b] a (ext x)

/-- A store of size bytes (R234, R235). -/
def storeOp (i : Instr) (a b : RCode) (o : BitVec 9) (size : Nat) (s : State) : Outcome State Fault Refusal :=
  withA i [b, a] [] s fun v s =>
    let va := lsAddr (v.getD 0 0) o size
    match s.aStore s.cur va size (v.getD 1 0).toNat with
    | (some c, s) => s.raiseAcc c (w64 va) 1
    | (none, s) => s.aDone0 [b, a]

/-- Sign extension of a value of w bits (R234). -/
def sx (w v : Nat) : W64 := w64i (sext w v)

/-- LD.B (R234, R235). -/
def execLdB (a b : RCode) (o : BitVec 9) (s : State) : Outcome State Fault Refusal :=
  loadOp (.ldB a b o) a b o 1 (sx 8) s

/-- LD.BU (R234, R235). -/
def execLdBu (a b : RCode) (o : BitVec 9) (s : State) : Outcome State Fault Refusal :=
  loadOp (.ldBu a b o) a b o 1 (w64) s

/-- LD.H (R234, R235). -/
def execLdH (a b : RCode) (o : BitVec 9) (s : State) : Outcome State Fault Refusal :=
  loadOp (.ldH a b o) a b o 2 (sx 16) s

/-- LD.HU (R234, R235). -/
def execLdHu (a b : RCode) (o : BitVec 9) (s : State) : Outcome State Fault Refusal :=
  loadOp (.ldHu a b o) a b o 2 (w64) s

/-- LD.W (R234, R235). -/
def execLdW (a b : RCode) (o : BitVec 9) (s : State) : Outcome State Fault Refusal :=
  loadOp (.ldW a b o) a b o 4 (sx 32) s

/-- LD.WU (R234, R235). -/
def execLdWu (a b : RCode) (o : BitVec 9) (s : State) : Outcome State Fault Refusal :=
  loadOp (.ldWu a b o) a b o 4 (w64) s

/-- LD.D (R234, R235). -/
def execLdD (a b : RCode) (o : BitVec 9) (s : State) : Outcome State Fault Refusal :=
  loadOp (.ldD a b o) a b o 8 (w64) s

/-- ST.B (R234, R235). -/
def execStB (a b : RCode) (o : BitVec 9) (s : State) : Outcome State Fault Refusal :=
  storeOp (.stB a b o) a b o 1 s

/-- ST.H (R234, R235). -/
def execStH (a b : RCode) (o : BitVec 9) (s : State) : Outcome State Fault Refusal :=
  storeOp (.stH a b o) a b o 2 s

/-- ST.W (R234, R235). -/
def execStW (a b : RCode) (o : BitVec 9) (s : State) : Outcome State Fault Refusal :=
  storeOp (.stW a b o) a b o 4 s

/-- ST.D (R234, R235). -/
def execStD (a b : RCode) (o : BitVec 9) (s : State) : Outcome State Fault Refusal :=
  storeOp (.stD a b o) a b o 8 s

/-- ASCOPE of the executing agent (R107). -/
def State.ascope (s : State) : Nat :=
  match s.cur with
  | .plate p => (s.plate p).ascope.toNat
  | _ => (s.hart s.curHart).a.ascope.toNat

/-- An atomic at the dword B (R237, R238): f answers what it writes; r is 1 for .AR, a release and an acquire at ASCOPE. -/
def amoOp (i : Instr) (a b c : RCode) (r : BitVec 1) (s : State) (f : W64 → W64 → Option W64) : Outcome State Fault Refusal :=
  withA i [b, c] [a] s fun v s =>
    let va := v.getD 0 0
    match s.aAmo s.cur va.toNat (if r = 1 then some s.ascope else none) fun old => f old (v.getD 1 0) with
    | (.error e, s) => s.raiseAcc e va 3
    | (.ok old, s) => s.aDone [b, c] a old

/-- AMO.SWAP (R237). -/
def execAmoSwap (a b c : RCode) (r : BitVec 1) (s : State) : Outcome State Fault Refusal :=
  amoOp (.amoSwap a b c r) a b c r s fun _ c => some (c)

/-- AMO.ADD (R237). -/
def execAmoAdd (a b c : RCode) (r : BitVec 1) (s : State) : Outcome State Fault Refusal :=
  amoOp (.amoAdd a b c r) a b c r s fun old c => some (old + c)

/-- AMO.AND (R237). -/
def execAmoAnd (a b c : RCode) (r : BitVec 1) (s : State) : Outcome State Fault Refusal :=
  amoOp (.amoAnd a b c r) a b c r s fun old c => some (old &&& c)

/-- AMO.OR (R237). -/
def execAmoOr (a b c : RCode) (r : BitVec 1) (s : State) : Outcome State Fault Refusal :=
  amoOp (.amoOr a b c r) a b c r s fun old c => some (old ||| c)

/-- AMO.XOR (R237). -/
def execAmoXor (a b c : RCode) (r : BitVec 1) (s : State) : Outcome State Fault Refusal :=
  amoOp (.amoXor a b c r) a b c r s fun old c => some (old ^^^ c)

/-- AMO.MIN (R237). -/
def execAmoMin (a b c : RCode) (r : BitVec 1) (s : State) : Outcome State Fault Refusal :=
  amoOp (.amoMin a b c r) a b c r s fun old c => some (if old.slt c then old else c)

/-- AMO.MAX (R237). -/
def execAmoMax (a b c : RCode) (r : BitVec 1) (s : State) : Outcome State Fault Refusal :=
  amoOp (.amoMax a b c r) a b c r s fun old c => some (if old.slt c then c else old)

/-- AMO.MINU (R237). -/
def execAmoMinu (a b c : RCode) (r : BitVec 1) (s : State) : Outcome State Fault Refusal :=
  amoOp (.amoMinu a b c r) a b c r s fun old c => some (if old.ult c then old else c)

/-- AMO.MAXU (R237). -/
def execAmoMaxu (a b c : RCode) (r : BitVec 1) (s : State) : Outcome State Fault Refusal :=
  amoOp (.amoMaxu a b c r) a b c r s fun old c => some (if old.ult c then c else old)

/-- AMO.CAS (R237): field a holds the expected value before and the old one after; no write when they differ. -/
def execAmoCas (a b c : RCode) (r : BitVec 1) (s : State) : Outcome State Fault Refusal :=
  let want := s.aSrc a 0
  amoOp (.amoCas a b c r) a b c r s fun old c => if old = want then some c else none

/-- A branch in the A-stream or on a plate core (R239). -/
def State.brA (s : State) (b c : RCode) (off : W64) (cond : W64 → W64 → Bool) : State :=
  s.aWhen [b, c] [] fun v s =>
    if cond (v.getD 0 0) (v.getD 1 0) then (s.aPop [b, c]).goto (s.pcOf s.cur + off * 4) else s.aDone0 [b, c]

/-- The value of an E-stream branch operand: z or the popped entry that stands at this place (R147, R239). -/
def brVal (c : RCode) (vals : List VReg) (k : Nat) : W64 := if isPort c then (vals.getD k 0).setWidth 64 else 0

/-- A branch in the E-stream (R239): its operands are z and A→E queues. -/
def State.brE (s : State) (h : Nat) (b c : RCode) (off : W64) (cond : W64 → W64 → Bool) : State :=
  let v := s.hart h
  match v.pops [b, c] with
  | .waits => s.standAt (.queue (portsOf [b, c]) [])
  | .failed va => s.eTrapPre h (TrapInfo.of .uncorr va)
  | .ready vals =>
    let x := brVal b vals 0
    let y := brVal c vals (if isPort b then 1 else 0)
    let pc := if cond x y then v.e.pc + off * 4 else v.e.pc + 4
    let s := s.modHart h fun v => { v with r := v.popOnce [b, c] }
    (s.dropKept h).goto pc

/-- A branch (R239). -/
def brOp (i : Instr) (b c : RCode) (o : BitVec 9) (s : State) (cond : W64 → W64 → Bool) : Outcome State Fault Refusal :=
  gate i s fun s =>
    match s.cur with
    | .eStream h => s.brE h b c (o.signExtend 64) cond
    | _ => s.brA b c (o.signExtend 64) cond

/-- BEQ (R239). -/
def execBeq (b c : RCode) (o : BitVec 9) (s : State) : Outcome State Fault Refusal :=
  brOp (.beq b c o) b c o s fun x y => x == y

/-- BNE (R239). -/
def execBne (b c : RCode) (o : BitVec 9) (s : State) : Outcome State Fault Refusal :=
  brOp (.bne b c o) b c o s fun x y => x != y

/-- BLT (R239). -/
def execBlt (b c : RCode) (o : BitVec 9) (s : State) : Outcome State Fault Refusal :=
  brOp (.blt b c o) b c o s fun x y => x.slt y

/-- BGE (R239). -/
def execBge (b c : RCode) (o : BitVec 9) (s : State) : Outcome State Fault Refusal :=
  brOp (.bge b c o) b c o s fun x y => !(x.slt y)

/-- BLTU (R239). -/
def execBltu (b c : RCode) (o : BitVec 9) (s : State) : Outcome State Fault Refusal :=
  brOp (.bltu b c o) b c o s fun x y => x.ult y

/-- BGEU (R239). -/
def execBgeu (b c : RCode) (o : BitVec 9) (s : State) : Outcome State Fault Refusal :=
  brOp (.bgeu b c o) b c o s fun x y => !(x.ult y)

/-- J (R240): in the E-stream no link is written. -/
def execJ (a : RCode) (o : BitVec 19) (s : State) : Outcome State Fault Refusal :=
  gate (.j a o) s fun s =>
    let pc := s.pcOf s.cur
    let t := pc + o.signExtend 64 * 4
    match s.cur with
    | .eStream h => (s.dropKept h).goto t
    | _ => s.aWhen [] [a] fun _ s => (s.aPut a (pc + 4)).goto t

/-- JR (R241). -/
def execJr (a b : RCode) (i : BitVec 12) (s : State) : Outcome State Fault Refusal :=
  withA (.jr a b i) [b] [a] s fun v s =>
    let t := v.getD 0 0 + imm12 i
    if t.extractLsb' 0 2 != 0 then s.raise .align t
    else ((s.aPop [b]).aPut a (s.pcOf s.cur + 4)).goto t

end Sys2Proof.Machine
end

