-- ==== Sys2Proof/Machine/Td.lean ====
section
/-! DEFINITION. The tensor descriptor instructions: TDSET, TDGET, TDSYNC and TDCHK (R338..R340). An engine command takes its
descriptor when it issues; what TDSET and TDSYNC wait for is a tile instruction that stands between two of its groups, since it reads
its descriptor again when it goes on (log 20). -/

namespace Sys2Proof.Machine

open Host (Outcome)

/-- A descriptor with one field replaced: byte offset, low bit, length, value. -/
def tdPut (t : BitVec 1024) (off lo len v : Nat) : BitVec 1024 := BitVec.ofNat 1024 (setFld t.toNat (8 * off + lo) len v)

/-- Dense row-major strides of a box, the innermost row in whole bytes (R64). -/
def denseStride (ext : List Nat) (w d : Nat) : Nat :=
  ceilDiv (ext.getD (ext.length - 1) 0 * w) 8 * ((ext.take (ext.length - 1)).drop (d + 1)).foldl (· * ·) 1

/-- The one-tile entry a spliced step finds for its elided tensor (R377), its BASE the splice buffer. -/
def tdOneTile (t : BitVec 1024) (base : Nat) : BitVec 1024 :=
  let ext := tdTiles t
  let t := tdPut (tdClearElided t) 8 0 48 base
  (List.range ext.length).foldl (fun t d =>
    let t := tdPut t (0x18 + 4 * d) 0 32 (ext.getD d 0)
    if d + 1 < ext.length then tdPut t (0x40 + 8 * d) 0 64 (denseStride ext (fmtWidth (tdFmt t)) d) else t) t

/-- Is T the redirected entry of a spliced step (R377)? -/
def State.redirected (s : State) (h tid : Nat) : Bool :=
  match (s.hart h).r.redirect with
  | some (t, _) => t == tid
  | none => false

/-- The entry as TDGET and TDCHK show it (R340): the bay's copy, or the one-tile entry of a spliced step. -/
def State.tdShown (s : State) (h tid : Nat) : Except (Cause × Nat) (BitVec 1024) × State :=
  match (s.hart h).r.redirect with
  | some (t, _, off, td) =>
    if t = tid then (.ok (tdOneTile td (ownBase + off - (s.hart h).r.base)), s) else s.tdRead h tid
  | none => s.tdRead h tid

/-- The entry that a tile instruction names. -/
def tileUse (w : Word32) : Option Nat :=
  match decode w with
  | .instr (.vlt _ t _ _) | .instr (.vltck _ t _ _) | .instr (.vstt t _ _ _) => some t.toNat
  | _ => none

/-- Does a stream of these bays stand inside a tile instruction that uses entry tid of a context (R338)? A spliced step's redirected
entry is none of the table's. -/
def State.tdInUse (s : State) (bays : Nat → Bool) (asid tid : Nat) : Bool :=
  s.placed.any fun h => bays (bayOf h) && (s.hart h).ctx.asid == asid && !(s.redirected h tid)
    && (s.hart h).e.prog.any fun p => tileUse p.word == some tid

/-- The new entry of TDSET (R338): the image, with GEN one more than in memory and ELIDED 0. -/
def tdNew (old img : BitVec 1024) : BitVec 1024 := tdPut (tdClearElided img) 0x70 0 64 (tdGen old + 1)

/-- Writes the entry to memory and to the bay's cache (R178, R338). -/
def State.tdReplace (s : State) (h tid : Nat) (img : BitVec 1024) : Except (Cause × Nat × Nat) Unit × State :=
  let pt := (s.hart h).ctx.ptbase
  match s.ctlRead pt (s.tdAddr h tid) 128 with
  | (.error e, s) => (.error (e.1, e.2, 0), s)
  | (.ok bs, s) =>
    let t := tdNew (BitVec.ofNat 1024 (ofBytes bs)) img
    match s.ctlWrite pt (s.tdAddr h tid) (toBytes 128 t.toNat) with
    | (.error e, s) => (.error (e.1, e.2, 1), s)
    | (.ok _, s) => (.ok (), s.tdFill h tid t)

/-- TDSET (R338). The wait for the uses of the entry comes before the reads, so that these are made once (log 62). -/
def execTdset (t b : RCode) (s : State) : Outcome State Fault Refusal :=
  withA (.tdset t b) [b] [] s fun v s =>
    let h := s.curHart
    let va := v.getD 0 0
    if va.toNat % 64 ≠ 0 then s.raise .align va
    else if !(s.redirected h t.toNat) && s.tdInUse (· == bayOf h) (s.hart h).ctx.asid t.toNat then s.standAt .stall
    else match s.aLoads s.cur va.toNat 16 with
      | (.error e, s) => s.raiseAcc e.1 (w64 e.2) 0
      | (.ok ds, s) =>
        if s.redirected h t.toNat then s.raise .elided (w64 t.toNat)
        else match s.tdReplace h t.toNat (BitVec.ofNat 1024 (packElems 64 (ds.map (·.toNat)))) with
          | (.error e, s) => s.raiseAcc e.1 (w64 e.2.1) e.2.2
          | (.ok _, s) => (s.releaseBy s.cur 5).aDone0 [b]

/-- TDGET (R340). -/
def execTdget (a t c : RCode) (s : State) : Outcome State Fault Refusal :=
  withA (.tdget a t c) [c] [a] s fun v s =>
    match s.tdShown s.curHart t.toNat with
    | (.error e, s) => s.raiseAcc e.1 (w64 e.2) 0
    | (.ok x, s) => s.aDone [c] a (w64 (elemOf 64 x.toNat ((v.getD 0 0).toNat % 16)))

/-- The word of TDCHK (R340); bits the table does not list read 0. -/
def State.tdchkWord (s : State) (x : BitVec 1024) : W64 :=
  w64 (s.tdUse x + b2n (tdElided x) * 2 ^ 10 + b2n (tdTransient x) * 2 ^ 11 + tdGen x % 2 ^ 32 * 2 ^ 32)

/-- TDCHK (R340). -/
def execTdchk (a t : RCode) (s : State) : Outcome State Fault Refusal :=
  withA (.tdchk a t) [] [a] s fun _ s =>
    match s.tdShown s.curHart t.toNat with
    | (.error e, s) => s.raiseAcc e.1 (w64 e.2) 0
    | (.ok x, s) => s.aDone [] a (s.tdchkWord x)

/-- Bays in one instance of a scope, as a divisor of the bay number (R16, R339). -/
def scopeBays (level : Nat) : Nat :=
  match level with
  | 0 | 1 => 1
  | 2 => 8
  | 3 => 32
  | 4 => 64
  | 5 => 128
  | _ => 512

/-- The bays of an instance drop their copies of an entry (R339). -/
def State.tdDrop (s : State) (bay level asid tid : Nat) : State :=
  { s with tdc := s.tdc.map fun p =>
      if p.1 / scopeBays level = bay / scopeBays level then
        (p.1, p.2.filter fun e => !(e.asid == asid && e.tid == tid))
      else p }

/-- TDSYNC (R339): a release at the scope, then the drop, once no bay of the instance still uses the entry. -/
def execTdsync (t sc : RCode) (s : State) : Outcome State Fault Refusal :=
  withA (.tdsync t sc) [] [] s fun _ s =>
    let h := s.curHart
    let n := scopeBays (sc.toNat % 8)
    if s.tdInUse (fun b => b / n == bayOf h / n) (s.hart h).ctx.asid t.toNat then (s.releaseBy s.cur (sc.toNat % 8)).standAt .stall
    else ((s.releaseBy s.cur (sc.toNat % 8)).tdDrop (bayOf h) (sc.toNat % 8) (s.hart h).ctx.asid t.toNat).aDone0 []

end Sys2Proof.Machine
end

