-- ==== Sys2Proof/Machine/Xacc.lean ====
section
/-! DEFINITION. The extrapolating accumulators: major 0x31 (R93, R94, R307..R315). -/

namespace Sys2Proof.Machine

open Host (Outcome)

/-- An accumulator of a hart. -/
def MRegs.xacc (m : MRegs) (n : Nat) : XAcc := tgetD m.xa n XAcc.zero

def State.setXacc (s : State) (h n : Nat) (x : XAcc) : State := s.modM h fun m => { m with xa := tput m.xa n x }

/-- Lanes of a hart (R97). -/
def State.lanes (s : State) (h : Nat) : Nat := (s.hart h).id.lanes

/-- History, flags and LAST cleared (R310). -/
def XAcc.clear (x : XAcc) : XAcc := { x with count := 0, hist := [], conv := 0, stag := 0, nzd := 0, last := [] }

/-- One setting written (R309); none outside its limits. -/
def XAcc.config (x : XAcc) (item : Nat) (v : W64) : Option XAcc :=
  let n := v.toNat
  match item with
  | 0 => if 1 ≤ n ∧ n ≤ 8 then some { x.clear with depth := n } else none
  | 1 => some { x with thresh := v }
  | 2 => some { x with tol := v }
  | 3 => if 1 ≤ n ∧ n ≤ 8 then some { x with wdepth := n } else none
  | _ => some { x with wt := tput x.wt (item - 8) v }

/-- XCFG (R309). -/
def execXcfg (i b : RCode) (c : BitVec 2) (s : State) : Outcome State Fault Refusal :=
  let op : EOp := { cls := none, derived := [], srcs := [b], vecs := [(b, 1)], dst := .none }
  eRun (.xcfg i b c) s op noPre fun y s =>
    let v := w64 (y.sc 0)
    match ((s.hart y.h).m.xacc c.toNat).config i.toNat v with
    | none => .error (TrapInfo.of .bounds v, s)
    | some x => .ok (s.setXacc y.h c.toNat x, EOut.none)

/-- XCLR (R310). -/
def execXclr (c : BitVec 2) (s : State) : Outcome State Fault Refusal :=
  let op : EOp := { cls := none, derived := [], srcs := [], vecs := [], dst := .none }
  eRun (.xclr c) s op noPre fun y s => .ok (s.setXacc y.h c.toNat ((s.hart y.h).m.xacc c.toNat).clear, EOut.none)

/-- An FP32 pattern as a history entry: converted exactly, a NaN kept as it is (R93, R310). -/
def histEntry (v : Nat) : W64 :=
  if (spFP32.decode v).isNan then w64 (v / 2 ^ 31 * 2 ^ 63 + 0x7FF * 2 ^ 52 + v % 2 ^ 23 * 2 ^ 29) else f32to64 v

/-- The vector appended (R310): the oldest goes first when the history is full. -/
def XAcc.append (x : XAcc) (v : Tab W64) : XAcc :=
  if x.count = x.depth then { x with hist := x.hist.drop 1 ++ [v] }
  else { x with hist := x.hist ++ [v], count := x.count + 1 }

/-- XCHK (R310). -/
def execXchk (b : RCode) (c : BitVec 2) (s : State) : Outcome State Fault Refusal :=
  let op : EOp := { cls := none, derived := [], srcs := [b], vecs := [(b, 1)], dst := .none }
  eRun (.xchk b c) s op noPre fun y s =>
    let v := y.src 0
    let vec : Tab W64 := (List.range (s.lanes y.h)).map fun i => (i, histEntry (elemOf 32 v i))
    .ok (s.setXacc y.h c.toNat (((s.hart y.h).m.xacc c.toNat).append vec), EOut.none)

/-! Drains. -/

/-- Column k + 1 from columns k - 1 and k (R94); none when a divisor is within the threshold. -/
def epsColumn (thresh : W64) (prev cur : List W64) : Option (List W64) :=
  let ds := (cur.zip (cur.drop 1)).map fun p => f64Sub p.2 p.1
  if ds.any fun d => f64Le (f64Abs d) thresh then none
  else some ((ds.zip (prev.drop 1)).map fun p => f64Add p.2 (f64Div 0x3FF0_0000_0000_0000 p.1))

/-- The table from column k on: the last entry of the largest even column completed, and whether a divisor broke the
table off (R94, R311). -/
def epsTable (thresh : W64) : Nat → Nat → List W64 → List W64 → W64 → W64 × Bool
  | 0, _, _, _, best => (best, false)
  | f + 1, k, prev, cur, best =>
    let best := if k % 2 = 0 then cur.getLastD best else best
    if cur.length ≤ 1 then (best, false)
    else match epsColumn thresh prev cur with
      | none => (best, true)
      | some next => epsTable thresh f (k + 1) cur next best

/-- XEPS on one element: its history gives the FP64 result and the NZD bit (R311). -/
def epsOne (thresh : W64) (hist : List W64) : W64 × Bool :=
  if hist.isEmpty then (0, false) else epsTable thresh (hist.length + 1) 0 (List.replicate (hist.length + 1) 0) hist 0

/-- XLSQ on one element (R94, R312). -/
def lsqOne (ws hist : List W64) : W64 := (ws.zip hist).foldl (fun acc p => f64Fma p.1 p.2 acc) 0

/-- The rounding of a drained element to FP32 (R93): a NaN in the history raises NV and gives the canonical NaN. -/
def drainRound (hist : List W64) (v : W64) : Nat × BitVec 5 :=
  if hist.any fun x => (f64 x).isNan then (spFP32.cnan, flNV) else f64to32 v

/-- History of element i, oldest first. -/
def XAcc.elem (x : XAcc) (i : Nat) : List W64 := x.hist.map fun v => tgetD v i 0

/-- The first element that raised the flag a trap reports (R315). -/
def flagElem (c : Cause) (l : List (BitVec 5)) : Nat := ((List.range l.length).find? fun i => l.getD i 0 != 0 && fpCause (l.getD i 0) == c).getD 0

/-- A bit per element as a word. -/
def bitWord (l : List Bool) : BitVec 32 :=
  BitVec.ofNat 32 ((List.range l.length).foldl (fun a i => a + b2n (l.getD i false) * 2 ^ i) 0)

/-- A drain (R311, R312, R315): f answers an element's FP64 result and NZD bit. -/
def drain (i : Instr) (a : RCode) (c : BitVec 2) (s : State) (pre : State → Nat → Option TrapInfo)
    (f : XAcc → List W64 → W64 × Bool) : Outcome State Fault Refusal :=
  let op : EOp := { cls := none, derived := [], srcs := [], vecs := [], dst := .vec a 1 32 }
  eRun i s op pre fun y s =>
    let x := (s.hart y.h).m.xacc c.toNat
    let n := s.lanes y.h
    let rs := (List.range n).map fun k =>
      let r := f x (x.elem k)
      (drainRound (x.elem k) r.1, r.2)
    let fl := rs.foldl (fun a r => a ||| r.1.2) (0 : BitVec 5)
    let on := enabled y.e.fpen fl
    let st : EStop :=
      { vstart := 0, cause := fpCause on, eval := 0, elem := flagElem (fpCause on) (rs.map fun r => enabled y.e.fpen r.1.2),
        elaunch := 0, etid := 0 }
    if on ≠ 0 then
      .ok (s, { EOut.none with stop := some st })
    else
      let last : Tab (BitVec 32) := (List.range n).map fun k => (k, BitVec.ofNat 32 ((rs.map (·.1.1)).getD k 0))
      let ws : List (Nat × Nat) := (List.range n).map fun k => (k, (rs.map (·.1.1)).getD k 0)
      .ok (s.setXacc y.h c.toNat { x with last := last, nzd := bitWord (rs.map (·.2)) },
        { writes := ws, flags := fl, stop := none })

/-- XEPS (R311). -/
def execXeps (a : RCode) (c : BitVec 2) (s : State) : Outcome State Fault Refusal :=
  drain (.xeps a c) a c s noPre fun x h => epsOne x.thresh h

/-- The first weights of an accumulator, oldest entry first (R312). -/
def XAcc.weights (x : XAcc) : List W64 := (List.range x.count).map fun k => tgetD x.wt k 0

/-- XLSQ (R312). -/
def execXlsq (a : RCode) (c : BitVec 2) (s : State) : Outcome State Fault Refusal :=
  let pre : State → Nat → Option TrapInfo := fun s h =>
    let x := (s.hart h).m.xacc c.toNat
    if x.count ≠ x.wdepth then some (TrapInfo.of .illvt (evalOf (.xlsq a c))) else none
  drain (.xlsq a c) a c s pre fun x h => (lsqOne x.weights h, false)

/-- The test of one element (R313): whether it passes and whether it stagnates. -/
def XAcc.test (x : XAcc) (i old : Nat) : Bool × Bool :=
  let new := f32to64 (tgetD x.last i 0).toNat
  let diff := f64Sub new (f32to64 old)
  let bound := f64Mul x.tol (f64Abs new)
  let pass := f64Le (f64Abs diff) bound
  let h := x.elem i
  let n := h.length
  let d1 := f64Sub (h.getD (n - 1) 0) (h.getD (n - 2) 0)
  let d0 := f64Sub (h.getD (n - 2) 0) (h.getD (n - 3) 0)
  let stagnant := decide (3 ≤ n) && f64Abs d1 != 0 && f64Le (f64Abs d0) (f64Abs d1)
  (pass && !stagnant, pass && stagnant)

/-- XTEST (R313). -/
def execXtest (a : BitVec 3) (b : RCode) (c : BitVec 2) (s : State) : Outcome State Fault Refusal :=
  let op : EOp := { cls := none, derived := [], srcs := [b], vecs := [(b, 1)], dst := .none }
  eRun (.xtest a b c) s op noPre fun y s =>
    let x := (s.hart y.h).m.xacc c.toNat
    let v := y.src 0
    let rs := (List.range (s.lanes y.h)).map fun i => x.test i (elemOf 32 v i)
    let conv := bitWord (rs.map (·.1))
    let stag := bitWord (rs.map (·.2))
    .ok ((s.setXacc y.h c.toNat { x with conv := conv, stag := stag }).putMask y.h a.toNat
      (conv ||| stag ||| x.nzd).toNat, EOut.none)

/-- The two entries of XSTAT (R314). -/
def XAcc.stat (x : XAcc) : List W64 :=
  [w64 (x.conv.toNat + x.stag.toNat * 2 ^ 32),
   w64 (x.nzd.toNat + x.count * 2 ^ 32 + x.depth * 2 ^ 36 + x.wdepth * 2 ^ 40)]

/-- XSTAT (R314). -/
def execXstat (a : BitVec 2) (c : BitVec 2) (s : State) : Outcome State Fault Refusal :=
  gate (.xstat a c) s fun s =>
    let h := s.curHart
    let q := tgetD (s.hart h).r.ea a.toNat []
    if 8 < q.length + 2 then s.standAt (.queue [] [a.toNat, a.toNat])
    else
      ((s.modHart h fun v =>
        { v with
          r := { v.r with ea := tput v.r.ea a.toNat (q ++ (v.m.xacc c.toNat).stat) }
          e := { v.e with vstart := 0 } })).eStep h

end Sys2Proof.Machine
end

