-- ==== Sys2Proof/Machine/Dispatch.lean ====
section
/-! DEFINITION. One arm per constructor of Instr: the meaning of an instruction or event. -/

namespace Sys2Proof.Machine

def exec (i : Instr) (s : State) : Host.Outcome State Fault Refusal :=
  match i with
  | .add a b c => Sys2Proof.Machine.execAdd a b c s
  | .sub a b c => Sys2Proof.Machine.execSub a b c s
  | .and a b c => Sys2Proof.Machine.execAnd a b c s
  | .or a b c => Sys2Proof.Machine.execOr a b c s
  | .xor a b c => Sys2Proof.Machine.execXor a b c s
  | .andn a b c => Sys2Proof.Machine.execAndn a b c s
  | .orn a b c => Sys2Proof.Machine.execOrn a b c s
  | .xnor a b c => Sys2Proof.Machine.execXnor a b c s
  | .sll a b c => Sys2Proof.Machine.execSll a b c s
  | .srl a b c => Sys2Proof.Machine.execSrl a b c s
  | .sra a b c => Sys2Proof.Machine.execSra a b c s
  | .rol a b c => Sys2Proof.Machine.execRol a b c s
  | .ror a b c => Sys2Proof.Machine.execRor a b c s
  | .slt a b c => Sys2Proof.Machine.execSlt a b c s
  | .sltu a b c => Sys2Proof.Machine.execSltu a b c s
  | .min a b c => Sys2Proof.Machine.execMin a b c s
  | .max a b c => Sys2Proof.Machine.execMax a b c s
  | .minu a b c => Sys2Proof.Machine.execMinu a b c s
  | .maxu a b c => Sys2Proof.Machine.execMaxu a b c s
  | .mul a b c => Sys2Proof.Machine.execMul a b c s
  | .mulh a b c => Sys2Proof.Machine.execMulh a b c s
  | .mulhu a b c => Sys2Proof.Machine.execMulhu a b c s
  | .div a b c => Sys2Proof.Machine.execDiv a b c s
  | .divu a b c => Sys2Proof.Machine.execDivu a b c s
  | .rem a b c => Sys2Proof.Machine.execRem a b c s
  | .remu a b c => Sys2Proof.Machine.execRemu a b c s
  | .clz a b => Sys2Proof.Machine.execClz a b s
  | .ctz a b => Sys2Proof.Machine.execCtz a b s
  | .popc a b => Sys2Proof.Machine.execPopc a b s
  | .clmul a b c => Sys2Proof.Machine.execClmul a b c s
  | .clmulh a b c => Sys2Proof.Machine.execClmulh a b c s
  | .addi a b im => Sys2Proof.Machine.execAddi a b im s
  | .andi a b im => Sys2Proof.Machine.execAndi a b im s
  | .ori a b im => Sys2Proof.Machine.execOri a b im s
  | .xori a b im => Sys2Proof.Machine.execXori a b im s
  | .slti a b im => Sys2Proof.Machine.execSlti a b im s
  | .sltiu a b im => Sys2Proof.Machine.execSltiu a b im s
  | .slli a b n => Sys2Proof.Machine.execSlli a b n s
  | .srli a b n => Sys2Proof.Machine.execSrli a b n s
  | .srai a b n => Sys2Proof.Machine.execSrai a b n s
  | .roli a b n => Sys2Proof.Machine.execRoli a b n s
  | .rori a b n => Sys2Proof.Machine.execRori a b n s
  | .lih a im => Sys2Proof.Machine.execLih a im s
  | .ldB a b o => Sys2Proof.Machine.execLdB a b o s
  | .ldBu a b o => Sys2Proof.Machine.execLdBu a b o s
  | .ldH a b o => Sys2Proof.Machine.execLdH a b o s
  | .ldHu a b o => Sys2Proof.Machine.execLdHu a b o s
  | .ldW a b o => Sys2Proof.Machine.execLdW a b o s
  | .ldWu a b o => Sys2Proof.Machine.execLdWu a b o s
  | .ldD a b o => Sys2Proof.Machine.execLdD a b o s
  | .stB a b o => Sys2Proof.Machine.execStB a b o s
  | .stH a b o => Sys2Proof.Machine.execStH a b o s
  | .stW a b o => Sys2Proof.Machine.execStW a b o s
  | .stD a b o => Sys2Proof.Machine.execStD a b o s
  | .amoSwap a b c r => Sys2Proof.Machine.execAmoSwap a b c r s
  | .amoAdd a b c r => Sys2Proof.Machine.execAmoAdd a b c r s
  | .amoAnd a b c r => Sys2Proof.Machine.execAmoAnd a b c r s
  | .amoOr a b c r => Sys2Proof.Machine.execAmoOr a b c r s
  | .amoXor a b c r => Sys2Proof.Machine.execAmoXor a b c r s
  | .amoMin a b c r => Sys2Proof.Machine.execAmoMin a b c r s
  | .amoMax a b c r => Sys2Proof.Machine.execAmoMax a b c r s
  | .amoMinu a b c r => Sys2Proof.Machine.execAmoMinu a b c r s
  | .amoMaxu a b c r => Sys2Proof.Machine.execAmoMaxu a b c r s
  | .amoCas a b c r => Sys2Proof.Machine.execAmoCas a b c r s
  | .beq b c o => Sys2Proof.Machine.execBeq b c o s
  | .bne b c o => Sys2Proof.Machine.execBne b c o s
  | .blt b c o => Sys2Proof.Machine.execBlt b c o s
  | .bge b c o => Sys2Proof.Machine.execBge b c o s
  | .bltu b c o => Sys2Proof.Machine.execBltu b c o s
  | .bgeu b c o => Sys2Proof.Machine.execBgeu b c o s
  | .j a o => Sys2Proof.Machine.execJ a o s
  | .jr a b im => Sys2Proof.Machine.execJr a b im s
  | .csrrd a n => Sys2Proof.Machine.execCsrrd a n s
  | .csrwr b n => Sys2Proof.Machine.execCsrwr b n s
  | .csrset b n => Sys2Proof.Machine.execCsrset b n s
  | .csrclr b n => Sys2Proof.Machine.execCsrclr b n s
  | .cplaunch a => Sys2Proof.Machine.execCplaunch a s
  | .featack b => Sys2Proof.Machine.execFeatack b s
  | .fenceSv sc => Sys2Proof.Machine.execFenceSv sc s
  | .fenceVs sc => Sys2Proof.Machine.execFenceVs sc s
  | .fenceVv sc => Sys2Proof.Machine.execFenceVv sc s
  | .fenceAll sc => Sys2Proof.Machine.execFenceAll sc s
  | .post b => Sys2Proof.Machine.execPost b s
  | .killck b c => Sys2Proof.Machine.execKillck b c s
  | .scopeof a b c => Sys2Proof.Machine.execScopeof a b c s
  | .setscope b => Sys2Proof.Machine.execSetscope b s
  | .glaunch a b c => Sys2Proof.Machine.execGlaunch a b c s
  | .cpwait b c => Sys2Proof.Machine.execCpwait b c s
  | .cptest a b sc => Sys2Proof.Machine.execCptest a b sc s
  | .cpcancel b => Sys2Proof.Machine.execCpcancel b s
  | .bgather a b t => Sys2Proof.Machine.execBgather a b t s
  | .remq b c => Sys2Proof.Machine.execRemq b c s
  | .remqa a b c => Sys2Proof.Machine.execRemqa a b c s
  | .ppush a b => Sys2Proof.Machine.execPpush a b s
  | .sld a b => Sys2Proof.Machine.execSld a b s
  | .slds a b c => Sys2Proof.Machine.execSlds a b c s
  | .sldz a b c => Sys2Proof.Machine.execSldz a b c s
  | .binit b c => Sys2Proof.Machine.execBinit b c s
  | .bexpect b c => Sys2Proof.Machine.execBexpect b c s
  | .barrive b => Sys2Proof.Machine.execBarrive b s
  | .bwait b c => Sys2Proof.Machine.execBwait b c s
  | .btest a b => Sys2Proof.Machine.execBtest a b s
  | .rrot a b c => Sys2Proof.Machine.execRrot a b c s
  | .smv a t c => Sys2Proof.Machine.execSmv a t c s
  | .ssub a t c => Sys2Proof.Machine.execSsub a t c s
  | .spull b t => Sys2Proof.Machine.execSpull b t s
  | .sstop b => Sys2Proof.Machine.execSstop b s
  | .tdset t b => Sys2Proof.Machine.execTdset t b s
  | .tdget a t c => Sys2Proof.Machine.execTdget a t c s
  | .tdsync t sc => Sys2Proof.Machine.execTdsync t sc s
  | .tdchk a t => Sys2Proof.Machine.execTdchk a t s
  | .rird a b => Sys2Proof.Machine.execRird a b s
  | .ritag a b => Sys2Proof.Machine.execRitag a b s
  | .rimin a b c => Sys2Proof.Machine.execRimin a b c s
  | .rimax a b c => Sys2Proof.Machine.execRimax a b c s
  | .rireset a b c => Sys2Proof.Machine.execRireset a b c s
  | .qmap a b c => Sys2Proof.Machine.execQmap a b c s
  | .qunmap a b => Sys2Proof.Machine.execQunmap a b s
  | .qsave a b => Sys2Proof.Machine.execQsave a b s
  | .qload a b => Sys2Proof.Machine.execQload a b s
  | .tlbir b c => Sys2Proof.Machine.execTlbir b c s
  | .vttset a b c => Sys2Proof.Machine.execVttset a b c s
  | .preset a b => Sys2Proof.Machine.execPreset a b s
  | .presume b c => Sys2Proof.Machine.execPresume b c s
  | .kickclr b c => Sys2Proof.Machine.execKickclr b c s
  | .vsetvl a b g t => Sys2Proof.Machine.execVsetvl a b g t s
  | .vadd a b c m => Sys2Proof.Machine.execVadd a b c m s
  | .vsub a b c m => Sys2Proof.Machine.execVsub a b c m s
  | .vmul a b c m => Sys2Proof.Machine.execVmul a b c m s
  | .vmulh a b c m => Sys2Proof.Machine.execVmulh a b c m s
  | .vand a b c m => Sys2Proof.Machine.execVand a b c m s
  | .vor a b c m => Sys2Proof.Machine.execVor a b c m s
  | .vxor a b c m => Sys2Proof.Machine.execVxor a b c m s
  | .vsll a b c m => Sys2Proof.Machine.execVsll a b c m s
  | .vsrl a b c m => Sys2Proof.Machine.execVsrl a b c m s
  | .vsra a b c m => Sys2Proof.Machine.execVsra a b c m s
  | .vmin a b c m => Sys2Proof.Machine.execVmin a b c m s
  | .vmax a b c m => Sys2Proof.Machine.execVmax a b c m s
  | .vminu a b c m => Sys2Proof.Machine.execVminu a b c m s
  | .vmaxu a b c m => Sys2Proof.Machine.execVmaxu a b c m s
  | .vsadd a b c m => Sys2Proof.Machine.execVsadd a b c m s
  | .vssub a b c m => Sys2Proof.Machine.execVssub a b c m s
  | .vfadd a b c m => Sys2Proof.Machine.execVfadd a b c m s
  | .vfsub a b c m => Sys2Proof.Machine.execVfsub a b c m s
  | .vfmul a b c m => Sys2Proof.Machine.execVfmul a b c m s
  | .vfdiv a b c m => Sys2Proof.Machine.execVfdiv a b c m s
  | .vfmin a b c m => Sys2Proof.Machine.execVfmin a b c m s
  | .vfmax a b c m => Sys2Proof.Machine.execVfmax a b c m s
  | .vfsqrt a b m => Sys2Proof.Machine.execVfsqrt a b m s
  | .vfsgn a b c m => Sys2Proof.Machine.execVfsgn a b c m s
  | .vfma a b c m => Sys2Proof.Machine.execVfma a b c m s
  | .vfms a b c m => Sys2Proof.Machine.execVfms a b c m s
  | .vfnma a b c m => Sys2Proof.Machine.execVfnma a b c m s
  | .vfnms a b c m => Sys2Proof.Machine.execVfnms a b c m s
  | .vfmaw a b c m => Sys2Proof.Machine.execVfmaw a b c m s
  | .vcvtRne a b t m => Sys2Proof.Machine.execVcvtRne a b t m s
  | .vcvtRtz a b t m => Sys2Proof.Machine.execVcvtRtz a b t m s
  | .vcvtRdn a b t m => Sys2Proof.Machine.execVcvtRdn a b t m s
  | .vcvtRup a b t m => Sys2Proof.Machine.execVcvtRup a b t m s
  | .vcvtRneSat a b t m => Sys2Proof.Machine.execVcvtRneSat a b t m s
  | .vcvtRtzSat a b t m => Sys2Proof.Machine.execVcvtRtzSat a b t m s
  | .vceq a b c m => Sys2Proof.Machine.execVceq a b c m s
  | .vcne a b c m => Sys2Proof.Machine.execVcne a b c m s
  | .vclt a b c m => Sys2Proof.Machine.execVclt a b c m s
  | .vcle a b c m => Sys2Proof.Machine.execVcle a b c m s
  | .vcltu a b c m => Sys2Proof.Machine.execVcltu a b c m s
  | .vfceq a b c m => Sys2Proof.Machine.execVfceq a b c m s
  | .vfclt a b c m => Sys2Proof.Machine.execVfclt a b c m s
  | .vfcle a b c m => Sys2Proof.Machine.execVfcle a b c m s
  | .mand a b c => Sys2Proof.Machine.execMand a b c s
  | .mor a b c => Sys2Proof.Machine.execMor a b c s
  | .mxor a b c => Sys2Proof.Machine.execMxor a b c s
  | .mandn a b c => Sys2Proof.Machine.execMandn a b c s
  | .mpopc a b => Sys2Proof.Machine.execMpopc a b s
  | .mfirst a b => Sys2Proof.Machine.execMfirst a b s
  | .mtoq a b => Sys2Proof.Machine.execMtoq a b s
  | .vckm a b => Sys2Proof.Machine.execVckm a b s
  | .vslideup a b c m => Sys2Proof.Machine.execVslideup a b c m s
  | .vslidedn a b c m => Sys2Proof.Machine.execVslidedn a b c m s
  | .vrgather a b c m => Sys2Proof.Machine.execVrgather a b c m s
  | .vcompress a b c => Sys2Proof.Machine.execVcompress a b c s
  | .vexpand a b c => Sys2Proof.Machine.execVexpand a b c s
  | .vsplat a b m => Sys2Proof.Machine.execVsplat a b m s
  | .vmerge a b c m => Sys2Proof.Machine.execVmerge a b c m s
  | .vid a m => Sys2Proof.Machine.execVid a m s
  | .vredsum a b m => Sys2Proof.Machine.execVredsum a b m s
  | .vredmin a b m => Sys2Proof.Machine.execVredmin a b m s
  | .vredmax a b m => Sys2Proof.Machine.execVredmax a b m s
  | .vfredosum a b m => Sys2Proof.Machine.execVfredosum a b m s
  | .vfredtsum a b m => Sys2Proof.Machine.execVfredtsum a b m s
  | .vfredmin a b m => Sys2Proof.Machine.execVfredmin a b m s
  | .vfredmax a b m => Sys2Proof.Machine.execVfredmax a b m s
  | .vscan a b m => Sys2Proof.Machine.execVscan a b m s
  | .vaddi a b im m => Sys2Proof.Machine.execVaddi a b im m s
  | .vandi a b im m => Sys2Proof.Machine.execVandi a b im m s
  | .vori a b im m => Sys2Proof.Machine.execVori a b im m s
  | .vxori a b im m => Sys2Proof.Machine.execVxori a b im m s
  | .vslli a b im m => Sys2Proof.Machine.execVslli a b im m s
  | .vsrli a b im m => Sys2Proof.Machine.execVsrli a b im m s
  | .vsrai a b im m => Sys2Proof.Machine.execVsrai a b im m s
  | .vmvi a im m => Sys2Proof.Machine.execVmvi a im m s
  | .vlt a t c m => Sys2Proof.Machine.execVlt a t c m s
  | .vltck a t c m => Sys2Proof.Machine.execVltck a t c m s
  | .vlr a b m => Sys2Proof.Machine.execVlr a b m s
  | .vlrs a b c m => Sys2Proof.Machine.execVlrs a b c m s
  | .vlrx a b c m => Sys2Proof.Machine.execVlrx a b c m s
  | .vlrff a b m => Sys2Proof.Machine.execVlrff a b m s
  | .vlrsc a b m => Sys2Proof.Machine.execVlrsc a b m s
  | .vstt t b c m => Sys2Proof.Machine.execVstt t b c m s
  | .vstr a b m => Sys2Proof.Machine.execVstr a b m s
  | .vstrs a b c m => Sys2Proof.Machine.execVstrs a b c m s
  | .vstrx a b c m => Sys2Proof.Machine.execVstrx a b c m s
  | .vstrsc a b m => Sys2Proof.Machine.execVstrsc a b m s
  | .vamoadd a b c m => Sys2Proof.Machine.execVamoadd a b c m s
  | .vamomin a b c m => Sys2Proof.Machine.execVamomin a b c m s
  | .vamomax a b c m => Sys2Proof.Machine.execVamomax a b c m s
  | .vamoswap a b c m => Sys2Proof.Machine.execVamoswap a b c m s
  | .vamoor a b c m => Sys2Proof.Machine.execVamoor a b c m s
  | .vmv a b m => Sys2Proof.Machine.execVmv a b m s
  | .vclmul a b c m => Sys2Proof.Machine.execVclmul a b c m s
  | .vclmulh a b c m => Sys2Proof.Machine.execVclmulh a b c m s
  | .vpopc a b m => Sys2Proof.Machine.execVpopc a b m s
  | .vclz a b m => Sys2Proof.Machine.execVclz a b m s
  | .vctz a b m => Sys2Proof.Machine.execVctz a b m s
  | .vsel a b c m => Sys2Proof.Machine.execVsel a b c m s
  | .vnot a b m => Sys2Proof.Machine.execVnot a b m s
  | .wbase im => Sys2Proof.Machine.execWbase im s
  | .mbeam t b => Sys2Proof.Machine.execMbeam t b s
  | .mseta t b => Sys2Proof.Machine.execMseta t b s
  | .mrow a b => Sys2Proof.Machine.execMrow a b s
  | .mrowt a b => Sys2Proof.Machine.execMrowt a b s
  | .mzero a => Sys2Proof.Machine.execMzero a s
  | .xcfg im b c => Sys2Proof.Machine.execXcfg im b c s
  | .xclr c => Sys2Proof.Machine.execXclr c s
  | .xchk b c => Sys2Proof.Machine.execXchk b c s
  | .xeps a c => Sys2Proof.Machine.execXeps a c s
  | .xlsq a c => Sys2Proof.Machine.execXlsq a c s
  | .xtest a b c => Sys2Proof.Machine.execXtest a b c s
  | .xstat a c => Sys2Proof.Machine.execXstat a c s
  | .ecall => Sys2Proof.Machine.execEcall s
  | .ebreak => Sys2Proof.Machine.execEbreak s
  | .eret => Sys2Proof.Machine.execEret s
  | .wfi => Sys2Proof.Machine.execWfi s
  | .halt => Sys2Proof.Machine.execHalt s
  | .stepend => Sys2Proof.Machine.execStepend s
  | .snap => Sys2Proof.Machine.execSnap s
  | .tbar => Sys2Proof.Machine.execTbar s
  | .tlbsync => Sys2Proof.Machine.execTlbsync s
  | .mswap => Sys2Proof.Machine.execMswap s
  | .mzeroBare => Sys2Proof.Machine.execMzeroBare s
  | .fencePairComplete => Sys2Proof.Machine.execFencePairComplete s
  | .streamLoadFill => Sys2Proof.Machine.execStreamLoadFill s
  | .smvChunk => Sys2Proof.Machine.execSmvChunk s
  | .sillTileFill => Sys2Proof.Machine.execSillTileFill s
  | .sillSlotPull => Sys2Proof.Machine.execSillSlotPull s
  | .subscriptionEnd => Sys2Proof.Machine.execSubscriptionEnd s
  | .ridgeForward => Sys2Proof.Machine.execRidgeForward s
  | .ridgeCopyUpdate => Sys2Proof.Machine.execRidgeCopyUpdate s
  | .tlbAck => Sys2Proof.Machine.execTlbAck s
  | .beamLoadDone => Sys2Proof.Machine.execBeamLoadDone s
  | .rowComplete => Sys2Proof.Machine.execRowComplete s
  | .kick => Sys2Proof.Machine.execKick s
  | .recordRead => Sys2Proof.Machine.execRecordRead s
  | .run => Sys2Proof.Machine.execRun s
  | .copy => Sys2Proof.Machine.execCopy s
  | .graph => Sys2Proof.Machine.execGraph s
  | .select => Sys2Proof.Machine.execSelect s
  | .fence => Sys2Proof.Machine.execFence s
  | .signal => Sys2Proof.Machine.execSignal s
  | .wait => Sys2Proof.Machine.execWait s
  | .waitReread => Sys2Proof.Machine.execWaitReread s
  | .nop => Sys2Proof.Machine.execNop s
  | .placeStep => Sys2Proof.Machine.execPlaceStep s
  | .regionAgeing => Sys2Proof.Machine.execRegionAgeing s
  | .preempt => Sys2Proof.Machine.execPreempt s
  | .stepRetire => Sys2Proof.Machine.execStepRetire s
  | .spliceBoundary => Sys2Proof.Machine.execSpliceBoundary s
  | .timeout => Sys2Proof.Machine.execTimeout s
  | .qdeadlock => Sys2Proof.Machine.execQdeadlock s
  | .domainReset => Sys2Proof.Machine.execDomainReset s
  | .park => Sys2Proof.Machine.execPark s
  | .parkNoticeRetry => Sys2Proof.Machine.execParkNoticeRetry s
  | .steal => Sys2Proof.Machine.execSteal s
  | .recordDelivery => Sys2Proof.Machine.execRecordDelivery s
  | .lentTimeout => Sys2Proof.Machine.execLentTimeout s
  | .chunkStart => Sys2Proof.Machine.execChunkStart s
  | .chunkLanding => Sys2Proof.Machine.execChunkLanding s
  | .powerInputChange => Sys2Proof.Machine.execPowerInputChange s
  | .powerGoodTimer => Sys2Proof.Machine.execPowerGoodTimer s
  | .powerSample => Sys2Proof.Machine.execPowerSample s
  | .thermalTrip => Sys2Proof.Machine.execThermalTrip s
  | .boot => Sys2Proof.Machine.execBoot s
  | .bootctl => Sys2Proof.Machine.execBootctl s
  | .restart => Sys2Proof.Machine.execRestart s
  | .mailbox => Sys2Proof.Machine.execMailbox s
  | .pfBar2Access => Sys2Proof.Machine.execPfBar2Access s
  | .apertureAccess => Sys2Proof.Machine.execApertureAccess s
  | .functionLevelReset => Sys2Proof.Machine.execFunctionLevelReset s
  | .flrClear => Sys2Proof.Machine.execFlrClear s
  | .flrTimeout => Sys2Proof.Machine.execFlrTimeout s
  | .spdmRequest => Sys2Proof.Machine.execSpdmRequest s
  | .podFormed => Sys2Proof.Machine.execPodFormed s
  | .linkReplay => Sys2Proof.Machine.execLinkReplay s
  | .linkDown => Sys2Proof.Machine.execLinkDown s
  | .snapPin => Sys2Proof.Machine.execSnapPin s
  | .trussBarrierRelease => Sys2Proof.Machine.execTrussBarrierRelease s
  | .linkUp => Sys2Proof.Machine.execLinkUp s
  | .debuggerHalt => Sys2Proof.Machine.execDebuggerHalt s

end Sys2Proof.Machine
end

