-- ==== Sys2Proof/Machine/Env.lean ====
section
/-! DEFINITION. What happens in the module and around it that the opcode table has no row for: each Env of State.lean, with the
condition under which it does anything. A condition that does not hold changes nothing. -/

namespace Sys2Proof.Machine

/-! Caches, gating and soft errors. -/

/-- A bay's L1 writes back and drops the line of a cell (R124). -/
def State.l1Evict (s : State) (bay k : Nat) : State := s.l1Flush bay k 1

/-- Is the unit of a translation cache idle, so that it may be power-gated: a bay without a step, an engine without an entry, a
plate core that runs nothing? When a unit may be gated, no rule says (DESIGN CHOICE, log 54). -/
def State.unitIdle (s : State) (id : Nat) : Bool :=
  if id < 512 then (List.range 8).all fun i => !(s.occ (id * 8 + i))
  else if id < 576 then (tgetD s.copyq (id - 512) []).isEmpty
  else if id < 584 then (tgetD s.sillq (id - 576) []).isEmpty
  else (s.plate (id - 584)).run == .held || (s.plate (id - 584)).run == .halted

/-- Power gating of a unit (R133, R344): its translation cache is empty and has acknowledged every TLBIR; so is a bay's L1. -/
def State.gate (s : State) (id : Nat) : State :=
  if s.unitIdle id then
    let s := if id < 512 then s.l1Empty id else s
    { s with
      tlbs := tdel s.tlbs id
      tlbInv := (s.tlbInv.map fun i => { i with pend := i.pend.filter (· != id) }).filter fun i => !(i.pend.isEmpty) }
  else s

/-- The counter of a unit's corrections, where the unit is present (R207). -/
def State.eccCounter (s : State) (u : Nat) : Option Nat :=
  if u < 8 then (if s.record.stackMask.getLsbD u then some (8 * u) else none)
  else if u < 16 then (if s.record.chiplets.getLsbD (u - 8) then some (0x40 + 8 * (u - 8)) else none)
  else if u = 16 then some 0x80 else none

/-- A single-bit error that a read meets is corrected, written back and counted, and nothing else comes of it (R128, R207). -/
def State.corrected (s : State) (u : Nat) : State :=
  match s.eccCounter u with
  | some a => s.countUp (cbAddr a) 8 1
  | none => s

/-- Is a cell's ECC word in a present stack, or in the scratchpad of an enabled bay? -/
def State.eccHere (s : State) (k : Nat) : Bool := isHbm s k || (isScratch k && s.bayOn ((k - 2 ^ 52) / 2 ^ 23))

/-- The ECC word of a cell holds an error that cannot be corrected (R128). -/
def State.uncorrectable (s : State) (k : Nat) : State :=
  match eccWord k with
  | some (w, _) => if s.eccHere k && !(s.bad.contains w) then { s with bad := w :: s.bad } else s
  | none => s

/-- An 8-byte word of a bay's L1 holds one (R128, R398). -/
def State.l1Error (s : State) (bay k : Nat) : State :=
  let c := s.l1Of bay
  let w := k / 8 * 8
  if (span w 8).any c.holds && !(c.bad.contains w) then s.setL1 bay { c with bad := w :: c.bad } else s

/-- A word of a main register in the register cache holds one (R128, R398). -/
def State.regError (s : State) (h reg word : Nat) : State :=
  let b := reg * 16 + word
  if s.occ h && decide (reg < (s.hart h).id.rsize) && decide (word * 64 < s.vlen h) && !((s.hart h).e.bad.contains b) then
    s.modE h fun e => { e with bad := b :: e.bad }
  else s

/-! The host and the links. -/

/-- The host writes its own memory (R126). -/
def State.hostWrite (s : State) (a : Nat) (bs : List Byte) : State :=
  if hostKey a + bs.length ≤ 2 ^ 58 then s.poke (hostKey a) bs else s

/-- The host port trains to a width and a rate in GT/s (R401, R415). A rate of 2.5 GT/s shows as 2 (log 97). -/
def State.pcieTrain (s : State) (width rate : Nat) : State :=
  if [16, 8, 4, 2, 1].contains width && [128, 64, 32, 16, 8, 5, 2].contains rate then
    { s with mg := { s.mg with pcieWidth := width, pcieRate := rate } }
  else s

/-- The host enables n virtual functions (R401). -/
def State.vfEnable (s : State) (n : Nat) : State := if n ≤ 256 then { s with mg := { s.mg with vfs := n } } else s

/-- A link that is present, and absent or down as the management page has it, starts to train (R408). -/
def State.linkTrain (s : State) (k : Nat) : State :=
  if k < 16 ∧ s.record.links.getLsbD k ∧ (s.linkState k = 0 ∨ s.linkState k = 3) then s.pokeNat (linkAddr k) 1 1 else s

/-- Firmware has found another path to a package (R407). -/
def State.reroute (s : State) (pkg : Nat) : State := { s with mg := { s.mg with cut := s.mg.cut &&& ~~~(pkgBit pkg) } }

/-- Firmware takes another package out of the pod: accesses to it fault from then on (R131, R407). -/
def State.podLeave (s : State) (pkg : Nat) : State := { s with mg := { s.mg with pod := s.mg.pod &&& ~~~(pkgBit pkg) } }

/-- Firmware raises MINSVN; nothing lowers it (R411). -/
def State.raiseSvn (s : State) (v : Nat) : State :=
  { s with mg := { s.mg with minsvn := max s.mg.minsvn (v % 2 ^ 32) } }

/-- Firmware writes its mailbox (R402). -/
def State.mailboxPut (s : State) (off : Nat) (bs : List Byte) : State :=
  if inMailbox off bs.length then s.mailboxWrite off bs else s

/-! All of them. -/

/-- The state after something of Env. -/
def State.envTurn (s : State) : Env → State
  | .l1Evict bay k => s.l1Evict bay k
  | .gate id => s.gate id
  | .corrected u => s.corrected u
  | .uncorrectable k => s.uncorrectable k
  | .l1Error bay k => s.l1Error bay k
  | .regError h r w => s.regError h r w
  | .hostWrite a bs => s.hostWrite a bs
  | .pfRead off n => s.pfRead off n
  | .doorbellRead n => s.doorbellRead n
  | .linkTrain k => s.linkTrain k
  | .reroute p => s.reroute p
  | .podLeave p => s.podLeave p
  | .raiseSvn v => s.raiseSvn v
  | .bootStep ok => s.bootStep ok
  | .pcieTrain w r => s.pcieTrain w r
  | .vfEnable n => s.vfEnable n
  | .shardReset rcb t => s.shardReset rcb t
  | .sdtBuild b => s.sdtBuild b
  | .sdtMap rcb => s.sdtMap rcb
  | .mailboxPut off bs => s.mailboxPut off bs

end Sys2Proof.Machine
end

