-- ==== Sys2Proof/Machine/Turn.lean ====
section
/-! DEFINITION. Whose turn it is and what that agent fetches (R46, R209, R219, R349). The spec fixes no order among the
agents: State.agenda holds the order from outside, and where it is empty a default order goes on (log 4): device events
that would change something first, then the agents in rotation. -/

namespace Sys2Proof.Machine

/-! Issue. -/

/-- May the streams of hart h issue (R183, R392, R393)? A step that has been asked to leave its harts, or that waits
in place for a page, issues nothing, but for an A-stream whose REMQA has sent its record. The harts of a halted bay
issue nothing (R344). -/
def State.hartRuns (s : State) (h : Nat) (remq : Bool) : Bool :=
  s.occ h && !(s.mg.debugHalt.contains (bayOf h)) &&
    (remq || (s.stepHarts h).all fun g => (s.hart g).r.pend.isNone && (s.hart g).r.waitPage.isNone)

/-- May this agent issue an instruction? -/
def State.canIssue (s : State) : Agent → Bool
  | .aStream h => s.hartRuns h (s.hart h).a.remq.isSome && !(s.hart h).a.ended
  | .eStream h => s.hartRuns h false && !(s.hart h).e.ended
  | .plate p => (s.plate p).run == .running || (s.plate p).run == .wfi

/-- The instruction at the program counter, or the state after the trap of a fetch or of the checks that precede the
instruction's own (R209, R219): EVAL is the address for a fetch, the word for the checks. -/
def State.fetchInstr (s : State) : Except State (Instr × State) :=
  let pc := s.pcOf s.cur
  match s.fetchWord s.cur with
  | (.error c, s) => .error (s.raiseAcc c pc 2)
  | (.ok w, s) =>
    match decode w with
    | .instr i => .ok (i, s)
    | .badField i => .error (s.raise ((s.gate345 i).getD .illop) (w.setWidth 64))
    | .noMajor | .noMinor | .short => .error (s.raise .illop (w.setWidth 64))

/-- An agent's turn: the instruction it executes, or the state in which it executes none. -/
def State.issue (s : State) (ag : Agent) : Except State (Instr × State) :=
  if s.canIssue ag then ({ s with cur := ag } : State).fetchInstr else .error s

/-! The default order. -/

/-- An argument of one number, and of two. -/
def ev1 (n : Nat) : EvArg := { EvArg.zero with n := n }
def ev2 (n n1 : Nat) : EvArg := { EvArg.zero with n := n, n1 := n1 }

/-- The event of a command by its KIND (R33). -/
def cmdEvent (k : Nat) : Instr :=
  match k with
  | 1 => .run | 2 => .copy | 3 => .graph | 4 => .select | 5 => .fence | 6 => .signal | 7 => .wait | _ => .nop

/-- Events of the device's clocks. -/
def State.timerEvents (s : State) : List (Instr × EvArg) :=
  (s.mg.flr.map fun p => (.flrTimeout, ev1 p.1)) ++ [(.regionAgeing, .zero)]
  ++ (if s.notices.isEmpty then [] else [(.parkNoticeRetry, .zero)])

/-- Events of queues and commands. -/
def State.cmdEvents (s : State) : List (Instr × EvArg) :=
  ((s.qslots.filter fun p => p.2.state == .running).map fun p => (.recordRead, ev1 p.1))
  ++ s.cmds.flatMap fun c => [(cmdEvent (recKind c.rec_), ev1 c.id), (.waitReread, ev1 c.id)]

/-- Events of a hart's step. -/
def State.hartEvents (s : State) (h : Nat) : List (Instr × EvArg) :=
  let v := s.hart h
  (if v.m.rows.isEmpty then [] else [(.rowComplete, ev1 h)])
  ++ (if v.m.loadBusy then [(.beamLoadDone, ev1 h)] else [])
  ++ (((List.range 4).filter fun q => (tgetD v.r.ae q []).any AEntry.unfilled).map fun q => (.streamLoadFill, ev2 h q))
  ++ [(.fencePairComplete, ev1 h), (.trussBarrierRelease, ev1 h), (.timeout, ev1 h), (.qdeadlock, ev1 h),
      (.domainReset, ev1 h), (.park, ev1 h), (.stepRetire, ev1 h), (.spliceBoundary, ev1 h)]

/-- Events of the engines. -/
def State.engineEvents (s : State) : List (Instr × EvArg) :=
  (s.copyq.flatMap fun p => (List.range p.2.length).map fun i => (.chunkLanding, ev2 p.1 i))
  ++ (s.copyq.map fun p => (.chunkStart, ev1 p.1))
  ++ s.sillq.flatMap fun p => if p.2.isEmpty then [] else
      [(.smvChunk, ev1 p.1), (.sillTileFill, ev1 p.1), (.sillSlotPull, ev1 p.1), (.subscriptionEnd, ev1 p.1)]

/-- Events of pools, of the record channel, of translation caches and of the cached ridges. -/
def State.poolEvents (s : State) : List (Instr × EvArg) :=
  ((List.range s.rq.length).map fun i => (.recordDelivery, ev1 i))
  ++ (s.shards.map fun p => (.lentTimeout, { ev1 (p.1 % 64) with w := w64 (p.1 / 64) }))
  ++ (s.tlbInv.flatMap fun i => i.pend.map fun n => (.tlbAck, ev1 n))
  ++ s.seen.map fun p => (.ridgeCopyUpdate, ev2 (p.1 / 16) (p.1 % 16))

/-- Is a hart of truss t free for a POOL step of a region (R379)? -/
def State.wantsRecord (s : State) (rcb t : Nat) : Bool :=
  s.cands.any fun c => c.cmd.rcb == rcb && blkPool c.run.blk && (s.freeSpots c).any fun sp => trussOf (sp.headD (0, 0)).1 == t

/-- Steals: by default a truss steals when a step could be placed on it (R379, R380; log 4). -/
def State.stealEvents (s : State) : List (Instr × EvArg) :=
  (s.shards.map fun p => p.1 / 64).eraseDups.flatMap fun r =>
    ((List.range 64).filter (s.wantsRecord r)).map fun t => (.steal, { ev1 t with w := w64 r })

/-- The device's events in their default order. -/
def State.autoEvents (s : State) : List (Instr × EvArg) :=
  s.timerEvents ++ s.cmdEvents ++ s.placed.flatMap s.hartEvents ++ s.engineEvents ++ s.poolEvents
  ++ [(.placeStep, .zero), (.preempt, .zero)] ++ s.stealEvents

/-- Would an event change anything? -/
def State.changes (s : State) (e : Instr × EvArg) : Bool :=
  let s : State := { s with ev := e.2 }
  match exec e.1 s with
  | .next t => t != s
  | _ => false

/-- The agents that may issue. -/
def State.agents (s : State) : List Agent :=
  ((s.placed.flatMap fun h => [Agent.aStream h, Agent.eStream h]) ++ (List.range 4).map Agent.plate).filter s.canIssue

/-- The turn of the default order, and the rotation after it. -/
def State.autoTurn (s : State) : Turn × Nat :=
  match s.autoEvents.find? s.changes with
  | some e => (.ev e.1 e.2, s.rr)
  | none =>
    match (s.agents[s.rr % max 1 s.agents.length]? : Option Agent) with
    | some ag => (.run ag, s.rr + 1)
    | none => (.idle 1, s.rr)

/-! Turns. -/

/-- The clk a turn takes (log 7): one, or those of an idle turn. -/
def Turn.clk : Turn → Nat
  | .idle n => n
  | _ => 1

/-- How many element groups the turn lets its instruction execute. -/
def Turn.groups : Turn → Option Nat
  | .part _ n => some n
  | _ => none

/-- A module without power takes only these turns (R18, R23): the host may write its own memory (log 41). -/
def Turn.unpowered : Turn → Bool
  | .ev .powerInputChange _ => true
  | .ev .powerGoodTimer _ => true
  | .env (.hostWrite _ _) => true
  | .idle _ => true
  | _ => false

/-- The turn of a module without power and with an empty agenda: it waits out the 10 ms of R18 where they run. -/
def State.dark (s : State) : Option Turn :=
  match s.mg.power with
  | .reset (some t) =>
    if t + tenMs ≤ s.cycle then some (.ev .powerGoodTimer .zero) else some (.idle (t + tenMs - s.cycle))
  | _ => none

/-- The next turn, and the state in which it is taken: the ages of R368 stand, the turn's clk have passed, and an event's argument
stands in ev. None when the module has no power and nothing brings it back. -/
def State.nextTurn (s : State) : Option (Turn × State) :=
  let s := s.ageSync
  let go : Turn → State → Turn × State := fun t s =>
    (t, { s with
      cycle := s.cycle + t.clk
      limit := t.groups
      ev := match t with
        | .ev _ a => a
        | _ => s.ev })
  match s.agenda with
  | t :: rest => if s.powered || t.unpowered then some (go t { s with agenda := rest }) else none
  | [] =>
    if s.powered then
      let x := s.autoTurn
      some (go x.1 { s with rr := x.2 })
    else s.dark.map fun t => go t s

/-! A first instruction. -/

/-- The agent that may execute a word (R217), and whether it must belong to a TRUSS step. -/
def agentFor (w : Word32) : Agent × Bool :=
  match decode w with
  | .instr i | .badField i =>
    match i.streamClass with
    | .eOnly => (.eStream 0, false)
    | .plateOnly => (.plate 0, false)
    | .trussA => (.aStream 0, true)
    | .trussE => (.eStream 0, true)
    | _ => (.aStream 0, false)
  | _ => (.aStream 0, false)

/-- Where a first instruction stands, and the three tables that map the first 2 MiB onto themselves for a context
(R129, R180): executable, readable and writable, with ACCESSED and DIRTY set. -/
def probePc : Nat := 0x1000
def probeTables : List (Nat × Nat) := [(0x1_0000, 0x1_1001), (0x1_1000, 0x1_2001), (0x1_2000, 0xC1F)]

/-- A hart in a step of its own at the values of R44, in context ASID 1, placed when memory was as given. -/
def probeHart (truss : Bool) (code : List Host.Cell) : Hart :=
  { Hart.free with
    occ := true
    ctx := { Ctx.none with rcb := 0x2000, ctxRcb := 0x2000, asid := 1, ptbase := 0x1_0000, vttbase := 0x4_0000, tdtbase := 0x8_0000 }
    id := { Hart.free.id with rsize := 112, truss := truss, code := code }
    a := { Hart.free.a with pc := w64 probePc }
    e := { Hart.free.e with pc := w64 probePc } }

/-- The state with a word as the next instruction of the agent that may execute it. The first step on a module takes a
firmware that has accepted the features (R414), a context with page tables, and a step that the scheduler has placed;
a plate core takes none of these. -/
def State.fetchAt (s : State) (w : Word32) : State :=
  let x := agentFor w
  let s : State := { s with agenda := [.run x.1], mg := { s.mg with power := .on, debugHalt := [] } }
  let s := s.pokeNat probePc 4 w.toNat
  match x.1 with
  | .plate p => s.modPlate p fun c => { c with run := .running, pc := w64 probePc }
  | _ =>
    let s := probeTables.foldl (fun (s : State) (p : Nat × Nat) => s.pokeNat p.1 8 p.2) s
    let s : State := { s with preg := { s.preg with featack := some (s.preg.featack.getD s.featcap) } }
    (if x.2 then List.range 8 else [0]).foldl (fun (s : State) (b : Nat) => s.setHart (8 * b) (probeHart x.2 s.mem)) s

end Sys2Proof.Machine
end

