-- ==== Sys2Proof/Machine/Step.lean ====
section
/-! DEFINITION. One step of the module: the agent or event whose turn it is (Turn.lean) takes it. -/

namespace Sys2Proof.Machine

/-- An agent's turn: the instruction it fetches, or the trap of the fetch (R209, R219). -/
def runAgent (ag : Agent) (s : State) : Host.Outcome State Fault Refusal :=
  match s.issue ag with
  | .error s => .next s
  | .ok (i, s) => exec i s

/-- One step: an idle turn, an event's meaning, something of Env, or the instruction that the agent fetches (R209, R349). -/
def step (s : State) : Host.Outcome State Fault Refusal :=
  match s.nextTurn with
  | none => .fault .unpowered
  | some (.idle _, s) => .next s
  | some (.ev i _, s) => if i.isEvent then exec i s else .next s
  | some (.env x, s) => .next (s.envTurn x)
  | some (.run ag, s) => runAgent ag s
  | some (.part h _, s) => runAgent (.eStream h) s

/-- The state with the instruction word w, of nbits bits, as the next one that step fetches. -/
def State.withFetchWord (s : State) (nbits w : Nat) : State := s.fetchAt (BitVec.ofNat 32 (w % 2 ^ nbits))

end Sys2Proof.Machine
end

