-- ==== Sys2Proof/Safety.lean ====
section
/-! DEFINITION. The terms that statements about the machine use: what a safe run keeps (the canonical form of memory and
the flash), views of an agent's registers and queues, and what "the instruction has completed with this result" says about
the state after it. -/

namespace Sys2Proof.Machine

/-! What every run keeps. -/

/-- Memory is in its canonical form (log 2). -/
def State.MemOk (s : State) : Prop := memWf s.mem = true

/-- The flash is as it was: the build record and its signature and the boot configuration block (R24, R409); the least image
version has not been lowered (R411). -/
def State.FlashKept (s t : State) : Prop :=
  t.record = s.record ∧ t.mg.bootCfg = s.mg.bootCfg ∧ s.mg.minsvn ≤ t.mg.minsvn

/-! Views. -/

/-- Register x n of a hart's A-stream or of a plate core (R96). -/
def State.regOf (s : State) (ag : Agent) (n : Nat) : W64 :=
  match ag with
  | .aStream h | .eStream h => tgetD (s.hart h).a.x n 0
  | .plate p => tgetD (s.plate p).x n 0

/-- INSTRET of an agent (R197). -/
def State.instretOf (s : State) (ag : Agent) : W64 :=
  match ag with
  | .aStream h | .eStream h => (s.hart h).a.instret
  | .plate p => (s.plate p).instret

/-- The entries of AE queue q and of EA queue q of hart h, oldest first (R146). -/
def State.aeOf (s : State) (h q : Nat) : List AEntry := tgetD (s.hart h).r.ae q []
def State.eaOf (s : State) (h q : Nat) : List W64 := tgetD (s.hart h).r.ea q []

/-- Byte k of memory. -/
def State.byteOf (s : State) (k : Nat) : Byte := memGet s.mem k

/-! Frames. -/

/-- The two states differ at most in the record of the hart, or of the plate core, that executes: memory, every other
agent, every table and every register of the device are as they were. -/
structure State.SameElsewhere (s t : State) : Prop where
  device : { t with harts := s.harts, plates := s.plates } = s
  harts : ∀ h, s.cur.hart? ≠ some h → t.hart h = s.hart h
  plates : ∀ p, s.cur ≠ .plate p → t.plate p = s.plate p

/-- In the executing agent's own record at most the x registers, the pc of its A-stream or core, what that stream waits
for, INSTRET and the entries of the queues differ: every other register, special register, accumulator, exception
register and transfer slot is as it was. -/
structure State.SameCore (s t : State) : Prop where
  hart : ∀ h, s.cur.hart? = some h → t.hart h = { s.hart h with
    a := { (s.hart h).a with x := (t.hart h).a.x, pc := (t.hart h).a.pc, wait := (t.hart h).a.wait,
                             instret := (t.hart h).a.instret }
    r := { (s.hart h).r with ae := (t.hart h).r.ae, ea := (t.hart h).r.ea } }
  plate : ∀ p, s.cur = .plate p → t.plate p =
    { s.plate p with x := (t.plate p).x, pc := (t.plate p).pc, instret := (t.plate p).instret }

/-! Completion. -/

/-- An A-stream or plate instruction has completed from s to t: it went to pc, its sources popped their queues, and v is
the result in field a: written to x8..x127, pushed by q0..q3 with zeros above bit 63, discarded by z (R147, R227).
Nothing else has changed. -/
structure DoneAt (s t : State) (srcs : List RCode) (a : RCode) (v pc : W64) : Prop where
  pc : t.pcOf s.cur = pc
  instret : t.instretOf s.cur = s.instretOf s.cur + 1
  reg : ∀ n, t.regOf s.cur n = if 8 ≤ n ∧ a.toNat = n then v else s.regOf s.cur n
  popped : ∀ h q, s.cur = .aStream h → q < 4 → t.eaOf h q = (s.eaOf h q).drop (portCount q srcs)
  pushed : ∀ h q, s.cur = .aStream h → q < 4 → t.aeOf h q =
    s.aeOf h q ++ if a.toNat = q + 4 then [AEntry.full (v.setWidth 1024)] else []
  core : s.SameCore t
  elsewhere : s.SameElsewhere t

/-- The same for an instruction that goes on to the next one (R209). -/
def Done (s t : State) (srcs : List RCode) (a : RCode) (v : W64) : Prop := DoneAt s t srcs a v (s.pcOf s.cur + 4)

/-- The instruction's source values, in pop order b, a, c (log 16). -/
def State.src (s : State) (srcs : List RCode) (k : Nat) : W64 := (s.aVals [] srcs).getD k 0

/-- An A-stream or plate instruction may complete: the checks of R219 pass and its queues are ready (R148). -/
def State.Ready (s : State) (i : Instr) (srcs dsts : List RCode) : Prop :=
  s.gateFail i = none ∧ s.aReady srcs dsts = true

/-! Streams and features, as R215 and R217 give them. -/

/-- What the word of an instruction traps with in a step's A-stream, in its E-stream and on a plate core, by its major and its kind
or minor; none where it executes there. truss: is the step a TRUSS step? -/
def streamRow (truss : Bool) (w : Word32) : Option Cause × Option Cause × Option Cause :=
  let m := majorOf w
  let fn := (slice w 0 5).toNat
  let t : Option Cause := if truss then none else some .stream
  if m = 0x0D ∨ m = 0x0E then (none, none, none)
  else if m = 0x11 then
    match (slice w 0 2).toNat with
    | 2 => (some .stream, none, some .stream)
    | 3 => (none, none, none)
    | _ => (none, none, some .stream)
  else if m = 0x12 then
    if fn = 3 ∨ fn = 4 then (some .priv, some .stream, none)
    else if fn = 5 then (none, none, some .illop)
    else if fn = 6 ∨ fn = 7 then (none, some .stream, some .illop)
    else (none, some .stream, none)
  else if m = 0x15 ∧ 5 ≤ fn then (t, some .stream, some .stream)
  else if 0x13 ≤ m ∧ m ≤ 0x17 then (none, some .stream, some .stream)
  else if m = 0x19 then (some .priv, some .stream, none)
  else if m = 0x30 ∧ fn = 4 then (some .stream, t, some .stream)
  else if 0x20 ≤ m then (some .stream, none, some .stream)
  else (none, some .stream, none)

/-- The FEAT bit that a format code belongs to (R69): E2M1 to FP4, D8 and D4 to DFORMATS. -/
def fmtRow (t : Nat) : Option Feature := if t = 11 then some .fp4 else if t = 12 ∨ t = 13 then some .dFormats else none

/-- The FEAT bit that the word of an instruction needs (R4, R215): that of its major or minor, POD where it names scope 7, or that of
the format it names. -/
def featureRow (w : Word32) : Option Feature :=
  let m := majorOf w
  let fn := (slice w 0 5).toNat
  let pod := fun (x : BitVec 3) => if x = 7 then some Feature.pod else none
  if m = 0x11 then pod (slice w 2 3)
  else if m = 0x12 then (if fn = 7 then some .search else none)
  else if m = 0x13 then (if fn = 6 then some .search else none)
  else if m = 0x14 then (if fn = 2 then some .compress else none)
  else if m = 0x16 then some .sill
  else if m = 0x17 then (if fn = 2 ∧ slice w 5 7 = 7 then some .pod else none)
  else if m = 0x18 then some .search
  else if m = 0x20 then fmtRow (slice w 0 4).toNat
  else if m = 0x25 then fmtRow (slice w 5 4).toNat
  else if m = 0x31 then some .xacc
  else none

/-! Results of the integer instructions, as R229..R233 give them. -/

/-- Bit k of the carry-less product (R230). -/
def clBit (b c : W64) (k : Nat) : Bool :=
  ((List.range 64).filter fun i => decide (i ≤ k) && b.getLsbD i && c.getLsbD (k - i)).length % 2 == 1

/-- The quotient and remainder of R70, rounded toward zero, with its corners. -/
def specDiv (x y : W64) : W64 := if y = 0 then BitVec.allOnes 64 else BitVec.ofInt 64 (x.toInt.tdiv y.toInt)
def specRem (x y : W64) : W64 := if y = 0 then x else BitVec.ofInt 64 (x.toInt.tmod y.toInt)
def specDivu (x y : W64) : W64 := if y = 0 then BitVec.allOnes 64 else BitVec.ofNat 64 (x.toNat / y.toNat)
def specRemu (x y : W64) : W64 := if y = 0 then x else BitVec.ofNat 64 (x.toNat % y.toNat)

/-- A word given bit by bit. -/
def ofBits (f : Nat → Bool) : W64 := BitVec.ofNat 64 (((List.range 64).filter f).foldl (fun a i => a + 2 ^ i) 0)

/-- The two-source instructions of major 0x01 (R229, R230): destination, sources and the result of their values. -/
def intRow2 (i : Instr) : Option (RCode × RCode × RCode × (W64 → W64 → W64)) :=
  match i with
  | .add a b c => some (a, b, c, fun x y => BitVec.ofNat 64 (x.toNat + y.toNat))
  | .sub a b c => some (a, b, c, fun x y => BitVec.ofInt 64 (x.toInt - y.toInt))
  | .and a b c => some (a, b, c, fun x y => x &&& y)
  | .or a b c => some (a, b, c, fun x y => x ||| y)
  | .xor a b c => some (a, b, c, fun x y => x ^^^ y)
  | .andn a b c => some (a, b, c, fun x y => x &&& ~~~y)
  | .orn a b c => some (a, b, c, fun x y => x ||| ~~~y)
  | .xnor a b c => some (a, b, c, fun x y => ~~~(x ^^^ y))
  | .sll a b c => some (a, b, c, fun x y => BitVec.ofNat 64 (x.toNat * 2 ^ (y.toNat % 64)))
  | .srl a b c => some (a, b, c, fun x y => BitVec.ofNat 64 (x.toNat / 2 ^ (y.toNat % 64)))
  | .sra a b c => some (a, b, c, fun x y => BitVec.ofInt 64 (x.toInt / ((2 ^ (y.toNat % 64) : Nat) : Int)))
  | .rol a b c => some (a, b, c, fun x y => x.rotateLeft (y.toNat % 64))
  | .ror a b c => some (a, b, c, fun x y => x.rotateRight (y.toNat % 64))
  | .slt a b c => some (a, b, c, fun x y => if x.toInt < y.toInt then 1 else 0)
  | .sltu a b c => some (a, b, c, fun x y => if x.toNat < y.toNat then 1 else 0)
  | .min a b c => some (a, b, c, fun x y => BitVec.ofInt 64 (min x.toInt y.toInt))
  | .max a b c => some (a, b, c, fun x y => BitVec.ofInt 64 (max x.toInt y.toInt))
  | .minu a b c => some (a, b, c, fun x y => BitVec.ofNat 64 (min x.toNat y.toNat))
  | .maxu a b c => some (a, b, c, fun x y => BitVec.ofNat 64 (max x.toNat y.toNat))
  | .mul a b c => some (a, b, c, fun x y => BitVec.ofNat 64 (x.toNat * y.toNat))
  | .mulh a b c => some (a, b, c, fun x y => BitVec.ofInt 64 (x.toInt * y.toInt / 2 ^ 64))
  | .mulhu a b c => some (a, b, c, fun x y => BitVec.ofNat 64 (x.toNat * y.toNat / 2 ^ 64))
  | .div a b c => some (a, b, c, specDiv)
  | .divu a b c => some (a, b, c, specDivu)
  | .rem a b c => some (a, b, c, specRem)
  | .remu a b c => some (a, b, c, specRemu)
  | .clmul a b c => some (a, b, c, fun x y => ofBits (clBit x y))
  | .clmulh a b c => some (a, b, c, fun x y => ofBits fun k => clBit x y (k + 64))
  | _ => none

/-- The instructions of one source: CLZ, CTZ, POPC and the immediate forms of majors 0x02..0x08 (R229, R231, R232). -/
def intRow1 (i : Instr) : Option (RCode × RCode × (W64 → W64)) :=
  match i with
  | .clz a b => some (a, b, fun x => BitVec.ofNat 64 (((List.range 64).find? fun k => x.getMsbD k).getD 64))
  | .ctz a b => some (a, b, fun x => BitVec.ofNat 64 (((List.range 64).find? fun k => x.getLsbD k).getD 64))
  | .popc a b => some (a, b, fun x => BitVec.ofNat 64 ((List.range 64).filter fun k => x.getLsbD k).length)
  | .addi a b n => some (a, b, fun x => BitVec.ofInt 64 (x.toInt + n.toInt))
  | .andi a b n => some (a, b, fun x => x &&& BitVec.ofInt 64 n.toInt)
  | .ori a b n => some (a, b, fun x => x ||| BitVec.ofInt 64 n.toInt)
  | .xori a b n => some (a, b, fun x => x ^^^ BitVec.ofInt 64 n.toInt)
  | .slti a b n => some (a, b, fun x => if x.toInt < n.toInt then 1 else 0)
  | .sltiu a b n => some (a, b, fun x => if x.toNat < (BitVec.ofInt 64 n.toInt).toNat then 1 else 0)
  | .slli a b n => some (a, b, fun x => BitVec.ofNat 64 (x.toNat * 2 ^ n.toNat))
  | .srli a b n => some (a, b, fun x => BitVec.ofNat 64 (x.toNat / 2 ^ n.toNat))
  | .srai a b n => some (a, b, fun x => BitVec.ofInt 64 (x.toInt / ((2 ^ n.toNat : Nat) : Int)))
  | .roli a b n => some (a, b, fun x => x.rotateLeft n.toNat)
  | .rori a b n => some (a, b, fun x => x.rotateRight n.toNat)
  | _ => none

/-! Completion in an E-stream. -/

/-- Bit i of a new image is the bit of element i / w where val names a value for that element, and is as before where it
does not; for the first n bits. -/
def ImageIs (w n new old : Nat) (val : Nat → Option Nat) : Prop :=
  ∀ i, i < n → new.testBit i = match val (i / w) with
    | some v => v.testBit (i % w)
    | none => old.testBit i

/-- The last value that a list of element writes gives an element. -/
def lastWrite (ws : List (Nat × Nat)) (k : Nat) : Option Nat := (ws.reverse.find? fun p => p.1 == k).map (·.2)

/-- The push into the last-result file (R98): l0 is the image v, and the old l0..l2 stand in l1..l3. -/
structure Pushed (e e' : ERegs) (v : Nat) : Prop where
  l0 : (tgetD e'.l 0 0).toNat = v
  l1 : tgetD e'.l 1 0 = tgetD e.l 0 0
  l2 : tgetD e'.l 2 0 = tgetD e.l 1 0
  l3 : tgetD e'.l 3 0 = tgetD e.l 2 0

/-- What a result does to one hart's E-stream registers e, r, which become e', r' (R98, R101, R149, R268): a mask takes it
bit by bit; a queue port takes one entry; a single register, or l0 alone, takes it and the last-result file is pushed;
a group of registers takes it, with no push. Nothing else among them changes. -/
structure DstDone (vlen : Nat) (d : EDst) (e e' : ERegs) (r r' : HRes) (val : Nat → Option Nat) : Prop where
  mask : ∀ m, d = .mask m → ImageIs 1 2048 (tgetD e'.mask m 0).toNat (tgetD e.mask m 0).toNat val
  masks : ∀ n, d ≠ .mask n → tgetD e'.mask n 0 = tgetD e.mask n 0
  port : ∀ c g w, d = .vec c g w → isPort c = true → ∃ v : W64,
    (∀ q, tgetD r'.ea q [] = tgetD r.ea q [] ++ if q = c.toNat - 4 then [v] else []) ∧ ImageIs w (min 64 vlen) v.toNat 0 val
  noPort : d.port? = none → r'.ea = r.ea
  single : ∀ c g w, d = .vec c g w → isPort c = false → g ≤ 1 → ∃ v, v < 2 ^ vlen ∧ Pushed e e' v ∧
    ImageIs w vlen v (if c.toNat < 8 then 0 else (e.reg c).toNat) val ∧ (8 ≤ c.toNat → (e'.reg c).toNat = v)
  noPush : (∀ c g w, d = .vec c g w → isPort c = true ∨ 1 < g) → e'.l = e.l
  group : ∀ c g w, d = .vec c g w → isPort c = false → 1 < g →
    ImageIs w (vlen * g) (e'.groupVal vlen c g) (e.groupVal vlen c g) val
  o : ∀ n, (∀ c g w, d = .vec c g w → 1 < g ∨ c.toNat ≠ n + 8) → n < 8 → tgetD e'.o n 0 = tgetD e.o n 0
  main : ∀ n, (∀ c g w, d = .vec c g w → n ∉ touches e c g) → tgetD e'.main n 0 = tgetD e.main n 0

/-- In the hart's record at most the E-stream's vector registers, masks, pc, wait, VSTART, FFLAGS and what a trap would
have kept, INSTRET and the queues differ. -/
def SameE (v v' : Hart) : Prop := v' = { v with
  a := { v.a with instret := v'.a.instret }
  e := { v.e with pc := v'.e.pc, wait := v'.e.wait, l := v'.e.l, o := v'.e.o, main := v'.e.main, mask := v'.e.mask,
                  vstart := v'.e.vstart, prog := v'.e.prog, vsw := v'.e.vsw, kept := v'.e.kept, latch := v'.e.latch, latchQ := v'.e.latchQ,
                  reserved := v'.e.reserved, staging := v'.e.staging, fflags := v'.e.fflags }
  r := { v.r with ae := v'.r.ae, ea := v'.r.ea } }

/-- An E-stream instruction of hart h with operands op has completed from s to t with the element values val and the
flags fl (R83, R149, R268): its sources popped their queues, its destination took the values, FFLAGS accrued, VSTART is
0, nothing is kept, and the next instruction follows. Nothing else has changed. -/
structure EDone (s t : State) (h : Nat) (op : EOp) (fl : BitVec 5) (val : Nat → Option Nat) : Prop where
  pc : (t.hart h).e.pc = (s.hart h).e.pc + 4
  wait : (t.hart h).e.wait = .none
  instret : (t.hart h).a.instret = (s.hart h).a.instret + 1
  vstart : (t.hart h).e.vstart = 0
  kept : (t.hart h).e.kept = false ∧ (t.hart h).e.latch = [] ∧ (t.hart h).e.latchQ = [] ∧ (t.hart h).e.reserved = none ∧
    (t.hart h).e.staging = none ∧ (t.hart h).e.prog = none ∧ (t.hart h).e.vsw = none
  fflags : (t.hart h).e.fflags = (s.hart h).e.fflags ||| fl
  popped : ∀ q, q < 4 → t.aeOf h q = (s.aeOf h q).drop (portCount q op.srcs)
  dst : DstDone (s.vlen h) op.dst (s.hart h).e (t.hart h).e (s.hart h).r (t.hart h).r val
  core : SameE (s.hart h) (t.hart h)
  elsewhere : s.SameElsewhere t

/-- An E-stream stands at the start of an instruction: it resumes none, no write of VSTART is on its way, and no main register
holds an uncorrectable error (R110, R149, R398). -/
structure ERegs.Fresh (e : ERegs) : Prop where
  kept : e.kept = false
  prog : e.prog = none
  vsw : e.vsw = none
  bad : e.bad = []

/-- The E-stream of hart h may complete an instruction: it executes it whole, the checks of R219 and R267 pass, no row in flight
and no row's trap concerns its registers (R87, R271), it resumes nothing, and its queues hold vals and have room (R149). -/
structure State.EReady (s : State) (h : Nat) (i : Instr) (op : EOp) (vals : List VReg) : Prop where
  cur : s.cur = .eStream h
  gate : s.gateFail i = none
  checks : s.eChecks h op = none
  noTrap : (s.hart h).m.rowTrap (op.touched (s.hart h).e) = none
  noRow : (s.hart h).m.rowBusy (op.touched (s.hart h).e) = false
  whole : s.limit = none
  fresh : (s.hart h).e.Fresh
  pops : popsOf (s.hart h).r.ae [] op.srcs [] = .ready vals
  room : ∀ q, op.dst.port? = some q → (s.eaOf h q).length < 8

/-- What the instruction sees of its operands. -/
def State.sees (s : State) (h : Nat) (op : EOp) (vals : List VReg) : EIn := s.eIn h op vals

/-- Does an element-wise instruction under predicate m compute element k (R268)? -/
def EIn.computes (x : EIn) (m : BitVec 2) (k : Nat) : Prop := x.e.vstart ≤ k ∧ k < x.e.vl ∧ x.active m k = true

/-- The flags that the computed elements raise together (R83, R268). -/
def EIn.flags (x : EIn) (m : BitVec 2) (f : Nat → BitVec 5) : BitVec 5 :=
  ((List.range x.e.vl).filter fun k => decide (x.e.vstart ≤ k) && x.active m k).foldl (fun a k => a ||| f k) 0

/-- No computed element raises a flag that traps (R84, R86). -/
def EIn.quiet (x : EIn) (m : BitVec 2) (f : Nat → BitVec 5) : Prop := ∀ k, x.computes m k → f k &&& x.e.fpen = 0

/-! Vector instructions: operands and results. -/

/-- Element k of the j-th vector source, in the width and group of VTYPE (R265). -/
def EIn.el (x : EIn) (j k : Nat) : Nat := elemOf x.e.w (x.vec j x.e.g) k

/-- Operands of an element-wise instruction of hart h: sources and destination are groups of VTYPE's format. -/
def State.opV (s : State) (h : Nat) (cls : Nat → Bool) (srcs : List RCode) (a : RCode) : EOp :=
  let e := (s.hart h).e
  { cls := some cls, derived := [], srcs := srcs, vecs := srcs.map fun c => (c, e.g), dst := .vec a e.g e.w }

/-- Operands of a compare: its destination is a mask. -/
def State.opM (s : State) (h : Nat) (cls : Nat → Bool) (srcs : List RCode) (a : BitVec 3) : EOp :=
  { s.opV h cls srcs 0 with dst := .mask a.toNat }

/-- Operands of an instruction that also reads its destination, a group of ga registers with elements of wa bits. -/
def State.opT (s : State) (h : Nat) (cls : Nat → Bool) (srcs : List RCode) (a : RCode) (ga wa : Nat) : EOp :=
  { s.opV h cls srcs a with derived := [ga], vecs := (srcs.map fun c => (c, (s.hart h).e.g)) ++ [(a, ga)], dst := .vec a ga wa }

/-- The two values of an integer format that clamping keeps to (R70). -/
def clampInt (fmt w : Nat) (x : Int) : Int :=
  if fmt % 2 = 0 then max (-(2 ^ (w - 1))) (min x (2 ^ (w - 1) - 1)) else max 0 (min x (2 ^ w - 1))

/-- An element as the format's integer: signed for INT, unsigned for UINT (R69). -/
def asInt (fmt w v : Nat) : Int := if fmt % 2 = 0 then sext w v else (v : Int)

/-- The bits of a w-bit word given bit by bit. -/
def natFromBits (w : Nat) (f : Nat → Bool) : Nat := ((List.range w).filter f).foldl (fun a i => a + 2 ^ i) 0

/-- Bit k of the carry-less product of two w-bit words (R230). -/
def clBitN (w b c k : Nat) : Bool :=
  ((List.range w).filter fun i => decide (i ≤ k) && decide (k - i < w) && b.testBit i && c.testBit (k - i)).length % 2 == 1

/-- The two-source integer instructions (R275, R285): destination, sources, predicate, and the result from format,
width and elements. -/
def vecRow2 (i : Instr) : Option (RCode × RCode × RCode × BitVec 2 × (Nat → Nat → Nat → Nat → Nat)) :=
  match i with
  | .vadd a b c m => some (a, b, c, m, fun _ w x y => wrap w ((x : Int) + (y : Int)))
  | .vsub a b c m => some (a, b, c, m, fun _ w x y => wrap w ((x : Int) - (y : Int)))
  | .vmul a b c m => some (a, b, c, m, fun _ w x y => wrap w ((x : Int) * (y : Int)))
  | .vmulh a b c m => some (a, b, c, m, fun fmt w x y => wrap w (asInt fmt w x * asInt fmt w y / 2 ^ w))
  | .vand a b c m => some (a, b, c, m, fun _ _ x y => x &&& y)
  | .vor a b c m => some (a, b, c, m, fun _ _ x y => x ||| y)
  | .vxor a b c m => some (a, b, c, m, fun _ _ x y => x ^^^ y)
  | .vsll a b c m => some (a, b, c, m, fun _ w x y => x * 2 ^ (y % w) % 2 ^ w)
  | .vsrl a b c m => some (a, b, c, m, fun _ w x y => x / 2 ^ (y % w))
  | .vsra a b c m => some (a, b, c, m, fun _ w x y => wrap w (sext w x / 2 ^ (y % w)))
  | .vmin a b c m => some (a, b, c, m, fun _ w x y => wrap w (min (sext w x) (sext w y)))
  | .vmax a b c m => some (a, b, c, m, fun _ w x y => wrap w (max (sext w x) (sext w y)))
  | .vminu a b c m => some (a, b, c, m, fun _ _ x y => min x y)
  | .vmaxu a b c m => some (a, b, c, m, fun _ _ x y => max x y)
  | .vsadd a b c m => some (a, b, c, m, fun fmt w x y => wrap w (clampInt fmt w (asInt fmt w x + asInt fmt w y)))
  | .vssub a b c m => some (a, b, c, m, fun fmt w x y => wrap w (clampInt fmt w (asInt fmt w x - asInt fmt w y)))
  | .vclmul a b c m => some (a, b, c, m, fun _ w x y => natFromBits w (clBitN w x y))
  | .vclmulh a b c m => some (a, b, c, m, fun _ w x y => natFromBits w fun k => clBitN w x y (k + w))
  | _ => none

/-- The immediate of the VI form in w bits (R212). -/
def immW (w : Nat) (i : BitVec 7) : Nat := wrap w i.toInt

/-- The integer instructions of one vector source (R275, R285), with whether they accept every format of class A. -/
def vecRow1 (i : Instr) : Option (RCode × RCode × BitVec 2 × Bool × (Nat → Nat → Nat)) :=
  match i with
  | .vaddi a b n m => some (a, b, m, false, fun w x => wrap w ((x : Int) + n.toInt))
  | .vandi a b n m => some (a, b, m, false, fun w x => x &&& immW w n)
  | .vori a b n m => some (a, b, m, false, fun w x => x ||| immW w n)
  | .vxori a b n m => some (a, b, m, false, fun w x => x ^^^ immW w n)
  | .vslli a b n m => some (a, b, m, false, fun w x => x * 2 ^ (n.toNat % w) % 2 ^ w)
  | .vsrli a b n m => some (a, b, m, false, fun w x => x / 2 ^ (n.toNat % w))
  | .vsrai a b n m => some (a, b, m, false, fun w x => wrap w (sext w x / 2 ^ (n.toNat % w)))
  | .vmv a b m => some (a, b, m, true, fun _ x => x)
  | .vnot a b m => some (a, b, m, true, fun w x => natFromBits w fun k => !(x.testBit k))
  | .vpopc a b m => some (a, b, m, false, fun w x => ((List.range w).filter fun k => x.testBit k).length)
  | .vclz a b m => some (a, b, m, false, fun w x =>
      ((List.range w).find? fun k => x.testBit (w - 1 - k)).getD w)
  | .vctz a b m => some (a, b, m, false, fun w x => ((List.range w).find? fun k => x.testBit k).getD w)
  | _ => none

/-- The element-wise instructions of no vector source (R275, R283). -/
def vecRow0 (i : Instr) : Option (RCode × BitVec 2 × (Nat → Nat → Nat)) :=
  match i with
  | .vmvi a n m => some (a, m, fun w _ => immW w n)
  | .vid a m => some (a, m, fun w k => k % 2 ^ w)
  | _ => none

/-- The values of the elements that an element-wise instruction computes (R268). -/
def EIn.map (x : EIn) (m : BitVec 2) (f : Nat → Nat) (k : Nat) : Option Nat :=
  if x.e.vstart ≤ k ∧ k < x.e.vl ∧ x.active m k = true then some (f k) else none

/-- The two-source floating instructions (R276): destination, sources, predicate, and the result with its flags from the
format, FRM and the elements. -/
def floatRow2 (i : Instr) : Option (RCode × RCode × RCode × BitVec 2 × (FSpec → Nat → Nat → Nat → Nat × BitVec 5)) :=
  match i with
  | .vfadd a b c m => some (a, b, c, m, fun f r x y => fpAdd f r (f.decode x) (f.decode y))
  | .vfsub a b c m => some (a, b, c, m, fun f r x y => fpAdd f r (f.decode x) (f.decode y).neg)
  | .vfmul a b c m => some (a, b, c, m, fun f r x y => fpMul f r (f.decode x) (f.decode y))
  | .vfdiv a b c m => some (a, b, c, m, fun f r x y => fpDiv f r (f.decode x) (f.decode y))
  | .vfmin a b c m => some (a, b, c, m, fun f _ x y => fpMinMax f false x y)
  | .vfmax a b c m => some (a, b, c, m, fun f _ x y => fpMinMax f true x y)
  | .vfsgn a b c m => some (a, b, c, m, fun f _ x y => fpSgn f x y)
  | _ => none

/-- The fused multiply-adds of VTYPE's format (R277): with the signs of the product and of the accumulator. -/
def fmaRow (i : Instr) : Option (RCode × RCode × RCode × BitVec 2 × Bool × Bool) :=
  match i with
  | .vfma a b c m => some (a, b, c, m, false, false)
  | .vfms a b c m => some (a, b, c, m, false, true)
  | .vfnma a b c m => some (a, b, c, m, true, true)
  | .vfnms a b c m => some (a, b, c, m, true, false)
  | _ => none

/-- A value with its sign turned where n says so. -/
def FVal.negIf (n : Bool) (v : FVal) : FVal := if n then v.neg else v

/-- The conversions (R278): with their rounding mode. -/
def cvtRow (i : Instr) : Option (RCode × RCode × BitVec 4 × BitVec 2 × Nat) :=
  match i with
  | .vcvtRne a b t m => some (a, b, t, m, 0)
  | .vcvtRtz a b t m => some (a, b, t, m, 1)
  | .vcvtRdn a b t m => some (a, b, t, m, 2)
  | .vcvtRup a b t m => some (a, b, t, m, 3)
  | .vcvtRneSat a b t m => some (a, b, t, m, 4)
  | .vcvtRtzSat a b t m => some (a, b, t, m, 5)
  | _ => none

/-- The integer compares (R279). -/
def cmpRow (i : Instr) : Option (BitVec 3 × RCode × RCode × BitVec 2 × (Nat → Nat → Nat → Prop)) :=
  match i with
  | .vceq a b c m => some (a, b, c, m, fun _ x y => x = y)
  | .vcne a b c m => some (a, b, c, m, fun _ x y => x ≠ y)
  | .vclt a b c m => some (a, b, c, m, fun w x y => sext w x < sext w y)
  | .vcle a b c m => some (a, b, c, m, fun w x y => sext w x ≤ sext w y)
  | .vcltu a b c m => some (a, b, c, m, fun _ x y => x < y)
  | _ => none

/-- The floating compares (R279): whether a quiet NaN raises NV too, and the relation. -/
def fcmpRow (i : Instr) : Option (BitVec 3 × RCode × RCode × BitVec 2 × Bool × (FVal → FVal → Bool)) :=
  match i with
  | .vfceq a b c m => some (a, b, c, m, false, fun p q => !fpLt false p q && !fpLt false q p)
  | .vfclt a b c m => some (a, b, c, m, true, fun p q => fpLt false p q)
  | .vfcle a b c m => some (a, b, c, m, true, fun p q => !fpLt false q p)
  | _ => none

/-- The flags of a floating compare of p and q: NV for a signalling NaN, or for any. -/
def fcmpFlags (any : Bool) (p q : FVal) : BitVec 5 :=
  if p.isSig = true ∨ q.isSig = true ∨ any = true ∧ (p.isNan = true ∨ q.isNan = true) then 16 else 0

/-- Operands of an instruction that works on masks alone. -/
def opMask (a : BitVec 3) : EOp := { cls := some clsA, derived := [], srcs := [], vecs := [], dst := .mask a.toNat }

/-- Operands of a scalar result from format class cls, sources and their groups (R266). -/
def State.opS (s : State) (h : Nat) (cls : Option (Nat → Bool)) (srcs : List RCode) (vecs : List (RCode × Nat)) (a : RCode) : EOp :=
  { cls := cls, derived := [], srcs := srcs, vecs := vecs, dst := .vec a 1 (s.vlen h) }

/-- Operands of a reduction: element 0 of one register (R284). -/
def State.opR (s : State) (h : Nat) (cls : Nat → Bool) (b a : RCode) : EOp :=
  { s.opV h cls [b] a with dst := .vec a 1 (s.hart h).e.w }

/-- One value, for element 0. -/
def only (v k : Nat) : Option Nat := if k = 0 then some v else none

/-- Bit k of mask n as the instruction sees it. -/
def EIn.mbit (x : EIn) (n k : Nat) : Bool := (tgetD x.e.mask n 0).getLsbD k

/-- The elements below VL that predicate m makes active, lowest first. -/
def EIn.act (x : EIn) (m : BitVec 2) : List Nat := (List.range x.e.vl).filter fun k => x.active m k

/-- VLMAX of the E-stream's format and group (R102). -/
def EIn.vlmax (x : EIn) : Nat := x.vlen / x.e.w * x.e.g

/-- The mask operations (R280). -/
def maskRow (i : Instr) : Option (BitVec 3 × BitVec 3 × BitVec 3 × (Bool → Bool → Bool)) :=
  match i with
  | .mand a b c => some (a, b, c, fun p q => p && q)
  | .mor a b c => some (a, b, c, fun p q => p || q)
  | .mxor a b c => some (a, b, c, fun p q => p ^^ q)
  | .mandn a b c => some (a, b, c, fun p q => p && !q)
  | _ => none

/-- The permutations that commit as a whole (R283): destination, source group, further sources with their group sizes (0
for VTYPE's), predicate, and for an element below VL the value it takes, if it takes one. -/
def permRow (i : Instr) : Option (RCode × RCode × List (RCode × Nat) × BitVec 2 × (EIn → Nat → Option Nat)) :=
  match i with
  | .vslideup a b c m => some (a, b, [(c, 1)], m, fun x k => if x.sc 1 ≤ k then some (x.el 0 (k - x.sc 1)) else none)
  | .vslidedn a b c m => some (a, b, [(c, 1)], m, fun x k => some (if k + x.sc 1 < x.vlmax then x.el 0 (k + x.sc 1) else 0))
  | .vrgather a b c m => some (a, b, [(c, 0)], m, fun x k => some (if x.el 1 k < x.vlmax then x.el 0 (x.el 1 k) else 0))
  | .vcompress a b c => some (a, b, [], 0, fun x k =>
      (((List.range x.e.vl).filter fun j => x.mbit c.toNat j)[k]?).map fun j => x.el 0 j)
  | .vexpand a b c => some (a, b, [], 0, fun x k =>
      if x.mbit c.toNat k then some (x.el 0 ((List.range k).filter fun j => x.mbit c.toNat j).length) else none)
  | _ => none

/-- The largest and the smallest value of an integer format. -/
def intMax (fmt w : Nat) : Int := if fmt % 2 = 0 then 2 ^ (w - 1) - 1 else 2 ^ w - 1
def intMin (fmt w : Nat) : Int := if fmt % 2 = 0 then -(2 ^ (w - 1)) else 0

/-- The integer reductions (R284): from format, width and the active elements in order. -/
def redRow (i : Instr) : Option (RCode × RCode × BitVec 2 × (Nat → Nat → List Nat → Nat)) :=
  match i with
  | .vredsum a b m => some (a, b, m, fun _ w l => l.sum % 2 ^ w)
  | .vredmin a b m => some (a, b, m, fun fmt w l => wrap w ((l.map (asInt fmt w)).foldl min (intMax fmt w)))
  | .vredmax a b m => some (a, b, m, fun fmt w l => wrap w ((l.map (asInt fmt w)).foldl max (intMin fmt w)))
  | _ => none

/-- The floating reductions (R92, R284): from the format, FRM and the elements below VL, none where inactive. -/
def fredRow (i : Instr) : Option (RCode × RCode × BitVec 2 × (FSpec → Nat → List (Option Nat) → Nat × BitVec 5)) :=
  match i with
  | .vfredosum a b m => some (a, b, m, fun f r l =>
      l.foldl (fun acc x =>
        let p := fpAdd f r (f.decode acc.1) (f.decode (x.getD f.negZero))
        (p.1, acc.2 ||| p.2)) (f.negZero, 0))
  | .vfredtsum a b m => some (a, b, m, fun f r l =>
      let n := log2Up l.length
      let v := l.map (·.getD f.negZero) ++ List.replicate (2 ^ n - l.length) f.negZero
      if n = 0 then
        if (f.decode (v.headD f.negZero)).isNan then (f.cnan, if (f.decode (v.headD f.negZero)).isSig then 16 else 0)
        else (v.headD f.negZero, 0)
      else treeSum f r n v 0)
  | .vfredmin a b m => some (a, b, m, fun f _ l => fpRed f false (l.filterMap id))
  | .vfredmax a b m => some (a, b, m, fun f _ l => fpRed f true (l.filterMap id))
  | _ => none

/-! What rounding is (R73, R79..R82), said over the real numbers. -/

/-- The finite value v is the number x. -/
def FVal.Is (v : FVal) (x : ℝ) : Prop := ∃ n m e, v = .fin n m e ∧ x = (if n then -1 else 1) * (m : ℝ) * (2 : ℝ) ^ e

/-- The magnitude y, of a negative number where neg says so, rounded to an integer k: mode 0 to the nearest, ties to even; mode 1
toward zero; mode 2 down and mode 3 up (R79). -/
def RoundsInt (mode : Nat) (neg : Bool) (y : ℝ) (k : Nat) : Prop :=
  if mode = 0 then |y - k| ≤ 1 / 2 ∧ (|y - k| = 1 / 2 → k % 2 = 0)
  else if mode = 2 ∧ neg = true ∨ mode = 3 ∧ neg = false then y ≤ k ∧ (k : ℝ) < y + 1
  else (k : ℝ) ≤ y ∧ y < k + 1

/-- 2^q is the step of numbers with f's significand at magnitude x, with the exponent unbounded (R80). -/
def FSpec.FreeStep (f : FSpec) (x : ℝ) (q : ℤ) : Prop := (2 : ℝ) ^ (q + f.fb) ≤ x ∧ x < (2 : ℝ) ^ (q + f.fb + 1)

/-- 2^q is the step of f's numbers at magnitude x: that of the subnormals below the smallest normal number (R71, R74). -/
def FSpec.Step (f : FSpec) (x : ℝ) (q : ℤ) : Prop :=
  q = f.qmin ∧ x < (2 : ℝ) ^ (f.qmin + f.fb + 1) ∨ f.qmin < q ∧ f.FreeStep x q

/-- A magnitude x is tiny in f: rounded with the exponent unbounded it is below the smallest normal number (R81). -/
def FSpec.Tiny (f : FSpec) (mode : Nat) (neg : Bool) (x : ℝ) : Prop :=
  ∃ (q : ℤ) (k : Nat), f.FreeStep x q ∧ RoundsInt mode neg (x / (2 : ℝ) ^ q) k ∧ (k : ℝ) * (2 : ℝ) ^ q < (2 : ℝ) ^ (1 - f.bias)

/-- The bits of an overflow (R80): the largest finite value in a saturating mode and always in E2M1; the NaN of E4M3; else what
the direction of the mode gives. -/
def FSpec.overflow (f : FSpec) (mode : Nat) (sat neg : Bool) : Nat :=
  let sign := if neg then 2 ^ (f.eb + f.fb) else 0
  if sat = true ∨ f = spE2M1 then sign + f.maxBits
  else if f = spE4M3 then 0x7F
  else if mode = 0 ∨ mode = 2 ∧ neg = true ∨ mode = 3 ∧ neg = false then sign + f.infBits
  else sign + f.maxBits

/-- r is the magnitude x, above 0, of a number with sign neg rounded once into f, with its flags (R73, R79, R80, R81). -/
def FSpec.Rounded (f : FSpec) (mode : Nat) (sat neg : Bool) (x : ℝ) (r : Nat × BitVec 5) : Prop :=
  ∃ (q : ℤ) (k : Nat) (big : ℝ), f.Step x q ∧ RoundsInt mode neg (x / (2 : ℝ) ^ q) k ∧ (f.decode f.maxBits).Is big ∧
    let y := (k : ℝ) * (2 : ℝ) ^ q
    (big < y → r = (f.overflow mode sat neg, flOF ||| flNX)) ∧
    (y ≤ big → (∃ m e, f.decode r.1 = .fin neg m e ∧ (m : ℝ) * (2 : ℝ) ^ e = y) ∧ (y = x → r.2 = 0) ∧
      (y ≠ x → f.Tiny mode neg x → r.2 = flUF ||| flNX) ∧ (y ≠ x → ¬ f.Tiny mode neg x → r.2 = flNX))

/-- r is the exact result x rounded once into f; an exact zero has the sign zneg (R73). -/
def FSpec.Result (f : FSpec) (mode : Nat) (x : ℝ) (zneg : Bool) (r : Nat × BitVec 5) : Prop :=
  (0 < x → f.Rounded mode false false x r) ∧ (x < 0 → f.Rounded mode false true (-x) r) ∧
  (x = 0 → r = (if zneg then 2 ^ (f.eb + f.fb) else 0, 0))

/-- The magnitude of code c of D8 (n = 7) or D4 (n = 3) is x (R76). -/
def DIs (n c : Nat) (x : ℝ) : Prop := x = ((dMag n c).1 : ℝ) * (2 : ℝ) ^ (dMag n c).2

/-- r is a magnitude x, above 0, of a number with sign neg converted to D8 or D4 (R79, R80, R81): the codes' own values are what it
is rounded to. -/
def DRounded (n mode : Nat) (neg : Bool) (x : ℝ) (r : Nat × BitVec 5) : Prop :=
  let code := fun (c : Nat) => if c = 0 then 0 else c + if neg then 2 ^ n else 0
  ∃ top low : ℝ, DIs n (2 ^ n - 1) top ∧ DIs n 1 low ∧
    (top < x → r = (if 4 ≤ mode then code (2 ^ n - 1) else 2 ^ n, flOF ||| flNX)) ∧
    (x ≤ top → ∃ (c : Nat) (y : ℝ), c < 2 ^ n ∧ DIs n c y ∧ r.1 = code c ∧
      r.2 = (if y = x then 0 else if x < low then flUF ||| flNX else flNX) ∧
      ∀ (d : Nat) (z : ℝ), d < 2 ^ n → DIs n d z →
        (mode % 4 = 0 → |y - x| ≤ |z - x| ∧ (|y - x| = |z - x| → z ≠ y → c % 2 = 0)) ∧
        (mode % 4 = 1 ∨ mode = 2 ∧ neg = false ∨ mode = 3 ∧ neg = true → y ≤ x ∧ (z ≤ x → z ≤ y)) ∧
        (mode = 2 ∧ neg = true ∨ mode = 3 ∧ neg = false → x ≤ y ∧ (x ≤ z → y ≤ z)))

/-- r is a magnitude x of a number with sign neg converted to an integer format of w bits, signed or not (R82). -/
def IRounded (w : Nat) (signed : Bool) (mode : Nat) (neg : Bool) (x : ℝ) (r : Nat × BitVec 5) : Prop :=
  ∃ k : Nat, RoundsInt (mode % 4) neg x k ∧
    let v : Int := if neg then -(k : Int) else k
    let lo : Int := if signed then -(2 ^ (w - 1)) else 0
    let hi : Int := if signed then 2 ^ (w - 1) - 1 else 2 ^ w - 1
    (v < lo → r = (wrap w lo, flNV)) ∧ (hi < v → r = (wrap w hi, flNV)) ∧
    (lo ≤ v → v ≤ hi → r = (wrap w v, if (k : ℝ) = x then 0 else flNX))

/-! Sums of blocks (R89, R90). -/

/-- The two values of a product are 0 and an infinity. -/
def FVal.zeroInf (a b : FVal) : Prop := (∃ n e i, a = .fin n 0 e ∧ b = .inf i) ∨ ∃ n e i, a = .inf i ∧ b = .fin n 0 e

/-- The product of two values is the infinity of sign n. -/
def FVal.mulInf (a b : FVal) (n : Bool) : Prop :=
  (∃ i j, a = .inf i ∧ b = .inf j ∧ n = (i != j)) ∨ (∃ i j m e, a = .inf i ∧ b = .fin j m e ∧ m ≠ 0 ∧ n = (i != j)) ∨
  ∃ i j m e, a = .fin i m e ∧ b = .inf j ∧ m ≠ 0 ∧ n = (i != j)

/-- r is the FP32 accumulator acc with its flags, after one block of 32 products a t times b t has been added (R89, and R90 without
scales): the products are summed exactly, scaled by the codes sa and sb where the formats are scaled, and added with one rounding to
nearest even. -/
def BlockIs (scaled : Bool) (a b : Nat → FVal) (sa sb acc : Nat) (r : Nat × BitVec 5) : Prop :=
  let inf := fun n => ∃ t, t < 32 ∧ (a t).mulInf (b t) n
  let bad := (∃ t, t < 32 ∧ ((a t).isNan = true ∨ (b t).isNan = true ∨ (a t).zeroInf (b t))) ∨
    scaled = true ∧ (sa = 255 ∨ sb = 255) ∨ inf false ∧ inf true
  let c := spFP32.decode acc
  let nan := fun (f : BitVec 5) => (0x7FC0_0000, f)
  (bad → r = nan flNV) ∧
  (¬ bad → c.isNan = true → r = nan (if c.isSig then flNV else 0)) ∧
  (¬ bad → c.isNan = false → ∀ n, inf n → r = if c = .inf !n then nan flNV else ((if n then 2 ^ 31 else 0) + 0x7F80_0000, 0)) ∧
  (¬ bad → (∀ n, ¬ inf n) → ∀ n, c = .inf n → r = ((if n then 2 ^ 31 else 0) + 0x7F80_0000, 0)) ∧
  (¬ bad → (∀ n, ¬ inf n) → ∀ (x y : Nat → ℝ) (z : ℝ), (∀ t, t < 32 → (a t).Is (x t) ∧ (b t).Is (y t)) → c.Is z →
    let sum := ((List.range 32).map fun t => x t * y t).sum
    spFP32.Result 0 (z + sum * if scaled then (2 : ℝ) ^ ((sa : ℤ) - 127) * (2 : ℝ) ^ ((sb : ℤ) - 127) else 1) false r)

/-- r is acc with the flags of all of n blocks, taken in increasing order: block q of the values a and b, with the q-th scale codes. -/
def BlocksAre (scaled : Bool) (a b : Nat → FVal) (sa sb : Nat → Nat) (n acc : Nat) (r : Nat × BitVec 5) : Prop :=
  ∃ c : Nat → Nat × BitVec 5, c 0 = (acc, 0) ∧ r.1 = (c n).1 ∧
    (∀ q, q < n → BlockIs scaled (fun t => a (32 * q + t)) (fun t => b (32 * q + t)) (sa q) (sb q) (c q).1 (c (q + 1))) ∧
    ∀ f, f < 5 → (r.2.getLsbD f = true ↔ ∃ q, q < n ∧ (c (q + 1)).2.getLsbD f = true)

/-- r is the sum of two FP32 words with one rounding to nearest even, and its flags (R84..R86). -/
def SumIs (a b : Nat) (r : Nat × BitVec 5) : Prop :=
  let x := spFP32.decode a
  let y := spFP32.decode b
  let nan := fun (f : BitVec 5) => (0x7FC0_0000, f)
  let inf := fun (n : Bool) => ((if n then 2 ^ 31 else 0) + 0x7F80_0000, (0 : BitVec 5))
  (x.isNan = true ∨ y.isNan = true → r = nan (if x.isSig || y.isSig then flNV else 0)) ∧
  (∀ n, x = .inf n → y = .inf (!n) → r = nan flNV) ∧
  (∀ n, x = .inf n → y.isNan = false → y ≠ .inf (!n) → r = inf n) ∧
  (∀ n, y = .inf n → x.isNan = false → x ≠ .inf (!n) → r = inf n) ∧
  ∀ (p q : ℝ) n1 m1 e1 n2 m2 e2, x = .fin n1 m1 e1 → y = .fin n2 m2 e2 → x.Is p → y.Is q →
    spFP32.Result 0 (p + q) (n1 && n2) r

/-- The value 0, which pads a last block (R89). -/
def FVal.zero : FVal := .fin false 0 0

/-- Wynn's table over a history (R94): row k + 1 holds column k, row 0 the column before the first. -/
def EpsTable (hist : List W64) (e : Nat → Nat → W64) : Prop :=
  (∀ n, e 0 n = 0) ∧ (∀ n, n < hist.length → e 1 n = hist.getD n 0) ∧
  ∀ k n, k + n + 1 < hist.length →
    e (k + 2) n = f64Add (e k (n + 1)) (f64Div 0x3FF0_0000_0000_0000 (f64Sub (e (k + 1) (n + 1)) (e (k + 1) n)))

/-! Memory access, branches and control registers of the A-stream and the plate cores. -/

/-- The loads (R234): destination, base, displacement in operand sizes, size in bytes, and whether they extend the sign. -/
def loadRow (i : Instr) : Option (RCode × RCode × BitVec 9 × Nat × Bool) :=
  match i with
  | .ldB a b o => some (a, b, o, 1, true)
  | .ldBu a b o => some (a, b, o, 1, false)
  | .ldH a b o => some (a, b, o, 2, true)
  | .ldHu a b o => some (a, b, o, 2, false)
  | .ldW a b o => some (a, b, o, 4, true)
  | .ldWu a b o => some (a, b, o, 4, false)
  | .ldD a b o => some (a, b, o, 8, false)
  | _ => none

/-- The stores (R234): data, base, displacement in operand sizes, size in bytes. -/
def storeRow (i : Instr) : Option (RCode × RCode × BitVec 9 × Nat) :=
  match i with
  | .stB a b o => some (a, b, o, 1)
  | .stH a b o => some (a, b, o, 2)
  | .stW a b o => some (a, b, o, 4)
  | .stD a b o => some (a, b, o, 8)
  | _ => none

/-- The address of a load or store: the base plus the signed displacement in operand sizes, modulo 2^64 (R234). -/
def State.lsVa (s : State) (srcs : List RCode) (o : BitVec 9) (size : Nat) : Nat :=
  (s.src srcs 0 + BitVec.ofInt 64 (o.toInt * size)).toNat

/-- A value of size bytes extended to 64 bits (R234). -/
def extend (size : Nat) (signed : Bool) (v : Nat) : W64 :=
  if signed then BitVec.ofInt 64 (if v < 2 ^ (8 * size - 1) then (v : Int) else v - 2 ^ (8 * size)) else BitVec.ofNat 64 v

/-- The atomics (R237): destination, address, operand, and what they write given the old value, the operand and the
value that field a held before; none writes nothing. -/
def amoRow (i : Instr) : Option (RCode × RCode × RCode × (W64 → W64 → W64 → Option W64)) :=
  match i with
  | .amoSwap a b c _ => some (a, b, c, fun _ y _ => some y)
  | .amoAdd a b c _ => some (a, b, c, fun x y _ => some (BitVec.ofNat 64 (x.toNat + y.toNat)))
  | .amoAnd a b c _ => some (a, b, c, fun x y _ => some (x &&& y))
  | .amoOr a b c _ => some (a, b, c, fun x y _ => some (x ||| y))
  | .amoXor a b c _ => some (a, b, c, fun x y _ => some (x ^^^ y))
  | .amoMin a b c _ => some (a, b, c, fun x y _ => some (BitVec.ofInt 64 (min x.toInt y.toInt)))
  | .amoMax a b c _ => some (a, b, c, fun x y _ => some (BitVec.ofInt 64 (max x.toInt y.toInt)))
  | .amoMinu a b c _ => some (a, b, c, fun x y _ => some (BitVec.ofNat 64 (min x.toNat y.toNat)))
  | .amoMaxu a b c _ => some (a, b, c, fun x y _ => some (BitVec.ofNat 64 (max x.toNat y.toNat)))
  | .amoCas a b c _ => some (a, b, c, fun x y w => if x = w then some y else none)
  | _ => none

/-- Has an atomic the .AR form (R238)? -/
def amoAr (i : Instr) : Bool :=
  match i with
  | .amoSwap _ _ _ r | .amoAdd _ _ _ r | .amoAnd _ _ _ r | .amoOr _ _ _ r | .amoXor _ _ _ r | .amoMin _ _ _ r
  | .amoMax _ _ _ r | .amoMinu _ _ _ r | .amoMaxu _ _ _ r | .amoCas _ _ _ r => r == 1
  | _ => false

/-- The branches (R239): sources, displacement in words, and the condition. -/
def branchRow (i : Instr) : Option (RCode × RCode × BitVec 9 × (W64 → W64 → Prop)) :=
  match i with
  | .beq b c o => some (b, c, o, fun x y => x = y)
  | .bne b c o => some (b, c, o, fun x y => x ≠ y)
  | .blt b c o => some (b, c, o, fun x y => x.toInt < y.toInt)
  | .bge b c o => some (b, c, o, fun x y => y.toInt ≤ x.toInt)
  | .bltu b c o => some (b, c, o, fun x y => x.toNat < y.toNat)
  | .bgeu b c o => some (b, c, o, fun x y => y.toNat ≤ x.toNat)
  | _ => none

/-- What a walker does to memory at address va of a page table (R128, R132): nothing; or it sets ACCESSED, or the bits that an
access of this kind sets, in the leaf it finds; or it counts an uncorrectable error that it meets. -/
inductive State.Marked (s : State) (pt va : Nat) (plate : Bool) (k : Acc) : State → Prop
  | same : s.Marked pt va plate k s
  | accessed pte at_ page size : s.walk pt va = .leaf pte at_ page size → s.Marked pt va plate k (s.orPte at_ pteA)
  | written pte at_ page size : s.walk pt va = .leaf pte at_ page size → k.writes = true → permOk pte plate k = true →
      s.Marked pt va plate k (s.orPte at_ (pteA ||| pteD))
  | uncorr : s.walk pt va = .uncorr → s.Marked pt va plate k s.countUncorr

/-- The page table that an agent's paged accesses go through, where it has one, and whether PLATE pages are open to it. -/
def State.tableOf (s : State) : Agent → Option (Nat × Bool)
  | .aStream h | .eStream h => some ((s.hart h).ctx.ptbase, false)
  | .plate _ => s.preg.platePt.map fun pt => (pt, true)

/-- Number of the translation cache that an agent's paged accesses go through (R133). -/
def Agent.tlb : Agent → Nat
  | .aStream h | .eStream h => tlbBay h
  | .plate p => tlbPlate p

/-- What an agent's translation of va may change (R132, R133, R422): at most two steps of the walker, the translation caches, the
free values drawn, and, where the walker has read the leaf, the clean copies of the bay's L1, which are gone. An agent without a
page table changes nothing. -/
def State.SameButXlat (s : State) (ag : Agent) (k : Acc) (va : Nat) (t : State) : Prop :=
  match s.tableOf ag with
  | none => t = s
  | some (pt, plate) => ∃ u v, s.Marked pt va plate k u ∧ u.Marked pt va plate k v ∧
      ∃ w, (w = v ∨ w = v.walkAcquire ag.tlb) ∧ t = { w with tlbs := t.tlbs, free := t.free }

/-- Translations and reads of tables have led from s to another state (R128, R132, R133): steps of a walker, and changes of the
translation caches, of the free values drawn, and of the clean copies that a walker's acquire drops (R422). -/
inductive State.Walked (s : State) : State → Prop
  | refl : s.Walked s
  | mark {u v : State} {pt va : Nat} {plate : Bool} {k : Acc} : s.Walked u → u.Marked pt va plate k v → s.Walked v
  | caches {u : State} (t : Tab (List TlbEntry)) (f : Nat) : s.Walked u → s.Walked { u with tlbs := t, free := f }
  | acquire {u : State} (id : Nat) : s.Walked u → s.Walked (u.walkAcquire id)

/-- Byte k as an agent reads it at a place (R124): an A-stream through its bay's L1 where the place is cached, any other agent at
the home. -/
def State.byteBy (s : State) (ag : Agent) (p : Phys) (k : Nat) : Byte :=
  match ag.l1? p with
  | some b => (s.l1Of b).view s.mem k
  | none => s.byteOf k

/-- Does a read of n bytes at a place by an agent meet an uncorrectable error (R128, R407)? -/
def State.readBadBy (s : State) (ag : Agent) (p : Phys) (n : Nat) : Bool :=
  match ag.l1? p with
  | some b => (s.l1Of b).readBad p.key n || (readBad s p.key n && !((s.l1Of b).holdsAll p.key n))
  | none => s.cutKey p.key || readBad s p.key n

/-- Does a write of n bytes there cover a bad word only in part (R128)? -/
def State.writeBadBy (s : State) (ag : Agent) (p : Phys) (n : Nat) : Bool :=
  match ag.l1? p with
  | some b => (s.l1Of b).writeBad p.key n || (writeBad s p.key n && !((s.l1Of b).holdsAll p.key n))
  | none => writeBad s p.key n

/-- The lines of n bytes from cell k have come into an L1, which was c and is d (R15, R124): a new clean copy is the byte at the home,
of a line of those bytes, and none stands beside a dirty byte; no older copy has changed, and none has left while the lines, with the
new ones, are no more than the cache has. -/
structure Filled (s : State) (c d : L1) (k n : Nat) : Prop where
  clean : ∀ x b, tget d.clean x = some b → tget c.clean x = some b ∨
    tget c.clean x = none ∧ tget c.dirty x = none ∧ b = s.byteOf x ∧ inLines k n x = true
  kept : lineCount ((c.dirty ++ c.clean).map (·.1) ++ lineCells k n) ≤ l1Lines → ∀ x b, tget c.clean x = some b → tget d.clean x = some b
  room : d.clean = [] ∨ lineCount ((c.dirty ++ d.clean).map (·.1)) ≤ l1Lines

/-- Does some byte of the lines of n bytes at k stand dirty in the L1 of hart h's bay? -/
def State.DirtyAt (s : State) (h k n : Nat) : Prop := ∃ c ∈ (s.l1Of (bayOf h)).dirty, inLines k n c.1 = true

/-- No uncorrectable error stands in memory or in the L1 of hart h's bay. -/
def State.Sound (s : State) (h : Nat) : Prop := s.bad = [] ∧ (s.l1Of (bayOf h)).bad = []

/-- n bytes at a place may be written by hart h's E-stream with nothing lost: a path leads there (R407), and a write-back of its
lines, where one is needed, meets no uncorrectable error (R398). -/
def State.Writes (s : State) (h : Nat) (p : Phys) (n : Nat) : Prop :=
  s.cutKey p.key = false ∧ (p.snooped = true → s.DirtyAt h p.key n → s.Sound h)

/-- n bytes at cell k can be written at their home with nothing lost: they cover no bad word only in part (R128), and a path leads
there (R407). -/
abbrev State.Storable (s : State) (k n : Nat) : Prop := writeBad s k n = false ∧ s.cutKey k = false

/-- s with the lines of the elements in l, n bytes each at their places, taken out of hart h's L1 by way of their homes, as an
E-stream's stores do first (R124). -/
def State.flushed (s : State) (h n : Nat) (l : List Nat) (ph : Nat → Phys) : State :=
  l.foldl (fun s k => if (ph k).snooped then s.l1Flush (bayOf h) (ph k).key n else s) s

/-- The CSR writes (R242): source, number, and the bits of the register that the written value would give it whole. -/
def csrRow (i : Instr) : Option (RCode × Nat × CsrOp) :=
  match i with
  | .csrwr b n => some (b, n.toNat, .write)
  | .csrset b n => some (b, n.toNat, .set)
  | .csrclr b n => some (b, n.toNat, .clear)
  | .featack b => some (b, 0x201, .write)
  | _ => none

/-- The registers that a step's CSR numbers name (R105), with their values for hart h: the fields of R102, R106, R107 and R108 in their
places. -/
def stepCsrs (s : State) (h : Nat) : List (Nat × W64) :=
  let v := s.hart h
  let w := fun (n : Nat) => BitVec.ofNat 64 n
  let bit := fun (b : Bool) => if b then 1 else 0
  [(0x000, w (h % 4096 + s.pkgNum * 2 ^ 12)),
   (0x001, w (v.id.lanes % 64 + 32 / max 1 v.id.lanes % 16 * 2 ^ 8 + bit v.id.truss * 2 ^ 16)),
   (0x002, s.feat.setWidth 64),
   (0x004, w (v.ctx.asid % 2 ^ 12 + v.ctx.vf % 2 ^ 8 * 2 ^ 12 + v.ctx.region % 2 ^ 12 * 2 ^ 20)),
   (0x008, w (bit v.id.resumed + 2 * bit v.id.spliced + 4 * bit v.id.pool + 8 * bit v.id.snapped)),
   (0x010, w v.id.rsize), (0x011, w v.e.wb),
   (0x020, v.a.ascope.setWidth 64), (0x021, v.a.escope.setWidth 64), (0x022, s.preg.sdtbase.setWidth 64),
   (0x030, v.e.fflags.setWidth 64), (0x031, v.e.fpen.setWidth 64), (0x032, v.e.frm.setWidth 64),
   (0x040, w v.e.vl), (0x041, w (v.e.fmt.toNat + 16 * v.e.group.toNat + bit v.e.vill * 2 ^ 63)), (0x042, w v.e.vstart),
   (0x043, ((v.e.prog.map (·.smiss)).getD v.e.smiss).setWidth 64),
   (0x044, w (if v.e.vill then 0 else s.vlen h / v.e.w)),
   (0x045, w (bit v.m.abeam + 2 * bit v.m.loadBusy + 16 * min 8 v.m.rows.length + 256 * v.m.sfmt.toNat + 4096 * v.m.active.fmt.toNat)),
   (0x080, v.a.cp.src), (0x081, v.a.cp.dst), (0x082, v.a.cp.shape), (0x083, v.a.cp.sstr), (0x084, v.a.cp.dstr),
   (0x085, v.a.cp.opt), (0x086, v.a.cp.pad), (0x087, v.a.cp.bar)] ++
  ((List.range 8).map fun k => (0x0C0 + k, v.id.stepix.getD k 0)) ++
  [(0x0C8, v.id.stepid), (0x0C9, v.id.kernid.setWidth 64), (0x0CA, v.id.opbaddr.setWidth 64), (0x0CB, v.id.resword),
   (0x100, v.a.epc), (0x101, v.a.ecause), (0x102, v.a.eval), (0x103, v.a.elaunch), (0x104, v.a.etid), (0x105, v.a.eelem),
   (0x106, v.id.etvec.setWidth 64), (0x180, w s.cycle), (0x181, w (s.cycle * 10 / 13)), (0x182, v.a.instret),
   (0x183, s.stepsCsr h), (0x184, s.ticket)]

/-- The registers that the CSR numbers of plate core p name (R105, R112). -/
def plateCsrs (s : State) (p : Nat) : List (Nat × W64) :=
  let c := s.plate p
  let r := s.preg
  let w := fun (n : Nat) => BitVec.ofNat 64 n
  let bit := fun (b : Bool) => if b then 1 else 0
  [(0x000, w (p % 4 + s.pkgNum * 2 ^ 12 + 2 ^ 18)), (0x002, s.feat.setWidth 64), (0x008, 0),
   (0x020, c.ascope.setWidth 64), (0x022, r.sdtbase.setWidth 64), (0x100, c.epc), (0x101, c.ecause), (0x102, c.eval), (0x106, c.etvec),
   (0x180, w s.cycle), (0x181, w (s.cycle * 10 / 13)), (0x182, c.instret), (0x184, s.ticket),
   (0x200, s.featcap.setWidth 64), (0x201, (r.featack.getD 0).setWidth 64), (0x210, r.ipend.setWidth 64), (0x211, r.ien.setWidth 64),
   (0x218, r.rcbroot.setWidth 64),
   (0x220, w (bit r.armed + 2 * bit r.useren + 4 * bit r.pinen + 8 * bit r.captured + 2 ^ 8 * r.missed.toNat)),
   (0x221, w (r.snapword.toNat + 256 * r.snapblock.toNat)),
   (0x222, (s.snap.bind fun c => tget c.words (r.snapblock.toNat * 256 + r.snapword.toNat)).getD 0)] ++
  (List.range 16).map fun k => (0x240 + k, (tgetD r.ridgeown k 0).setWidth 64)

/-- The bits of kind rw of the CSRs that have some (R102, R105, R107, R108, R112). -/
def csrFields (plate : Bool) : List (Nat × List Nat) :=
  let r := List.range
  [(0x020, r 3), (0x100, r 64)] ++
  if plate then
    [(0x022, r 48), (0x106, r 64), (0x201, r 8), (0x211, r 7), (0x218, r 48), (0x220, r 3), (0x221, r 20)] ++
      (r 16).map fun k => (0x240 + k, r 13)
  else
    [(0x021, r 3), (0x030, r 5), (0x031, r 5), (0x032, r 2), (0x042, r 12), (0x080, r 48), (0x081, r 48), (0x082, r 64), (0x083, r 64),
     (0x084, r 64), (0x085, [0, 1, 2, 4, 5, 8, 9, 10, 12, 13, 14, 15, 16, 17, 18, 19, 20, 21, 22]), (0x086, r 64),
     (0x087, 0 :: (r 19).map (· + 4))]

/-- What a write leaves in bit k of a register: a read-write bit takes the written, set or cleared value, a w1c bit falls
to a 1 that is written or set, any other bit keeps its value (R109, R242). -/
def csrBit (op : CsrOp) (rw w1c : Bool) (old v : Bool) : Bool :=
  if w1c then old && !(v && op != .clear)
  else if rw then match op with
    | .write => v
    | .set => old || v
    | .clear => old && !v
  else old

/-! Vector accesses to memory (R286..R294). -/

/-- Does an access of the vector path at a place meet an uncorrectable error (R124, R128, R407): a read as hart h sees the place,
dirty lines of its bay's L1 included, an atomic at the home, and a store that covers a bad word only in part? -/
def State.vecErr (s : State) (h : Nat) (write atomic : Bool) (p : Phys) (n : Nat) : Bool :=
  if write && !atomic then writeBad s p.key n
  else s.cutKey p.key || (if !atomic && p.snooped then s.snoopBad (bayOf h) p.key n else readBad s p.key n)

/-- The value of n bytes at a place as hart h's E-stream reads it (R124). -/
def State.vecNat (s : State) (h : Nat) (p : Phys) (n : Nat) : Nat :=
  if p.snooped then ofBytes (s.snoopBytes (bayOf h) p.key n) else s.nat p.key n

/-- The state from which hart h's vector access reads and writes: a sequentially consistent element is first a release at PKG, so the
bay's dirty lines have gone to their homes (R353, R363). -/
def State.scFrom (s : State) (h : Nat) (sc : Bool) : State := if sc then s.l1Release h else s

/-- The state after n loaded elements: where they are sequentially consistent, each has taken its ticket (R199) and has been an
acquire at PKG, which leaves no clean copy in the bay's L1. -/
def State.scTo (s : State) (h : Nat) (sc : Bool) (n : Nat) : State :=
  if sc = true ∧ n ≠ 0 then
    ({ s.l1Release h with ticket := (s.l1Release h).ticket + BitVec.ofNat 64 n } : State).l1Acquire h
  else s

/-- Why an access of n bytes at va by hart h along the vector path fails, if it does, and where it goes if it does not:
the checks of R286 in their order, sc for a sequentially consistent one and atomic for an atomic. -/
inductive VecTo (s : State) (h : Nat) (write sc atomic : Bool) (n va : Nat) : Except Cause Phys → Prop where
  | bounds : s.placeH h va n = .bounds → VecTo s h write sc atomic n va (.error .bounds)
  | align : s.placeH h va n ≠ .bounds → va % n ≠ 0 → VecTo s h write sc atomic n va (.error .align)
  | xlat c : s.placeH h va n ≠ .bounds → va % n = 0 → s.xlatV h write va n = .error c →
      VecTo s h write sc atomic n va (.error c)
  | scope p : s.placeH h va n ≠ .bounds → va % n = 0 → s.xlatV h write va n = .ok p →
      (sc = true ∨ atomic = true) ∧ isHost p.key = true ∧ p.dev = true ∨ sc = true ∧ isRemote p.key = true →
      VecTo s h write sc atomic n va (.error .scope)
  | uncorr p : s.placeH h va n ≠ .bounds → va % n = 0 → s.xlatV h write va n = .ok p →
      ¬ ((sc = true ∨ atomic = true) ∧ isHost p.key = true ∧ p.dev = true ∨ sc = true ∧ isRemote p.key = true) →
      s.vecErr h write atomic p n = true → VecTo s h write sc atomic n va (.error .uncorr)
  | ok p : s.placeH h va n ≠ .bounds → va % n = 0 → s.xlatV h write va n = .ok p →
      ¬ ((sc = true ∨ atomic = true) ∧ isHost p.key = true ∧ p.dev = true ∨ sc = true ∧ isRemote p.key = true) →
      s.vecErr h write atomic p n = false → VecTo s h write sc atomic n va (.ok p)

/-- Bytes of an element of w bits. -/
def elBytes (w : Nat) : Nat := max 1 (w / 8)

/-- What an access of VTYPE's elements names: its data group, its sources with the group sizes that R214 checks, the
group sizes it derives, its predicate, whether it accepts 4-bit formats, whether it is sequentially consistent, the address of an
element's first byte with the element's first bit in it, the sources that a load reads as scalars (R266), and E of R265. -/
structure VAccess where
  a : RCode
  vecs : List (RCode × Nat)
  derived : List Nat
  m : BitVec 2
  any : Bool
  sc : Bool
  place : EIn → Nat → Nat × Nat
  scal : List RCode
  E : Nat

/-- Addresses of elements (R291): contiguous from the j-th source, strided by the next one, or by its 32-bit indices. -/
def rawAt (j : Nat) (x : EIn) (k : Nat) : Nat × Nat := ((x.sc j + k * x.e.w / 8) % 2 ^ 64, k * x.e.w % 8)
def strideAt (j : Nat) (x : EIn) (k : Nat) : Nat × Nat := ((x.sc j + k * x.sc (j + 1)) % 2 ^ 64, 0)
def indexAt (j : Nat) (x : EIn) (k : Nat) : Nat × Nat :=
  (wrap 64 ((x.sc j : Int) + sext 32 (elemOf 32 (x.vec (j + 1) x.e.idxG) k)), 0)

/-- The loads (R291, R292, R293). -/
def vloadRow (i : Instr) (e : ERegs) : Option VAccess :=
  match i with
  | .vlr a b m => some ⟨a, [(b, 1)], [], m, true, false, rawAt 0, [b], eSize e.w⟩
  | .vlrff a b m => some ⟨a, [(b, 1)], [], m, true, false, rawAt 0, [b], eSize e.w⟩
  | .vlrs a b c m => some ⟨a, [(b, 1), (c, 1)], [1], m, false, false, strideAt 0, [b, c], eSize e.w⟩
  | .vlrx a b c m => some ⟨a, [(b, 1), (c, e.idxG)], [e.idxG], m, false, false, indexAt 0, [b], 4⟩
  | .vlrsc a b m => some ⟨a, [(b, 1)], [], m, false, true, rawAt 0, [b], 1⟩
  | _ => none

/-- The stores (R291, R293), their data group before the base. -/
def vstoreRow (i : Instr) (e : ERegs) : Option VAccess :=
  match i with
  | .vstr a b m => some ⟨b, [(b, e.g), (a, 1)], [], m, true, false, rawAt 1, [], eSize e.w⟩
  | .vstrs a b c m => some ⟨b, [(b, e.g), (a, 1), (c, 1)], [1], m, false, false, strideAt 1, [], eSize e.w⟩
  | .vstrx a b c m => some ⟨b, [(b, e.g), (a, 1), (c, e.idxG)], [e.idxG], m, false, false, indexAt 1, [], 4⟩
  | .vstrsc a b m => some ⟨b, [(b, e.g), (a, 1)], [], m, false, true, rawAt 1, [], 1⟩
  | _ => none

/-- The vector atomics (R294): destination and operand group, base, index group, predicate, and the new value from the
format, the old value and the operand. -/
def vamoRow (i : Instr) : Option (RCode × RCode × RCode × BitVec 2 × (Nat → Nat → Nat → Nat)) :=
  match i with
  | .vamoadd a b c m => some (a, b, c, m, fun _ x y => (x + y) % 2 ^ 32)
  | .vamomin a b c m => some (a, b, c, m, fun fmt x y => wrap 32 (min (asInt fmt 32 x) (asInt fmt 32 y)))
  | .vamomax a b c m => some (a, b, c, m, fun fmt x y => wrap 32 (max (asInt fmt 32 x) (asInt fmt 32 y)))
  | .vamoswap a b c m => some (a, b, c, m, fun _ _ y => y)
  | .vamoor a b c m => some (a, b, c, m, fun _ x y => x ||| y)
  | _ => none

/-- Operands of an access of VTYPE's elements, with its destination. -/
def VAccess.op (r : VAccess) (d : EDst) : EOp :=
  { cls := some (if r.any then clsA else clsA8), derived := r.derived, srcs := r.vecs.map (·.1), vecs := r.vecs, dst := d,
    scal := r.scal }

/-- The elements that an element-wise instruction computes, lowest first, and how many they are. -/
def EIn.todo (x : EIn) (m : BitVec 2) : List Nat :=
  (List.range x.e.vl).filter fun k => decide (x.e.vstart ≤ k) && x.active m k
def EIn.count (x : EIn) (m : BitVec 2) : Nat := (x.todo m).length

/-- The computed elements stand in one group of E, and in no DEVICE page, so that they are performed together (R268, R269). -/
def EIn.oneGroup (x : EIn) (m : BitVec 2) (E : Nat) (ph : Nat → Phys) : Prop :=
  ∃ g, ∀ k, x.computes m k → k / E = g ∧ (ph k).dev = false

/-- An E-stream instruction of hart h has executed its first groups in its turn and stands before element n (R99, R149, R268): the
element values val and the flags fl are in place, its sources have popped their queues into the latch, what it read when it started
stays, and nothing is pushed yet. Stated for a destination that is no port. -/
structure EPaused (s t : State) (h : Nat) (i : Instr) (op : EOp) (vals : List VReg) (fl : BitVec 5) (val : Nat → Option Nat)
    (n : Nat) : Prop where
  stands : (t.hart h).e.pc = (s.hart h).e.pc ∧ (t.hart h).e.wait = .none ∧ (t.hart h).e.vstart = (s.hart h).e.vstart ∧
    (t.hart h).a = (s.hart h).a
  prog : (t.hart h).e.prog = some { elem := n, escope := (s.hart h).a.escope, fpen := (s.hart h).e.fpen, frm := (s.hart h).e.frm,
                                    word := (evalOf i).setWidth 32, smiss := (s.hart h).e.smiss }
  kept : (t.hart h).e.latch = vals ∧ (t.hart h).e.latchQ = portsOf op.srcs ∧ (t.hart h).e.reserved = none
  fflags : (t.hart h).e.fflags = (s.hart h).e.fflags ||| fl
  popped : ∀ q, q < 4 → t.aeOf h q = (s.aeOf h q).drop (portCount q op.srcs)
  pushed : (t.hart h).r.ea = (s.hart h).r.ea ∧ (t.hart h).e.l = (s.hart h).e.l
  mask : (t.hart h).e.mask = (s.hart h).e.mask
  dst : ∀ c g w, op.dst = .vec c g w →
    (1 < g → ImageIs w (s.vlen h * g) ((t.hart h).e.groupVal (s.vlen h) c g) ((s.hart h).e.groupVal (s.vlen h) c g) val) ∧
    (g ≤ 1 → ImageIs w (s.vlen h) ((t.hart h).e.reg c).toNat ((s.hart h).e.reg c).toNat val ∧
      ∃ v : VReg, (t.hart h).e.staging = some v ∧ ImageIs w (s.vlen h) v.toNat ((s.hart h).e.reg c).toNat val)
  o : ∀ n, (∀ c g w, op.dst = .vec c g w → 1 < g ∨ c.toNat ≠ n + 8) → n < 8 →
    tgetD (t.hart h).e.o n 0 = tgetD (s.hart h).e.o n 0
  main : ∀ n, (∀ c g w, op.dst = .vec c g w → n ∉ touches (s.hart h).e c g) →
    tgetD (t.hart h).e.main n 0 = tgetD (s.hart h).e.main n 0
  core : SameE (s.hart h) (t.hart h)
  elsewhere : s.SameElsewhere t

/-- Bit b of memory, counted from bit 0 of byte 0. -/
def State.bitOf (s : State) (b : Nat) : Bool := (s.byteOf (b / 8)).getLsbD (b % 8)

/-- Between s and t, for every k with p k, the w bits from bit at_ k have been stored with val k, in the order of k, and
no other bit of memory has changed. -/
structure State.StoredBits (s t : State) (w : Nat) (p : Nat → Prop) (at_ val : Nat → Nat) : Prop where
  stored : ∀ k n, p k → n < w → (∀ j, p j → k < j → ¬ (at_ j ≤ at_ k + n ∧ at_ k + n < at_ j + w)) →
    t.bitOf (at_ k + n) = (val k).testBit n
  kept : ∀ b, (∀ k, p k → ¬ (at_ k ≤ b ∧ b < at_ k + w)) → t.bitOf b = s.bitOf b

/-- The two states differ at most in memory, its errors, and the dirty marks of scratch pages. -/
structure State.SameButStores (s t : State) : Prop where
  device : t = { s with mem := t.mem, bad := t.bad, harts := t.harts }
  harts : ∀ h, t.hart h = { s.hart h with r := { (s.hart h).r with dirty := (t.hart h).r.dirty } }

/-- The tensor that identifier T names for hart h, where the bay's cache holds its descriptor or the step's redirection
gives it (R178, R377). -/
def State.tensHeld (s : State) (h tid : Nat) : Option Tens :=
  match (s.hart h).r.redirect with
  | some (t, tile, off, td) =>
    if t = tid then some { td := td, buf := some (tile, scratchKey (bayOf h) ((s.hart h).r.alloc + off)) }
    else (s.tdCached h tid).map fun td => { td := td, buf := none }
  | none => (s.tdCached h tid).map fun td => { td := td, buf := none }

/-- Where position j of tile n lies, in bits of memory from byte p.key: an element inside the tensor, at an address
that the vector path takes to p, or in the splice buffer. -/
def Tens.To (x : Tens) (s : State) (h : Nat) (write : Bool) (nb n j : Nat) (r : Except Cause Phys) : Prop :=
  match (x.elem n j).1 with
  | .va a => VecTo s h write false false nb (wrap 64 a) r
  | .cell k => r = if s.vecErr h write false ⟨k, false⟩ nb then .error .uncorr else .ok ⟨k, false⟩

/-- The group that a tile of n elements of w bits takes (R288): the smallest power of two of registers, at most 8. -/
def TileGroup (vlen n w g : Nat) : Prop :=
  g ∈ [1, 2, 4, 8] ∧ n * w ≤ g * vlen ∧ ∀ k ∈ [1, 2, 4, 8], k < g → k * vlen < n * w

/-- Does a position of a tile count for VLTCK (R290): its chunk of 512 x 2^g bytes from BASE has its bit set in mask m, or
it lies outside the tensor? -/
def Tens.chunkOn (x : Tens) (e : ERegs) (m : BitVec 2) (n g j : Nat) : Prop :=
  x.inside n j = false ∨ ∃ o : Nat, x.offset n j = (o : Int) ∧ o / (512 * 2 ^ g) ≤ 63 ∧
    (tgetD e.mask m.toNat 0).getLsbD (o / (512 * 2 ^ g)) = true

/-- The row that MROW or MROWT sends into the matrix unit of hart g's bay: group a, the row register's image, the row format,
extent and latch of hart r, and the active beam of hart g as they stand at issue (R296, R305, R306); the unit has still to turn to
it (R383). -/
def rowSent (s : State) (g r : Nat) (a : RCode) (img : Nat) : Row :=
  { arow := BitVec.ofNat 1024 img, kt := (s.hart r).m.kt, latch := (s.hart r).m.latch, sfmt := (s.hart r).m.sfmt,
    beam := (s.hart g).m.active, acc := (s.hart g).e.wb + (a.toNat - 16), pc := (s.hart g).e.pc, fpen := (s.hart g).e.fpen,
    issued := s.cycle, occEnd := none }

/-- May hart g issue a row against the row format f into group a: its beam is not empty and pairs with the format, the group
passes R214, no earlier row's trap waits on the group, fewer than 8 rows are in flight (R305), and no main register holds an
uncorrectable error (R398)? -/
def rowReady (s : State) (g : Nat) (f : BitVec 4) (a : RCode) : Prop :=
  let v := s.hart g
  v.m.active.empty = false ∧ rowClass f.toNat = rowClass v.m.active.fmt.toNat ∧ (rowClass f.toNat).isSome = true ∧
    groupCheck v.e v.id.rsize a (32 / max 1 (fmtWidth f.toNat)) = none ∧
    v.m.rowTrap (touches v.e a (32 / max 1 (fmtWidth f.toNat))) = none ∧ v.m.rows.length < 8 ∧ v.e.bad = []

/-! Queues, slots and the device. -/

/-- An A-stream instruction has completed from s to t without a result, and queue AE q has one entry more. -/
structure Queued (s t : State) (srcs : List RCode) (q : Nat) (e : AEntry) : Prop where
  pc : t.pcOf s.cur = s.pcOf s.cur + 4
  instret : t.instretOf s.cur = s.instretOf s.cur + 1
  reg : ∀ n, t.regOf s.cur n = s.regOf s.cur n
  popped : ∀ h k, s.cur = .aStream h → k < 4 → t.eaOf h k = (s.eaOf h k).drop (portCount k srcs)
  pushed : ∀ h k, s.cur = .aStream h → k < 4 → t.aeOf h k = s.aeOf h k ++ if k = q then [e] else []
  core : s.SameCore t
  elsewhere : s.SameElsewhere t

/-- A slot just taken for n chunks (R204): the launch's address, shadows and job, a generation one higher than before, the
bits of the chunks it does not have, and nothing done. -/
structure Taken (old x : Xfer) (n : Nat) (pc : W64) (sh : Shadows) (sill : Bool) (job : Job) : Prop where
  state : x.state = .active
  gen : x.gen = old.gen + 1
  chunks : x.chunks = n
  shadows : x.sh = sh
  job_ : x.job = job
  sill_ : x.sill = sill
  launchPc : x.launchPc = pc
  clear : x.covered = 0 ∧ x.status = 0 ∧ x.flags = 0 ∧ x.cancelled = false ∧ x.started = 0 ∧ x.flight = [] ∧ x.paused = []
  bitmap : ∀ b, b < 64 → (x.bitmap.getLsbD b = true ↔ n ≤ b)

/-- Slot k is the lowest FREE one of hart h (R204). -/
def State.LowestFree (s : State) (h k : Nat) : Prop :=
  k < 32 ∧ (s.slot h k).state = .free ∧ ∀ j, j < k → (s.slot h j).state ≠ .free

/-- The number of a refusal code as a launch gives it (R323). -/
def refusedWith (c : Nat) : W64 := BitVec.ofNat 64 (2 ^ 63 + c * 2 ^ 56)

/-- The TID of slot k with generation g (R320). -/
def tidWord (k : Nat) (g : BitVec 8) : W64 := BitVec.ofNat 64 (k + 256 * g.toNat)

/-- lo and hi are the lowest and the highest byte address that a shape of planes, rows and bytes of a row reaches from a base with
its strides (R323, R324). -/
def BoxIs (base planes rows width : Nat) (ps rs lo hi : Int) : Prop :=
  let at_ := fun (p r x : Nat) => (base : Int) + p * ps + r * rs + x
  (∀ p r x, p < planes → r < rows → x < width → lo ≤ at_ p r x ∧ at_ p r x ≤ hi) ∧
  (∃ p r x, p < planes ∧ r < rows ∧ x < width ∧ at_ p r x = lo) ∧ ∃ p r x, p < planes ∧ r < rows ∧ x < width ∧ at_ p r x = hi

/-- s with slot k of hart h replaced and one more launch made. -/
def State.withSlot (s : State) (h k : Nat) (x : Xfer) : State :=
  { s.modR h fun r => { r with slots := tput r.slots k x } with nextId := s.nextId + 1 }

/-- A record r pushed by a step into shard k of a region's pool (R161, R163): QUEUED behind the others, with KILL and ridge as
given, ORIGIN and SERIAL written into its SEQ and every other bit its own; the shard's count of pushes has risen. The shards of the
pool that wait for a record probe again (R380), and the device has written the shard's storage (R162, log 18). -/
def State.Pushed (s u : State) (rcb k : Nat) (r : BitVec 512) (kill : Bool) (ridge : Nat) : Prop :=
  ∃ e : PEntry, u = s.accept rcb k { s.shard rcb k with
      serial := (s.shard rcb k).serial + 1, entries := (s.shard rcb k).entries ++ [e] } ∧
    e.kill = kill ∧ e.ridge = ridge ∧ e.lent = false ∧
    (∀ j, j < 512 → (j < 64 ∨ 112 ≤ j) → e.rec_.getLsbD j = r.getLsbD j) ∧
    e.rec_.toNat / 2 ^ 64 % 2 ^ 48 = (s.pkgNum * 64 + k) % 4096 * 2 ^ 36 + (s.shard rcb k).serial.toNat

/-- Does entry x come before entry y at a dequeue (R162)? -/
def PEntry.First (x y : PEntry) : Prop :=
  let key := fun (e : PEntry) => (e.rec_.extractLsb' 0 64).toInt
  let depth := fun (e : PEntry) => e.rec_.toNat / 2 ^ 112 % 2 ^ 16
  let seq := fun (e : PEntry) => e.rec_.toNat / 2 ^ 64 % 2 ^ 48
  key x < key y ∨ key x = key y ∧ (depth y < depth x ∨ depth x = depth y ∧ seq x < seq y)

/-- Is a record killed at its push by hart h (R263, R332)? spec is its specification. -/
def State.PushKilled (s : State) (h : Nat) (spec : W64) (r : BitVec 512) : Prop :=
  let n := spec.toNat / 2 ^ 48 % 16
  spec.getLsbD 52 = true ∧ s.ownsRidge h n = true ∧ (s.ridge n).max = false ∧
    (s.copyKey (h / 8) n).toInt ≤ (r.extractLsb' 0 64).toInt


end Sys2Proof.Machine
end

