-- ==== Sys2Proof/Certificates/Slice0/Obligations.lean ====
section
/-! DEFINITION. The statements for the provers. Each formalises rules of spec/ named in OBLIGATIONS.json; a clause that is
the model's own choice names its log entry. -/

open Sys2Proof Sys2Proof.Machine


/-! Encodings, a step, reset, and what every step keeps. -/

/-- R209, R211, R215, R216, R218: decoding the word of a well-formed instruction gives that instruction, whatever its
operands, so no two instructions share a word; and a word that decodes is the word of the
instruction it decodes to, so no instruction has two words. -/
def Obligations.EncodeDecode : Prop :=
  (∀ (i : Instr) (w : Word32), WellFormed i = true → encode i = some w → decode w = .instr i) ∧
  ∀ (w : Word32) (i : Instr), decode w = .instr i → encode i = some w

/-- R209, R211, R215, R216, R219: words written out from the encoding tables stand for the instructions, or fail the
checks, that the spec's rows say, and a word's lowest byte comes first. -/
def Obligations.DecodeWords : Prop :=
  decode 0x0448A580 = .instr (.add 9 10 44) ∧
  decode 0x34300008 = .instr (.beq 6 0 8) ∧
  decode 0x4400000A = .instr (.fenceVv 2) ∧
  decode 0xC0800004 = .instr (.mrowt 16 0) ∧
  decode 0x64000000 = .instr (.qmap 0 0 0) ∧
  decode 0x6050B182 = .instr (.rimin 10 11 12) ∧
  decode 0x00000000 = .noMajor ∧ decode 0xFFFFFFFF = .noMajor ∧
  decode 0x54000007 = .noMinor ∧ decode 0xC4000007 = .noMinor ∧ decode 0x28790E0C = .noMinor ∧
  decodeBytes [0x80, 0xA5, 0x48, 0x04] = .instr (.add 9 10 44) ∧ decodeBytes [0x80, 0xA5, 0x48] = .short

/-- R209, R210, R219, R349: the step of an agent that may issue translates its pc for execution, reads the word there, lowest
byte first, and executes what the word decodes to, one clk later than the state before; a hart may read the word that stood at that
address when its step was placed, by the page tables of then; a pc outside the paged range traps BOUNDS, a failed translation traps its cause, and a word that is no
instruction traps ILLOP, or the cause of the checks of R219 that come before, with the word in EVAL. An E-stream that stands inside
an instruction goes on with its word. An agent that may not issue does nothing in its turn. Which agent's turn it is, or what
happens instead, the agenda says, and the default order where the agenda is empty (log 4); an event's turn runs the event. A turn
takes one clk (log 7), and without power only what log 41 names happens. -/
def Obligations.StepRunsDecoded : Prop :=
  (∀ (s : State) (ag : Agent) (x : Turn) (lim : Option Nat) (rest : List Turn), s.agenda = x :: rest → s.powered = true →
    (x = .run ag ∧ lim = none ∨ ∃ h n, x = .part h n ∧ ag = .eStream h ∧ lim = some n) →
    let u : State := { s.ageSync with agenda := rest, cycle := s.cycle + 1, limit := lim }
    let v : State := { u with cur := ag }
    let pc := s.pcOf ag
    -- where the word stood when the step was placed, by the page tables as they were then
    let old := fun (y : State) (h k : Nat) => ∃ pte at_ page size p,
      ({ y with mem := (y.hart h).id.code } : State).walk (y.hart h).ctx.ptbase pc.toNat = .leaf pte at_ page size ∧
      ({ y with mem := (y.hart h).id.code } : State).leafPhys pte size pc.toNat = some p ∧ k = p.key
    let runs := fun (w : Word32) (y : State) =>
      (∀ i, decode w = .instr i → step s = exec i y) ∧
      (∀ i, decode w = .badField i → step s = .next (y.raise ((y.gate345 i).getD .illop) (w.setWidth 64))) ∧
      (decode w = .noMajor ∨ decode w = .noMinor → step s = .next (y.raise .illop (w.setWidth 64)))
    (u.canIssue ag = false → step s = .next u) ∧
    (u.canIssue ag = true → ∀ w, v.heldWord ag = some w → runs w v) ∧
    (u.canIssue ag = true → v.heldWord ag = none →
      (2 ^ 47 ≤ pc.toNat → step s = .next (v.raiseAcc .bounds pc 2)) ∧
      (pc.toNat < 2 ^ 47 → ∀ (v1 : State),
        (∀ c, v.paged ag .exec pc.toNat = (.error c, v1) → step s = .next (v1.raiseAcc c pc 2)) ∧
        ∀ p, v.paged ag .exec pc.toNat = (.ok p, v1) → v.Walked v1 ∧
          (v1.cutKey p.key = true → step s = .next (v1.raiseAcc .uncorr pc 2)) ∧
          (v1.cutKey p.key = false → readBad v1 p.key 4 = true → step s = .next (v1.countUncorr.raiseAcc .uncorr pc 2)) ∧
          (v1.cutKey p.key = false → readBad v1 p.key 4 = false → ∃ (w : Word32) (f : Nat),
            runs w { v1 with free := f } ∧
            ((∀ j, j < 4 → BitVec.ofNat 8 (w.toNat / 256 ^ j) = v1.byteOf (p.key + j)) ∨
             ∃ h k, ag.hart? = some h ∧ old v1 h k ∧ ∀ j, j < 4 →
               BitVec.ofNat 8 (w.toNat / 256 ^ j) = memGet (v1.hart h).id.code (k + j)) ∧
            ((∀ h k, ag.hart? = some h → old v1 h k →
                ∀ j, j < 4 → memGet (v1.hart h).id.code (k + j) = v1.byteOf (p.key + j)) →
              f = v1.free))))) ∧
  (∀ (s : State) (i : Instr) (a : EvArg) (rest : List Turn), s.agenda = .ev i a :: rest → i.isEvent = true →
    (s.powered = true ∨ i = .powerInputChange ∨ i = .powerGoodTimer) →
    step s = exec i { s.ageSync with agenda := rest, cycle := s.cycle + 1, limit := none, ev := a }) ∧
  (∀ (s : State) (x : Env) (rest : List Turn), s.agenda = .env x :: rest →
    (s.powered = true ∨ ∃ a bs, x = .hostWrite a bs) →
    step s = .next (({ s.ageSync with agenda := rest, cycle := s.cycle + 1, limit := none } : State).envTurn x)) ∧
  (∀ (s : State) (n : Nat) (rest : List Turn), s.agenda = .idle n :: rest →
    step s = .next { s.ageSync with agenda := rest, cycle := s.cycle + n, limit := none }) ∧
  (∀ (s : State) (x : Turn × Nat), s.agenda = [] → s.powered = true → s.ageSync.autoTurn = x →
    step s = step { s with agenda := [x.1], rr := x.2 }) ∧
  ∀ (s : State) (x : Turn) (rest : List Turn), s.agenda = x :: rest → s.powered = false → x.unpowered = false →
    step s = .fault .unpowered

/-- R95, R104, R107, R112, R257, R409, R410, R414: after a package reset no step is placed and no queue is mapped, the plate
registers hold their reset values, FEATACK has not been written and FEAT reads 0, each ridge holds the greatest key and
tag and finds the least, plate core 0 is in the boot ROM and the others are held, each with ASCOPE PKG, BOOTSTAT has stage and code
0, no snapshot is latched and no transfer is queued. A build record that passes the checks of R25 beside the signature is part of
it (log 5); memory and the registers the spec gives no value are 0 (log 1, log 2). -/
def Obligations.ResetState : Prop :=
  let s := State.reset
  s.MemOk ∧ (∀ k, s.byteOf k = 0) ∧ s.record.ok = true ∧ s.record.sig.length = 96 ∧
  s.preg.featack = none ∧ s.feat = 0 ∧ s.preg.ipend = 0 ∧ s.preg.ien = 0 ∧ s.preg.rcbroot = 0 ∧ s.preg.missed = 0 ∧
  s.preg.captured = false ∧ s.preg.pinen = false ∧ s.preg.useren = false ∧ s.preg.armed = false ∧ s.preg.snapblock = 0 ∧
  s.preg.snapword = 0 ∧ s.preg.sdtbase = 0 ∧ (∀ n, tgetD s.preg.ridgeown n 0 = 0) ∧ s.snap = none ∧
  (∀ n, (s.ridge n).key = 0x7FFF_FFFF_FFFF_FFFF ∧ (s.ridge n).tag = 0xFFFF_FFFF_FFFF_FFFF ∧ (s.ridge n).max = false ∧
    (s.ridge n).wide = false) ∧
  (s.plate 0 = { Plate.zero with run := .rom } ∧ (∀ p, p ≠ 0 → s.plate p = Plate.zero) ∧ ∀ p, (s.plate p).ascope = 6) ∧
  (∀ h, s.occ h = false ∧ s.hart h = Hart.free) ∧
  (∀ ag n, s.regOf ag n = 0) ∧ s.mg.bootstat = 0 ∧ s.cmds = [] ∧ s.insts = [] ∧ s.qslots = [] ∧ s.parked = [] ∧
  s.copyq = [] ∧ s.sillq = [] ∧ s.rq = [] ∧ s.tlbs = [] ∧ s.l1 = []

/-- The memory's canonical form is an invariant: no instruction, event or turn breaks it, in any state whatever, so equal
memories stay equal data. A model invariant (log 2). -/
def Obligations.StepKeepsMemory : Prop :=
  ∀ s t : State, step s = .next t → s.MemOk → t.MemOk

/-- R24, R411: no software, no event and nothing from outside changes the build record, in any state whatever, and the least
image version in flash never falls. -/
def Obligations.StepKeepsRecord : Prop :=
  ∀ s t : State, step s = .next t → s.FlashKept t
/-! Instructions of the A-stream and the plate cores. -/

/-- R56, R147, R148, R227: what the sources read. z gives 0; x8..x127 their register; a port of an A-stream the oldest entry of
its E→A queue, and after one entry for each earlier source that names the same port; the sources of an instruction pop in the order
b, a, c (log 16). RIMIN, RIMAX and RIRESET are the instructions with three sources: where all three name one port, its oldest entry
is the key in b, the next one the ridge in a, the third the tag or the mode in c. -/
def Obligations.SourceValues : Prop :=
  (∀ (s : State) (c d : RCode),
    s.src [0] 0 = 0 ∧
    (8 ≤ c.toNat → s.cur.isE = false → s.src [c] 0 = s.regOf s.cur c.toNat) ∧
    (∀ h, s.cur = .aStream h → ∀ q, q < 4 → c.toNat = q + 4 →
      s.src [c] 0 = (s.eaOf h q).getD 0 0 ∧ s.src [c, c] 1 = (s.eaOf h q).getD 1 0 ∧
      (d ≠ c → s.src [d, c] 1 = (s.eaOf h q).getD 0 0))) ∧
  (∀ (s : State) (h q k : Nat) (c : RCode) (srcs : List RCode), s.cur = .aStream h → q < 4 → srcs[k]? = some c →
    (c.toNat = q + 4 → s.src srcs k = (s.eaOf h q).getD (portCount q (srcs.take k)) 0) ∧
    (8 ≤ c.toNat → s.src srcs k = s.regOf s.cur c.toNat) ∧ (c = 0 → s.src srcs k = 0)) ∧
  ∀ (i : Instr) (c : RCode) (s : State) (h q : Nat), i = .rimin c c c ∨ i = .rimax c c c ∨ i = .rireset c c c →
    s.cur = .aStream h → q < 4 → c.toNat = q + 4 → s.Ready i [c, c, c] [] →
    let key := (s.eaOf h q).getD 0 0
    let n := (s.eaOf h q).getD 1 0
    let x := (s.eaOf h q).getD 2 0
    (15 < n.toNat → exec i s = .next (s.raise .bounds n)) ∧
    (n.toNat ≤ 15 → s.ownsRidge h n.toNat = true →
      (i = .rireset c c c → x.getLsbD 1 = false → ∃ t, exec i s = .next t ∧
        (t.ridge n.toNat).key = key ∧ (t.ridge n.toNat).max = x.getLsbD 0) ∧
      (i = .rimin c c c → (s.ridge n.toNat).max = false → key.toInt < (s.ridge n.toNat).key.toInt →
        ∃ t, exec i s = .next t ∧ (t.ridge n.toNat).key = key ∧ (t.ridge n.toNat).tag = x) ∧
      (i = .rimax c c c → (s.ridge n.toNat).max = true → (s.ridge n.toNat).key.toInt < key.toInt →
        ∃ t, exec i s = .next t ∧ (t.ridge n.toNat).key = key ∧ (t.ridge n.toNat).tag = x))

/-- R229, R230: the two-source instructions of major 0x01 give their result, and change nothing else. R229..R233: the one-source and immediate instructions, and LIH, which gives its immediate
shifted left by 13. No word of fn 31, of a shift kind above 4, or with an unused field that is not 0 is an instruction. -/
def Obligations.IntegerArithmetic : Prop :=
  (∀ i a b c f, intRow2 i = some (a, b, c, f) → ∀ s : State, s.Ready i [b, c] [a] →
     ∃ t, exec i s = .next t ∧ Done s t [b, c] a (f (s.src [b, c] 0) (s.src [b, c] 1))) ∧
  ((∀ i a b f, intRow1 i = some (a, b, f) → ∀ s : State, s.Ready i [b] [a] →
     ∃ t, exec i s = .next t ∧ Done s t [b] a (f (s.src [b] 0))) ∧
   ∀ (a : RCode) (n : BitVec 19) (s : State), s.Ready (.lih a n) [] [a] →
     ∃ t, exec (.lih a n) s = .next t ∧ Done s t [] a (BitVec.ofInt 64 (n.toInt * 2 ^ 13))) ∧
  ∀ w : Word32, let fn := (slice w 0 5).toNat
    let kind := (slice w 9 3).toNat
    (majorOf w = 0x01 → fn = 31 → decode w = .noMinor) ∧
    (majorOf w = 0x01 → 26 ≤ fn → fn ≤ 28 → slice w 5 7 ≠ 0 → ∃ i, decode w = .badField i) ∧
    (majorOf w = 0x08 → 5 ≤ kind → decode w = .noMinor) ∧
    (majorOf w = 0x08 → kind < 5 → slice w 6 3 ≠ 0 → ∃ i, decode w = .badField i)

/-- R7, R124, R234, R235: a load whose address translates and whose bytes read gives the little-endian value, extended: the bytes
its bay's L1 holds where the place is cached, and those of the home elsewhere. Clean copies of the home come into the L1, of lines
of a size that is left open (log 81); dirty bytes and older copies stay as they are, but that copies of other lines leave where the
lines are more than the 64 KiB of R15 hold. A load that fails traps with its cause and the address in EVAL. -/
def Obligations.Loads : Prop :=
  ∀ i a b o n sg, loadRow i = some (a, b, o, n, sg) → ∀ s : State, s.Ready i [b] [a] →
    (∀ p s1, s.aXlat s.cur .read (s.lsVa [b] o n) n = (.ok p, s1) →
      (s1.readBadBy s.cur p n = false → ∃ s2 t v, exec i s = .next t ∧ s.Walked s1 ∧ s2 = { s1 with l1 := s2.l1 } ∧
        (∀ c, s.cur.l1? p = some c → Filled s1 (s1.l1Of c) (s2.l1Of c) p.key n ∧
          (s2.l1Of c).dirty = (s1.l1Of c).dirty ∧ (s2.l1Of c).bad = (s1.l1Of c).bad) ∧
        (∀ c, s.cur.l1? p ≠ some c → s2.l1Of c = s1.l1Of c) ∧
        Done s2 t [b] a (extend n sg v) ∧ v < 256 ^ n ∧
        ∀ k, k < n → BitVec.ofNat 8 (v / 256 ^ k) = s1.byteBy s.cur p (p.key + k)) ∧
      (s1.readBadBy s.cur p n = true → exec i s =
        .next ((if s.cur.l1? p = none ∧ s1.cutKey p.key = true then s1 else s1.countUncorr).raiseAcc .uncorr
          (BitVec.ofNat 64 (s.lsVa [b] o n)) 0))) ∧
    ∀ c s1, s.aXlat s.cur .read (s.lsVa [b] o n) n = (.error c, s1) →
      exec i s = .next (s1.raiseAcc c (BitVec.ofNat 64 (s.lsVa [b] o n)) 0)

/-- R7, R124, R234, R235: a store writes the low bytes of its data, lowest first, at the address that the same translation gives:
in its bay's L1, where they are dirty, when the place is cached; else at the home. Every other byte is as that translation
left it; an L1 full of dirty lines first writes others back (R15, log 81). A store to the I/O-die space is one access of its size there (R122); one to a package that no path leads to is lost,
and raises IPEND.UNCORR (R407). One that fails traps and stores nothing. Where the base and the data name one port, the base
pops the older entry (log 16). -/
def Obligations.Stores : Prop :=
  ∀ i a b o n, storeRow i = some (a, b, o, n) → ∀ s : State, s.Ready i [b, a] [] →
    (∀ p s1, s.aXlat s.cur .write (s.lsVa [b, a] o n) n = (.ok p, s1) →
      let data := fun (j : Nat) => BitVec.ofNat 8 ((s.src [b, a] 1).toNat / 256 ^ j)
      let here := fun (k : Nat) => p.key ≤ k ∧ k < p.key + n
      s.Walked s1 ∧
      (∀ c, s.cur.l1? p = some c → s1.writeBadBy s.cur p n = false →
        let u := s1.l1Room c p.key n
        ((s1.l1Of c).dirty.length < 256 → u = s1) ∧
        ∃ s2 t, exec i s = .next t ∧ Done s2 t [b, a] 0 0 ∧ s2 = { u with l1 := s2.l1 } ∧
          (∀ d, d ≠ c → s2.l1Of d = u.l1Of d) ∧
          (∀ k, here k → tget (s2.l1Of c).dirty k = some (data (k - p.key)) ∧ tget (s2.l1Of c).clean k = none) ∧
          (∀ k, ¬ here k → tget (s2.l1Of c).dirty k = tget (u.l1Of c).dirty k) ∧
          ∃ c1 : L1, Filled u (u.l1Of c) c1 p.key n ∧
            ∀ k, ¬ here k → tget (s2.l1Of c).clean k = tget c1.clean k) ∧
      (s.cur.l1? p = none → isIo p.key = false → s1.cutKey p.key = false → writeBad s1 p.key n = false →
        ∃ s2 t, exec i s = .next t ∧ Done s2 t [b, a] 0 0 ∧
          s2 = { s1 with mem := s2.mem, bad := s2.bad, harts := s2.harts } ∧
          (isScratch p.key = false → s2.harts = s1.harts) ∧
          (∀ h, s2.hart h = { s1.hart h with r := { (s1.hart h).r with dirty := (s2.hart h).r.dirty } }) ∧
          ∀ k, (here k → t.byteOf k = data (k - p.key)) ∧ (¬ here k → t.byteOf k = s1.byteOf k)) ∧
      (s.cur.l1? p = none → isIo p.key = true → ∃ t, exec i s = .next t ∧
        Done (s1.ioStore p.key ((List.range n).map data)) t [b, a] 0 0) ∧
      (s.cur.l1? p = none → isIo p.key = false → s1.cutKey p.key = true → writeBad s1 p.key n = false → ∃ t, exec i s = .next t ∧
        Done (s1.raiseIp 5) t [b, a] 0 0) ∧
      (s.cur.l1? p ≠ none ∨ isIo p.key = false → s1.writeBadBy s.cur p n = true →
        exec i s = .next (s1.countUncorr.raiseAcc .uncorr (BitVec.ofNat 64 (s.lsVa [b, a] o n)) 1))) ∧
    ∀ c s1, s.aXlat s.cur .write (s.lsVa [b, a] o n) n = (.error c, s1) →
      exec i s = .next (s1.raiseAcc c (BitVec.ofNat 64 (s.lsVa [b, a] o n)) 1)

/-- R116, R117, R235: an access outside every range is BOUNDS and a misaligned one ALIGN, in this order; an aligned access to a
hart's own scratch allocation is not translated and goes to the bay's scratchpad; neither changes the state. R132, R133: a
paged translation changes nothing but the accessed and dirty bits of the leaf that the walk of its address finds, dirty only
by an access that the leaf lets write, the translation cache, and the count of errors met in the tables. The first write
through a clean entry reads the leaf again (log 82). -/
def Obligations.AddressChecks : Prop :=
  (∀ (s : State) (ag : Agent) (k : Acc) (va n : Nat), 0 < n →
     (s.placeOf ag va n = .bounds → s.aXlat ag k va n = (.error .bounds, s)) ∧
     (s.placeOf ag va n ≠ .bounds → va % n ≠ 0 → s.aXlat ag k va n = (.error .align, s)) ∧
     (2 ^ 47 < va + n → ag.hart? = none → s.aXlat ag k va n = (.error .bounds, s)) ∧
     (va + n ≤ 2 ^ 47 → va % n = 0 → s.aXlat ag k va n = s.paged ag k va) ∧
     ∀ h, ag.hart? = some h → ∀ o, va = ownBase + o → o < 2 ^ 23 →
       (o + n ≤ (s.hart h).r.bound → va % n = 0 → s.aXlat ag k va n =
         (.ok ⟨scratchKey (bayOf h) ((s.hart h).r.alloc + (s.hart h).r.base + o), false⟩, s)) ∧
       ((s.hart h).r.bound < o + n → s.aXlat ag k va n = (.error .bounds, s))) ∧
  (∀ (s : State) (ag : Agent) (k : Acc) (va n : Nat), s.SameButXlat ag k va (s.aXlat ag k va n).2) ∧
  -- what those two changes of memory are: bits of one dword, and one count
  ∀ (s : State) (at_ b j : Nat), (j < at_ ∨ at_ + 8 ≤ j → (s.orPte at_ b).byteOf j = s.byteOf j) ∧
    (b < 2 ^ 64 → (s.orPte at_ b).nat at_ 8 = s.nat at_ 8 ||| b) ∧
    (j < cbAddr 0x098 ∨ cbAddr 0x0A0 ≤ j → s.countUncorr.byteOf j = s.byteOf j) ∧
    s.countUncorr.nat (cbAddr 0x098) 8 = (s.nat (cbAddr 0x098) 8 + 1) % 2 ^ 64

/-- R124, R125, R237, R238: an atomic answers the old dword and writes the new one at its home at once, its line gone from the
bay's L1 first; AMO.CAS writes only where the old value is what field a held. One with .AR is a release at ASCOPE before that and
an acquire after it. One of the I/O-die space or of a host DEVICE page traps SCOPE, and one whose translation fails its cause. -/
def Obligations.Atomics : Prop :=
  ∀ i a b c f, amoRow i = some (a, b, c, f) → ∀ s : State, s.Ready i [b, c] [a] →
    let va := s.src [b, c] 0
    let sc := if amoAr i = true then s.ascope else 0
    (∀ e s1, s.aXlat s.cur .atomic va.toNat 8 = (.error e, s1) → exec i s = .next (s1.raiseAcc e va 3)) ∧
    ∀ p s1, s.aXlat s.cur .atomic va.toNat 8 = (.ok p, s1) → s.Walked s1 ∧
      let no := isIo p.key || (isHost p.key && p.dev)
      let s2 := (s1.releaseBy s.cur sc).amoFlush s.cur p
      (no = true → exec i s = .next (s1.raiseAcc .scope va 3)) ∧
      (no = false → s2.cutKey p.key = false → readBad s2 p.key 8 = false → writeBad s2 p.key 8 = false →
        ∃ (s3 t : State) (old : W64), exec i s = .next t ∧ Done (s3.acquireBy s.cur sc) t [b, c] a old ∧
          s3 = { s2 with mem := s3.mem, bad := s3.bad, harts := s3.harts } ∧
          (∀ h, s3.hart h = { s2.hart h with r := { (s2.hart h).r with dirty := (s3.hart h).r.dirty } }) ∧
          (∀ j, j < 8 → BitVec.ofNat 8 (old.toNat / 256 ^ j) = s2.byteOf (p.key + j)) ∧
          ∀ j, t.byteOf j = match f old (s.src [b, c] 1) (s.aSrc a 0) with
            | some w => if p.key ≤ j ∧ j < p.key + 8 then BitVec.ofNat 8 (w.toNat / 256 ^ (j - p.key)) else s2.byteOf j
            | none => s2.byteOf j)

/-- R239: a branch goes to its own address plus four times its displacement where its condition holds, and to the next
instruction where it does not; in an E-stream its sources are z and A→E queues. R240, R241: J goes to its address plus four times its displacement and JR to the sum of its base and its immediate;
both write the address of the next instruction; JR traps ALIGN at a target that is no multiple of 4; in an E-stream J
writes no link. -/
def Obligations.BranchesAndJumps : Prop :=
  ((∀ w : Word32, majorOf w = 0x0D → 6 ≤ (slice w 9 3).toNat → decode w = .noMinor) ∧
   (∀ i b c o p, branchRow i = some (b, c, o, p) → ∀ s : State, s.cur.isE = true → s.gateFail i = none →
     ∀ d, d = b ∨ d = c → d = 0 ∨ 4 ≤ d.toNat ∧ d.toNat < 8) ∧
   (∀ (a : RCode) (o : BitVec 19) (s : State), s.cur.isE = true → s.gateFail (.j a o) = none → a = 0)) ∧
  ((∀ i b c o p, branchRow i = some (b, c, o, p) → ∀ s : State, s.Ready i [b, c] [] → s.cur.isE = false →
     (p (s.src [b, c] 0) (s.src [b, c] 1) → ∃ t, exec i s = .next t ∧
       DoneAt s t [b, c] 0 0 (s.pcOf s.cur + BitVec.ofInt 64 (4 * o.toInt))) ∧
     (¬ p (s.src [b, c] 0) (s.src [b, c] 1) → ∃ t, exec i s = .next t ∧ Done s t [b, c] 0 0)) ∧
   ∀ i b c o p, branchRow i = some (b, c, o, p) → ∀ (s : State) (h : Nat) (vals : List VReg), s.cur = .eStream h →
     s.gateFail i = none → (s.hart h).e.Fresh → popsOf (s.hart h).r.ae [] [b, c] [] = .ready vals →
     ∃ t x y, exec i s = .next t ∧ s.SameElsewhere t ∧ SameE (s.hart h) (t.hart h) ∧
       (b = 0 → x = 0) ∧ (c = 0 → y = 0) ∧
       (b ≠ 0 → x = (vals.getD 0 0).setWidth 64) ∧ (c ≠ 0 → y = (vals.getD (if b = 0 then 0 else 1) 0).setWidth 64) ∧
       (p x y → (t.hart h).e.pc = (s.hart h).e.pc + BitVec.ofInt 64 (4 * o.toInt)) ∧
       (¬ p x y → (t.hart h).e.pc = (s.hart h).e.pc + 4) ∧
       (t.hart h).a.instret = (s.hart h).a.instret + 1 ∧
       (∀ q, q < 4 → t.aeOf h q = (s.aeOf h q).drop (portCount q [b, c])) ∧
       (t.hart h).r.ea = (s.hart h).r.ea ∧ (t.hart h).e.main = (s.hart h).e.main ∧ (t.hart h).e.o = (s.hart h).e.o ∧
       (t.hart h).e.l = (s.hart h).e.l ∧ (t.hart h).e.mask = (s.hart h).e.mask ∧
       (t.hart h).e.fflags = (s.hart h).e.fflags ∧ (t.hart h).e.vstart = (s.hart h).e.vstart) ∧
  ((∀ (a : RCode) (o : BitVec 19) (s : State), s.Ready (.j a o) [] [a] → s.cur.isE = false → ∃ t, exec (.j a o) s = .next t ∧
     DoneAt s t [] a (s.pcOf s.cur + 4) (s.pcOf s.cur + BitVec.ofInt 64 (4 * o.toInt))) ∧
   (∀ (a : RCode) (o : BitVec 19) (s : State) (h : Nat), s.cur = .eStream h → s.gateFail (.j a o) = none →
     ∃ t, exec (.j a o) s = .next t ∧ s.SameElsewhere t ∧ SameE (s.hart h) (t.hart h) ∧
       (t.hart h).e.pc = (s.hart h).e.pc + BitVec.ofInt 64 (4 * o.toInt) ∧
       (t.hart h).r = (s.hart h).r ∧ (t.hart h).e.main = (s.hart h).e.main ∧ (t.hart h).e.l = (s.hart h).e.l) ∧
   ∀ (a b : RCode) (n : BitVec 12) (s : State), s.Ready (.jr a b n) [b] [a] →
     let tgt := s.src [b] 0 + BitVec.ofInt 64 n.toInt
     (tgt.toNat % 4 = 0 → ∃ t, exec (.jr a b n) s = .next t ∧ DoneAt s t [b] a (s.pcOf s.cur + 4) tgt) ∧
     (tgt.toNat % 4 ≠ 0 → exec (.jr a b n) s = .next (s.raise .align tgt)))

/-- R105, R106, R107, R109, R110, R111, R112, R242, R414: which register a CSR number names, for a step and for a plate core, and
what a CSR instruction with that number does. CSRRD answers the register. A write changes only bits that software may write, bit by
bit as its kind says; a read after it finds what it wrote, and no other number reads differently, but SNAPDATA after a write of SNAPSEL
and FEAT after the first write of FEATACK, which accepts a subset of FEATCAP; a later one changes nothing. A write of VSTART while the E-stream stands inside an
instruction takes effect on what that leaves there. An agent that may not reach a number traps: a step PRIV from 0x200 up, whether
or not R112 lists the number (log 77), and at RBASE, and ILLOP at a number that no table lists; a plate core ILLOP. A write that
would leave scope code 7 in ASCOPE or ESCOPE without the pod feature traps FEATURE. -/
def Obligations.CsrAccess : Prop :=
  (∀ (s : State) (h : Nat), s.cur = .aStream h → ∀ x ∈ stepCsrs s h, s.csrGet x.1 = x.2) ∧
  (∀ (s : State) (p : Nat), s.cur = .plate p → ∀ x ∈ plateCsrs s p, s.csrGet x.1 = x.2) ∧
  (∀ (s : State) (ag : Agent) (n : Nat),
    (ag.isPlate = false → csrDeny ag n = if 0x200 ≤ n ∨ n = 0x012 then some .priv
      else if n = 0x08F ∨ n ∈ (stepCsrs s 0).map (·.1) then none else some .illop) ∧
    (ag.isPlate = true → csrDeny ag n = if n ∈ (plateCsrs s 0).map (·.1) then none else some .illop)) ∧
  (∀ (a : RCode) (n : BitVec 10) (s : State), s.Ready (.csrrd a n) [] [a] →
    (∀ c, csrDeny s.cur n.toNat = some c → exec (.csrrd a n) s = .next (s.raise c (evalOf (.csrrd a n)))) ∧
    (csrDeny s.cur n.toNat = none → n ≠ 0x08F → ∃ t, exec (.csrrd a n) s = .next t ∧ Done s t [] a (s.csrGet n.toNat))) ∧
  (∀ i b n op, csrRow i = some (b, n, op) → ∀ s : State, s.Ready i [b] [] →
    (∀ c, csrDeny s.cur n = some c → exec i s = .next (s.raise c (evalOf i))) ∧
    (csrDeny s.cur n = none → ∀ v : W64,
      (∀ k, k < 64 → v.getLsbD k = csrBit op ((rwBits s.cur.isPlate n).testBit k) ((w1cBits n).testBit k)
        ((s.csrGet n).getLsbD k) ((s.src [b] 0).getLsbD k)) →
      let pod := (n = 0x020 ∨ n = 0x021) ∧ v.toNat % 8 = 7 ∧ s.has .pod = false
      (pod → exec i s = .next (s.raise .feature (evalOf i))) ∧
      (¬ pod → n ≠ 0x042 → ∃ t, exec i s = .next t ∧ Done (s.csrPut n v) t [b] 0 0) ∧
      (∀ h, s.cur = .aStream h → n = 0x042 → ∃ (e : ERegs) (t : State), exec i s = .next t ∧
        Done (s.modE h fun _ => e) t [b] 0 0 ∧ e = { (s.hart h).e with vstart := e.vstart, vsw := e.vsw } ∧
        ((s.hart h).e.prog = none → (s.hart h).e.vsw = none → e.vstart = v.toNat % 4096 ∧ e.vsw = none) ∧
        ((s.hart h).e.prog ≠ none ∨ (s.hart h).e.vsw ≠ none → e.vstart = (s.hart h).e.vstart ∧ ∀ n k, k < 12 →
          (vstartAfter e.vsw n).testBit k = csrBit op true false
            ((vstartAfter (s.hart h).e.vsw n).testBit k) ((s.src [b] 0).getLsbD k))))) ∧
  -- what a write leaves in the registers
  (∀ (s : State) (n m : Nat) (v : W64), csrDeny s.cur n = none → s.cur.isE = false →
    (∀ k, k < 64 → (rwBits s.cur.isPlate n).testBit k = false → (w1cBits n).testBit k = false →
      v.getLsbD k = (s.csrGet n).getLsbD k) →
    let t := s.csrPut n v
    { t with harts := s.harts, plates := s.plates, preg := s.preg } = s ∧
    (n ≠ 0x201 → t.csrGet n = v) ∧
    (n = 0x201 → (s.preg.featack = none → t.csrGet 0x201 = v &&& s.csrGet 0x200 ∧ t.csrGet 0x002 = t.csrGet 0x201) ∧
      (s.preg.featack ≠ none → t = s)) ∧
    (m ≠ n → ¬ (n = 0x201 ∧ m = 0x002) → ¬ (n = 0x221 ∧ m = 0x222) → t.csrGet m = s.csrGet m)) ∧
  -- the bits that software may write: those of the fields of kind rw, and those that a 1 clears
  ∀ (plate : Bool) (n : Nat),
    (∀ f ∈ csrFields plate, ∀ k, f.1 = n → (rwBits plate n).testBit k = decide (k ∈ f.2)) ∧
    ((∀ f ∈ csrFields plate, f.1 ≠ n) → (csrDeny (if plate then .plate 0 else .aStream 0) n = none → rwBits plate n = 0)) ∧
    ∀ k, (w1cBits n).testBit k = decide (n = 0x210 ∧ k < 7 ∨ n = 0x220 ∧ k = 3)
/-! The checks before an instruction, taking an exception, and the system instructions. -/

/-- R219: an instruction that fails a check of its stream, privilege, feature or fields traps with that cause and with its
word in EVAL, and does nothing else. R215, R217: for every word of the opcode map, what it traps with in each stream, and the FEAT
bit it needs. R219: the order and the causes of those checks. A plate core's instruction is PRIV in an A-stream and
STREAM in an E-stream; an E-stream's instruction is STREAM elsewhere, as an A-stream's is in an E-stream; STEPEND is ILLOP
on a plate core; only then a feature that is not accepted is FEATURE; and only then a field code that the stream does not
accept is ILLOP. -/
def Obligations.InstructionGate : Prop :=
  (∀ (i : Instr) (c : Cause) (s : State), i.isEvent = false → s.gateFail i = some c →
     exec i s = .next (s.raise c (evalOf i))) ∧
  (∀ (w : Word32) (i : Instr) (s : State) (h p : Nat), decode w = .instr i →
    let v := streamRow s.curTruss w
    (s.cur = .aStream h → ∀ c, v.1 = some c → s.gateFail i = some c) ∧
    (s.cur = .eStream h → ∀ c, v.2.1 = some c → s.gateFail i = some c) ∧
    (s.cur = .plate p → ∀ c, v.2.2 = some c → s.gateFail i = some c) ∧
    (s.cur = .aStream h ∧ v.1 = none ∨ s.cur = .eStream h ∧ v.2.1 = none ∨ s.cur = .plate p ∧ v.2.2 = none →
      (∀ f, featureRow w = some f → s.has f = false → s.gateFail i = some .feature) ∧
      ((∀ f, featureRow w = some f → s.has f = true) →
        (i.fieldsOk s.cur.isE = true → s.gateFail i = none) ∧ (i.fieldsOk s.cur.isE = false → s.gateFail i = some .illop)))) ∧
  ((∀ (i : Instr) (s : State) (h p : Nat),
     (i.streamClass = .plateOnly → s.cur = .aStream h → s.gateFail i = some .priv) ∧
     (i.streamClass = .plateOnly → s.cur = .eStream h → s.gateFail i = some .stream) ∧
     (i.streamClass = .eOnly → s.cur = .aStream h → s.gateFail i = some .stream) ∧
     (i.streamClass = .eOnly → s.cur = .plate p → s.gateFail i = some .stream) ∧
     (i.streamClass = .aAll → s.cur = .eStream h → s.gateFail i = some .stream) ∧
     (s.cur = .plate p → s.gateFail .stepend = some .illop) ∧
     (classVerdict i.streamClass s.cur s.curTruss = none → (∃ f ∈ i.features, s.has f = false) → s.gateFail i = some .feature) ∧
     (classVerdict i.streamClass s.cur s.curTruss = none → (∀ f ∈ i.features, s.has f = true) →
       i.fieldsOk s.cur.isE = false → s.gateFail i = some .illop)) ∧
   (∀ a b c : RCode, [Instr.qmap a b c, .qunmap a b, .qsave a b, .qload a b, .tlbir b c, .vttset a b c, .preset a b,
     .presume b c, .kickclr b c, .wfi, .halt].map Instr.streamClass = List.replicate 11 .plateOnly))

/-- R386, R387, R388: an A-stream's trap whose cause its handler takes, with ETVEC set and aligned and no handler running,
saves the pc, the cause and the values, sets HND, and goes on at ETVEC; a GLAUNCH it stands in starts anew. Every other register
and all else is as before. R248: a plate core's trap saves the pc, the cause and EVAL, and goes on at ETVEC, or halts where ETVEC
is 0 or no multiple of 4; HND stays 0 there (log 12). ECALL and EBREAK trap with their cause, EPC their own address and EVAL 0;
where the handler takes the trap, it runs next. ERET goes to EPC and ends the handler, or traps ALIGN with EPC in EVAL. -/
def Obligations.TrapEntry : Prop :=
  (∀ (s : State) (h : Nat) (i : TrapInfo),
     handlerOk (s.hart h).id.etvec ((s.hart h).a.ecause.getLsbD 9) i.cause = true →
     let t := s.trap (.aStream h) i
     let a := (s.hart h).a
     t = s.setHart h (t.hart h) ∧
     t.hart h = { s.hart h with a := { a with
       gsnap := none, epc := a.pc, ecause := BitVec.ofNat 64 (i.cause.code + 512), eval := i.eval, elaunch := i.elaunch, etid := i.etid,
       eelem := i.eelem, pc := (s.hart h).id.etvec.setWidth 64, wait := .none, ended := false } }) ∧
  (∀ (s : State) (p : Nat) (i : TrapInfo), let c := s.plate p
     let t := s.trap (.plate p) i
     (c.etvec ≠ 0 → c.etvec.toNat % 4 = 0 → t = s.modPlate p fun c => { c with
       gsnap := none, epc := c.pc, ecause := BitVec.ofNat 64 i.cause.code, eval := i.eval, pc := c.etvec }) ∧
     (c.etvec = 0 ∨ c.etvec.toNat % 4 ≠ 0 → t = s.modPlate p fun c => { c with
       gsnap := none, epc := c.pc, ecause := BitVec.ofNat 64 i.cause.code, eval := i.eval, run := .halted })) ∧
  (∀ s : State, s.gateFail .ecall = none → exec .ecall s = .next (s.trap s.cur ⟨.ecall, 0, 0, 0, 0, 0⟩)) ∧
  (∀ s : State, s.gateFail .ebreak = none → exec .ebreak s = .next (s.trap s.cur ⟨.ebreak, 0, 0, 0, 0, 0⟩)) ∧
  (∀ (s : State) (h : Nat), s.cur = .aStream h → s.gateFail .ecall = none → (s.hart h).id.etvec ≠ 0 →
    (s.hart h).id.etvec.toNat % 4 = 0 → (s.hart h).a.ecause.getLsbD 9 = false →
    ∃ t, exec .ecall s = .next t ∧ t.pcOf s.cur = (s.hart h).id.etvec.setWidth 64 ∧ t.epcOf s.cur = s.pcOf s.cur ∧
      (t.hart h).a.ecause = BitVec.ofNat 64 (20 + 512) ∧ (t.hart h).a.x = (s.hart h).a.x ∧ t.mem = s.mem) ∧
  ∀ s : State, s.gateFail .eret = none →
    ((s.epcOf s.cur).toNat % 4 ≠ 0 → exec .eret s = .next (s.raise .align (s.epcOf s.cur))) ∧
    ((s.epcOf s.cur).toNat % 4 = 0 → ∃ t, exec .eret s = .next t ∧ t.pcOf s.cur = s.epcOf s.cur ∧
      t.instretOf s.cur = s.instretOf s.cur + 1 ∧ (∀ n, t.regOf s.cur n = s.regOf s.cur n) ∧ t.mem = s.mem ∧
      s.SameElsewhere t ∧ ∀ h, s.cur = .aStream h → (t.hart h).a.ecause = (s.hart h).a.ecause &&& ~~~512#64)

/-- R114, R149, R387, R389, R390, R392: any other trap writes the trap registers and is a fault of the step; an E-stream first
shows in VSTART how far its instruction has come, or gives back what it popped. A cause that the region marks for a snapshot
triggers one. PFAULT asks for a park whatever the policy, after the trap registers and the snapshot (log 30); policy PARK asks
for a park, except of TIMEOUT, which ends the step FAILED; policy RESET logs the fault and asks for the domain's reset; policy
STOP ends the step FAILED. -/
def Obligations.FaultPolicy : Prop :=
  ∀ (s : State) (h : Nat) (i : TrapInfo), let a := (s.hart h).a
    let regs := fun (pc : W64) (e : Bool) => { a with
      gsnap := none, epc := pc, ecause := BitVec.ofNat 64 (i.cause.code + (if e then 256 else 0) + (if a.ecause.getLsbD 9 then 512 else 0)),
      eval := i.eval, elaunch := i.elaunch, etid := i.etid, eelem := i.eelem }
    (handlerOk (s.hart h).id.etvec (a.ecause.getLsbD 9) i.cause = false →
      s.trap (.aStream h) i = (s.modA h fun _ => { regs a.pc false with wait := .none }).stepFault h a.pc i) ∧
    s.trap (.eStream h) i =
      (((s.modHart h Hart.stopE).modA h fun _ => regs (s.hart h).e.pc true).modE h fun e => { e with wait := .none }).stepFault h
        (s.hart h).e.pc i ∧
    (∀ v : Hart, (∀ p, v.e.prog = some p → 0 < p.elem → v.stopE.e = { v.e with vstart := p.elem, kept := true, prog := none } ∧
        v.stopE.r = v.r) ∧
      (v.e.prog = none → v.e.kept = false → v.stopE = v) ∧
      (v.e.prog = none → v.e.kept = true → v.e.vstart = 0 → v.stopE.e.kept = false ∧ v.stopE.e.reserved = none ∧
        ∀ q, v.e.latchQ = List.replicate v.e.latch.length q →
          tgetD v.stopE.r.ae q [] = v.e.latch.map AEntry.full ++ tgetD v.r.ae q [])) ∧
    ∀ pc, let u := if (s.hart h).id.capture.getLsbD i.cause.code then s.snapTrigger else s
      let ask := fun (x : State) (r : ParkReq) => x.modR h fun v => { v with pend := some r, presumed := false }
      (i.cause = .pfault → s.stepFault h pc i = ask u ⟨0, .pfault, i.eval, i.acc⟩) ∧
      (i.cause ≠ .pfault → (s.hart h).id.policy = 1 → i.cause ≠ .timeout → s.stepFault h pc i = ask u ⟨0, i.cause, pc, 2⟩) ∧
      (i.cause = .timeout → (s.hart h).id.policy = 1 → s.stepFault h pc i = u.failStep h .timeout) ∧
      (i.cause ≠ .pfault → (s.hart h).id.policy = 2 →
        s.stepFault h pc i = ask (u.logStep h i.cause) ⟨3, i.cause, pc, 2⟩) ∧
      (i.cause ≠ .pfault → (s.hart h).id.policy ≠ 1 → (s.hart h).id.policy ≠ 2 → s.stepFault h pc i = u.failStep h i.cause)

/-- R244, R245: FENCE.VV, and any fence of a plate core, completes at once; the other fences of a hart stand until its
streams both stand at one, and then FENCE_PAIR_COMPLETE completes both together. R124: where the pair orders the A-stream's side
before the E-stream's, at TRUSS or wider, the bay's L1 writes back; where it orders the other way, the L1 drops its clean lines.
A row in flight is not waited for (log 88). -/
def Obligations.Fences : Prop :=
  (∀ (sc : BitVec 3) (s : State) (h : Nat), s.cur = .eStream h → s.gateFail (.fenceVv sc) = none →
    (s.hart h).m.rowTraps = [] → ∃ t, exec (.fenceVv sc) s = .next t ∧ t = s.setHart h (t.hart h) ∧
      SameE (s.hart h) (t.hart h) ∧ (t.hart h).e.pc = (s.hart h).e.pc + 4 ∧ (t.hart h).e.main = (s.hart h).e.main ∧
      (t.hart h).r = (s.hart h).r ∧ (t.hart h).e.fflags = (s.hart h).e.fflags) ∧
  (∀ (sc : BitVec 3) (s : State) (p : Nat), s.cur = .plate p → s.gateFail (.fenceAll sc) = none →
    exec (.fenceAll sc) s = .next (s.modPlate p fun c => { c with pc := c.pc + 4, instret := c.instret + 1 })) ∧
  (∀ i k sc, (i = .fenceSv sc ∧ k = 0) ∨ (i = .fenceVs sc ∧ k = 1) ∨ (i = .fenceAll sc ∧ k = 3) → ∀ (s : State) (h : Nat),
    s.gateFail i = none →
    (s.cur = .aStream h → exec i s = .next (s.modA h fun a => { a with wait := .fence k sc })) ∧
    (s.cur = .eStream h → (s.hart h).m.rowTraps = [] →
      exec i s = .next (s.modE h fun e => { e with wait := .fence k sc }))) ∧
  ∀ (s : State) (k l : Nat) (sc sd : BitVec 3), let h := s.ev.n
    (s.hart h).occ = true → (s.hart h).a.ended = false → (s.hart h).e.ended = false →
    (s.hart h).a.wait = .fence k sc → (s.hart h).e.wait = .fence l sd →
    let w := min sc.toNat sd.toNat
    let r := if (k = 0 ∨ k = 3 ∨ l = 0 ∨ l = 3) ∧ 2 ≤ w then s.l1Release h else s
    let u := if (k = 1 ∨ k = 3 ∨ l = 1 ∨ l = 3) ∧ 2 ≤ w then r.l1Acquire h else r
    ∃ t, exec .fencePairComplete s = .next t ∧ t = u.setHart h (t.hart h) ∧
      (t.hart h).a = { (s.hart h).a with pc := (s.hart h).a.pc + 4, wait := .none, instret := (s.hart h).a.instret + 2 } ∧
      (t.hart h).e.pc = (s.hart h).e.pc + 4 ∧ (t.hart h).e.wait = .none ∧ (t.hart h).r = (s.hart h).r ∧
      (t.hart h).e.main = (s.hart h).e.main ∧ (t.hart h).e.mask = (s.hart h).e.mask

/-- R114, R249, R250, R254, R255: WFI stands until an enabled interrupt is pending; HALT stops the core at the next
instruction; STEPEND ends its stream at its own address; SNAP latches the snapshot only where SNAPCTL arms it for users;
SETSCOPE sets the two scopes, and traps FEATURE for the pod scope without the feature. R330: a hart arrives at TBAR, or stands at RROT with its operands unread; once the eight A-streams of its truss step
stand so, TRUSS_BARRIER_RELEASE completes all eight, and after an RROT each has taken the value of the hart at its
distance; R124: an arrival writes its bay's L1 back, and the release of a TBAR drops the clean lines. That a plate core's SNAP
triggers too is the model's choice (log 89). -/
def Obligations.SystemInstructions : Prop :=
  ((∀ (s : State) (p : Nat), s.cur = .plate p → s.gateFail .wfi = none →
     (s.preg.ipend &&& s.preg.ien ≠ 0 → exec .wfi s = .next (s.modPlate p fun c =>
       { c with run := .running, pc := c.pc + 4, instret := c.instret + 1 })) ∧
     (s.preg.ipend &&& s.preg.ien = 0 → exec .wfi s = .next (s.modPlate p fun c => { c with run := .wfi }))) ∧
   (∀ (s : State) (p : Nat), s.cur = .plate p → s.gateFail .halt = none → exec .halt s = .next (s.modPlate p fun c =>
       { c with run := .halted, pc := c.pc + 4, instret := c.instret + 1 })) ∧
   (∀ (s : State) (h : Nat), s.gateFail .stepend = none →
     (s.cur = .aStream h → exec .stepend s = .next (s.modA h fun a =>
       { a with ended := true, wait := .none, instret := a.instret + 1 })) ∧
     (s.cur = .eStream h → (s.hart h).m.rowTraps = [] → ∃ t, exec .stepend s = .next t ∧ t = s.setHart h (t.hart h) ∧
       (t.hart h).e.ended = true ∧ (t.hart h).e.pc = (s.hart h).e.pc ∧ (t.hart h).r = (s.hart h).r ∧
       (t.hart h).e.main = (s.hart h).e.main ∧ (t.hart h).a.instret = (s.hart h).a.instret + 1)) ∧
   (∀ s : State, s.gateFail .snap = none →
     exec .snap s = .next (if s.preg.armed = true ∧ s.preg.useren = true then s.snapLatch.advance else s.advance)) ∧
   ∀ (b : RCode) (s : State), s.Ready (.setscope b) [b] [] → let v := s.src [b] 0
     (s.has .pod = true ∨ v.toNat % 8 ≠ 7 ∧ (s.cur.hart? = none ∨ v.toNat / 8 % 8 ≠ 7) →
       (∀ h, s.cur = .aStream h → ∃ t, exec (.setscope b) s = .next t ∧ Done
         (s.modA h fun a => { a with ascope := BitVec.ofNat 3 v.toNat, escope := BitVec.ofNat 3 (v.toNat / 8) }) t [b] 0 0) ∧
       ∀ p, s.cur = .plate p → ∃ t, exec (.setscope b) s = .next t ∧ Done
         (s.modPlate p fun c => { c with ascope := BitVec.ofNat 3 v.toNat }) t [b] 0 0) ∧
     (s.has .pod = false → v.toNat % 8 = 7 ∨ s.cur.hart? ≠ none ∧ v.toNat / 8 % 8 = 7 →
       exec (.setscope b) s = .next (s.raise .feature (evalOf (.setscope b))))) ∧
  ((∀ (s : State) (h : Nat), s.cur = .aStream h → s.gateFail .tbar = none →
     exec .tbar s = .next ((if (s.hart h).a.tbarrived then s else s.l1Release h).modA h fun a =>
       { a with tbarrived := true, wait := .tbar })) ∧
   (∀ (a b c : RCode) (s : State) (h : Nat), s.cur = .aStream h → s.Ready (.rrot a b c) [b, c] [a] →
     exec (.rrot a b c) s = .next (s.modA h fun r => { r with wait := .rrot a b c })) ∧
   ∀ s : State, let hs := s.trussStep s.ev.n
     hs ≠ [] →
     ((∀ h ∈ hs, (s.hart h).a.wait = .tbar ∧ (s.hart h).a.ended = false) → ∃ t, exec .trussBarrierRelease s = .next t ∧
       (∀ h, h ∉ hs → t.hart h = s.hart h) ∧ t.mem = s.mem ∧ (∀ h ∈ hs, (t.l1Of (bayOf h)).clean = []) ∧ ∀ h ∈ hs, t.hart h = { s.hart h with a := { (s.hart h).a with
         pc := (s.hart h).a.pc + 4, wait := .none, tbarrived := false, instret := (s.hart h).a.instret + 1 } }) ∧
     ∀ f : Nat → RCode × RCode × RCode,
       (∀ h ∈ hs, (s.hart h).a.wait = .rrot (f h).1 (f h).2.1 (f h).2.2 ∧ (s.hart h).a.ended = false ∧
         ((f h).1 = 0 ∨ 4 ≤ (f h).1.toNat)) →
       let own := fun (h j : Nat) => ({ s with cur := .aStream h } : State).src [(f h).2.1, (f h).2.2] j
       ∃ t, exec .trussBarrierRelease s = .next t ∧ (∀ h, h ∉ hs → t.hart h = s.hart h) ∧
         ∀ k h, hs[k]? = some h → let v := own (hs.getD ((k + (own h 1).toNat % 8) % 8) 0) 0
           (t.hart h).a.pc = (s.hart h).a.pc + 4 ∧ (t.hart h).a.wait = .none ∧
           (∀ n, tgetD (t.hart h).a.x n 0 = if 8 ≤ n ∧ (f h).1.toNat = n then v else tgetD (s.hart h).a.x n 0) ∧
           ∀ q, q < 4 → t.eaOf h q = (s.eaOf h q).drop (portCount q [(f h).2.1, (f h).2.2]) ∧
             t.aeOf h q = s.aeOf h q ++ if (f h).1.toNat = q + 4 then [.full (v.setWidth 1024)] else [])
/-! Vector instructions (R265..R285). -/

/-- R275, R283, R285: the element-wise integer instructions. The computed elements take the result of their row, every other
element is as before (for l0, and in an entry pushed by a port, 0), no flag is raised. -/
def Obligations.VectorInteger : Prop :=
  (∀ i a b c m f, vecRow2 i = some (a, b, c, m, f) → ∀ (s : State) (h : Nat) (vals : List VReg), s.EReady h i (s.opV h clsI [b, c] a) vals →
    ∃ t, exec i s = .next t ∧
      let x := s.sees h (s.opV h clsI [b, c] a) vals
      EDone s t h (s.opV h clsI [b, c] a) 0 (x.map m fun k => f x.e.fmt.toNat x.e.w (x.el 0 k) (x.el 1 k))) ∧
  (∀ i a b m any f, vecRow1 i = some (a, b, m, any, f) → ∀ (s : State) (h : Nat) (vals : List VReg),
    let op := s.opV h (if any then clsA else clsI) [b] a
    s.EReady h i op vals → ∃ t, exec i s = .next t ∧
      let x := s.sees h op vals
      EDone s t h op 0 (x.map m fun k => f x.e.w (x.el 0 k))) ∧
  ∀ i a m f, vecRow0 i = some (a, m, f) → ∀ (s : State) (h : Nat) (vals : List VReg), s.EReady h i (s.opV h clsI [] a) vals →
    ∃ t, exec i s = .next t ∧
      let x := s.sees h (s.opV h clsI [] a) vals
      EDone s t h (s.opV h clsI [] a) 0 (x.map m fun k => f x.e.w k)

/-- R276: the floating instructions of VTYPE's format, where no computed element raises an enabled flag: each computed
element takes its result, and FFLAGS accrues the flags of all of them. R72, R73: a sum, product, quotient or root of numbers is the
exact one rounded once, with its flags; a NaN result is the canonical NaN, with NV for a signalling source and for an invalid
operation; a number divided by zero is infinite, with DZ; of one NaN and one number, VFMIN and VFMAX take the number. -/
def Obligations.VectorFloat : Prop :=
  (∀ fmt ∈ [6, 7, 8], ∀ mode < 4, let f := fsp fmt
    let inf := fun (n : Bool) => (if n then 2 ^ (f.eb + f.fb) else 0) + f.infBits
    let inv := (f.cnan, flNV)
    (∀ n1 m1 e1 n2 m2 e2 (p q : ℝ), let a := FVal.fin n1 m1 e1
      let b := FVal.fin n2 m2 e2
      a.Is p → b.Is q →
      f.Result mode (p + q) (if n1 = n2 then n1 else mode == 2) (fpAdd f mode a b) ∧
      f.Result mode (p * q) (n1 != n2) (fpMul f mode a b) ∧
      (q ≠ 0 → f.Result mode (p / q) (n1 != n2) (fpDiv f mode a b)) ∧
      (p ≠ 0 → q = 0 → fpDiv f mode a b = (inf (n1 != n2), flDZ)) ∧ (p = 0 → q = 0 → fpDiv f mode a b = inv) ∧
      ∀ n, fpAdd f mode a (.inf n) = (inf n, 0) ∧ fpAdd f mode (.inf n) b = (inf n, 0) ∧
        (p = 0 → fpMul f mode a (.inf n) = inv) ∧ (p ≠ 0 → fpMul f mode a (.inf n) = (inf (n1 != n), 0)) ∧
        fpDiv f mode (.inf n) b = (inf (n != n2), 0) ∧
        fpDiv f mode a (.inf n) = (if n1 = n then 0 else 2 ^ (f.eb + f.fb), 0)) ∧
    (∀ n, fpAdd f mode (.inf n) (.inf n) = (inf n, 0) ∧ fpAdd f mode (.inf n) (.inf !n) = inv ∧
      ∀ k, fpMul f mode (.inf n) (.inf k) = (inf (n != k), 0) ∧ fpDiv f mode (.inf n) (.inf k) = inv) ∧
    (∀ a b : FVal, a.isNan = true ∨ b.isNan = true → ∀ op ∈ [fpAdd f, fpMul f, fpDiv f],
      op mode a b = (f.cnan, if a.isSig = true ∨ b.isSig = true then flNV else 0)) ∧
    (∀ (x : Nat) (p : ℝ), (f.decode x).Is p → (0 < p → f.Result mode (Real.sqrt p) false (fpSqrt f mode (f.decode x))) ∧
      (p < 0 → fpSqrt f mode (f.decode x) = inv)) ∧
    ∀ (x y : Nat) (mx : Bool), let a := f.decode x
      let b := f.decode y
      let r := fpMinMax f mx x y
      (a.isNan = true → b.isNan = false → r = (y, if a.isSig then flNV else 0)) ∧
      (a.isNan = false → b.isNan = true → r = (x, if b.isSig then flNV else 0)) ∧
      (a.isNan = true → b.isNan = true → r = (f.cnan, if a.isSig = true ∨ b.isSig = true then flNV else 0)) ∧
      ∀ p q : ℝ, a.Is p → b.Is q → (p < q → r = (if mx then y else x, 0)) ∧ (q < p → r = (if mx then x else y, 0))) ∧
  (∀ i a b c m f, floatRow2 i = some (a, b, c, m, f) → ∀ (s : State) (h : Nat) (vals : List VReg),
    let op := s.opV h clsF [b, c] a
    let x := s.sees h op vals
    let r := fun k => f (fsp x.e.fmt.toNat) x.e.frm.toNat (x.el 0 k) (x.el 1 k)
    s.EReady h i op vals → x.quiet m (fun k => (r k).2) →
    ∃ t, exec i s = .next t ∧ EDone s t h op (x.flags m fun k => (r k).2) (x.map m fun k => (r k).1)) ∧
  ∀ a b m (s : State) (h : Nat) (vals : List VReg),
    let op := s.opV h clsF [b] a
    let x := s.sees h op vals
    let r := fun k => fpSqrt (fsp x.e.fmt.toNat) x.e.frm.toNat ((fsp x.e.fmt.toNat).decode (x.el 0 k))
    s.EReady h (.vfsqrt a b m) op vals → x.quiet m (fun k => (r k).2) →
    ∃ t, exec (.vfsqrt a b m) s = .next t ∧ EDone s t h op (x.flags m fun k => (r k).2) (x.map m fun k => (r k).1)

/-- R277, R285: the instructions that also read their destination: the fused multiply-adds round the product and the
accumulator once, VFMAW in an FP32 group of twice the size (where a source lies inside it, in one turn only within one group of
elements: see ClashingGroups), and VSEL picks each bit by the old destination's. R72, R73: what that
rounding gives, and the canonical NaN with NV for a signalling source, for zero times infinity of numbers, and for infinities that
cancel. -/
def Obligations.VectorThreeSource : Prop :=
  (∀ fmt ∈ [6, 7, 8], ∀ mode < 4, let f := fsp fmt
    (∀ n1 m1 e1 n2 m2 e2 n3 m3 e3 (p q r : ℝ), let a := FVal.fin n1 m1 e1
      let b := FVal.fin n2 m2 e2
      let c := FVal.fin n3 m3 e3
      a.Is p → b.Is q → c.Is r →
      f.Result mode (p * q + r) (if (n1 != n2) = n3 then n3 else mode == 2) (fpFma f mode a b c) ∧
      (∀ n, p = 0 → fpFma f mode a (.inf n) c = (f.cnan, flNV)) ∧
      ∀ n, p ≠ 0 → fpFma f mode a (.inf n) (.inf (n1 == n)) = (f.cnan, flNV)) ∧
    (∀ a b c : FVal, a.isNan = true ∨ b.isNan = true →
      fpFma f mode a b c = (f.cnan, if a.isSig = true ∨ b.isSig = true ∨ c.isSig = true then flNV else 0)) ∧
    ∀ n1 m1 e1 n2 m2 e2 (c : FVal), c.isNan = true →
      fpFma f mode (.fin n1 m1 e1) (.fin n2 m2 e2) c = (f.cnan, if c.isSig then flNV else 0)) ∧
  (∀ i a b c m np na, fmaRow i = some (a, b, c, m, np, na) → ∀ (s : State) (h : Nat) (vals : List VReg),
    let op := s.opT h clsF [b, c] a (s.hart h).e.g (s.hart h).e.w
    let x := s.sees h op vals
    let f := fsp x.e.fmt.toNat
    let r := fun k => fpFma f x.e.frm.toNat ((f.decode (x.el 0 k)).negIf np) (f.decode (x.el 1 k))
      ((f.decode (elemOf x.e.w (x.e.groupVal x.vlen a x.e.g) k)).negIf na)
    s.EReady h i op vals → x.quiet m (fun k => (r k).2) →
    ∃ t, exec i s = .next t ∧ EDone s t h op (x.flags m fun k => (r k).2) (x.map m fun k => (r k).1)) ∧
  (∀ a b c m (s : State) (h : Nat) (vals : List VReg),
    let op := s.opT h clsH [b, c] a (2 * (s.hart h).e.g) 32
    let x := s.sees h op vals
    let f := fsp x.e.fmt.toNat
    let r := fun k => fpFma spFP32 x.e.frm.toNat (f.decode (x.el 0 k)) (f.decode (x.el 1 k))
      (spFP32.decode (elemOf 32 (x.e.groupVal x.vlen a (2 * x.e.g)) k))
    s.EReady h (.vfmaw a b c m) op vals → x.quiet m (fun k => (r k).2) →
    (op.clash = true → x.e.vl ≤ (x.e.vstart / 4 + 1) * 4) →
    ∃ t, exec (.vfmaw a b c m) s = .next t ∧ EDone s t h op (x.flags m fun k => (r k).2) (x.map m fun k => (r k).1)) ∧
  ∀ a b c m (s : State) (h : Nat) (vals : List VReg),
    let op := s.opT h clsA [b, c] a (s.hart h).e.g (s.hart h).e.w
    let x := s.sees h op vals
    s.EReady h (.vsel a b c m) op vals →
    ∃ t, exec (.vsel a b c m) s = .next t ∧ EDone s t h op 0 (x.map m fun k =>
      natFromBits x.e.w fun n =>
        if (elemOf x.e.w (x.e.groupVal x.vlen a x.e.g) k).testBit n then (x.el 0 k).testBit n else (x.el 1 k).testBit n)

/-- R278: the conversions round each computed element to the target format by their own mode, in a group of the size that
keeps the number of elements (where the two groups overlap, in one turn only within one group of elements: see ClashingGroups); to
its own format a number stays as it is. R79..R82: what a number, an infinity and a NaN become in each
target, with their flags. R279: the compares write bit k of their mask for each computed element k; the floating ones are false at a NaN and
raise NV for a signalling NaN, VFCLT and VFCLE for any NaN. -/
def Obligations.VectorConvertAndCompare : Prop :=
  (∀ i a b t' m mode, cvtRow i = some (a, b, t', m, mode) → ∀ (s : State) (h : Nat) (vals : List VReg),
     let e := (s.hart h).e
     let wt := fmtWidth t'.toNat
     let gd := max 1 (e.g * wt / max 1 e.w)
     let op := { s.opV h clsA [b] a with derived := [gd], dst := .vec a gd wt }
     let x := s.sees h op vals
     let r := fun k => let v := fmtDecode x.e.fmt.toNat (x.el 0 k)
       if x.e.fmt = t' ∧ v.isNan = false then (x.el 0 k, 0) else convert v t'.toNat mode
     s.EReady h i op vals → x.quiet m (fun k => (r k).2) →
     (op.clash = true → x.e.vl ≤ (x.e.vstart / eSize (max e.w wt) + 1) * eSize (max e.w wt)) →
     ∃ t, exec i s = .next t ∧ EDone s t h op (x.flags m fun k => (r k).2) (x.map m fun k => (r k).1)) ∧
  (∀ mode < 6,
    (∀ (n : Bool) (m : Nat) (e : Int) (x : ℝ), 0 < m → x = (m : ℝ) * (2 : ℝ) ^ e → let v := FVal.fin n m e
      (∀ tgt f, fspecOf tgt = some f → f.Rounded (mode % 4) (decide (4 ≤ mode)) n x (convert v tgt mode)) ∧
      DRounded 7 mode n x (convert v 12 mode) ∧ DRounded 3 mode n x (convert v 13 mode) ∧
      ∀ tgt < 6, IRounded (fmtWidth tgt) (tgt % 2 == 0) mode n x (convert v tgt mode)) ∧
    (∀ (n : Bool) (e : Int), (∀ tgt f, fspecOf tgt = some f → convert (.fin n 0 e) tgt mode = (if n then 2 ^ (f.eb + f.fb) else 0, 0)) ∧
      ∀ tgt, tgt < 6 ∨ tgt = 12 ∨ tgt = 13 → convert (.fin n 0 e) tgt mode = (0, 0)) ∧
    (∀ n : Bool, let sign := fun (w : Nat) => if n then 2 ^ w else 0
      let fl := fun (b : BitVec 5) => if 4 ≤ mode then 0 else b
      (∀ tgt f, fspecOf tgt = some f → f.ieee = true →
        convert (.inf n) tgt mode = (sign (f.eb + f.fb) + (if 4 ≤ mode then f.maxBits else f.infBits), 0)) ∧
      convert (.inf n) 9 mode = (if 4 ≤ mode then sign 7 + 0x7E else 0x7F, fl flNV) ∧
      convert (.inf n) 11 mode = (sign 3 + 7, fl flNV) ∧
      convert (.inf n) 12 mode = (if 4 ≤ mode then sign 7 + 0x7F else 0x80, fl flNV) ∧
      convert (.inf n) 13 mode = (if 4 ≤ mode then sign 3 + 7 else 8, fl flNV) ∧
      ∀ tgt < 6, convert (.inf n) tgt mode = (wrap (fmtWidth tgt)
        (if n then (if tgt % 2 = 0 then -(2 ^ (fmtWidth tgt - 1)) else 0)
         else (if tgt % 2 = 0 then 2 ^ (fmtWidth tgt - 1) - 1 else 2 ^ fmtWidth tgt - 1)), flNV)) ∧
    ∀ v : FVal, v.isNan = true → let fl := if v.isSig then flNV else 0
      convert v 6 mode = (0x7FC0_0000, fl) ∧ convert v 7 mode = (0x7E00, fl) ∧ convert v 8 mode = (0x7FC0, fl) ∧
      convert v 9 mode = (0x7F, fl) ∧ convert v 10 mode = (0x7E, fl) ∧ convert v 11 mode = (0, flNV) ∧
      convert v 12 mode = (0x80, fl) ∧ convert v 13 mode = (8, fl) ∧ ∀ tgt < 6, convert v tgt mode = (0, flNV)) ∧
  ((∀ i a b c m p, cmpRow i = some (a, b, c, m, p) → ∀ (s : State) (h : Nat) (vals : List VReg),
     let op := s.opM h clsI [b, c] a
     let x := s.sees h op vals
     s.EReady h i op vals → ∃ t, exec i s = .next t ∧ ∃ r : Nat → Nat, EDone s t h op 0 (x.map m r) ∧
       ∀ k, (p x.e.w (x.el 0 k) (x.el 1 k) → r k = 1) ∧ (¬ p x.e.w (x.el 0 k) (x.el 1 k) → r k = 0)) ∧
   ∀ i a b c m any p, fcmpRow i = some (a, b, c, m, any, p) → ∀ (s : State) (h : Nat) (vals : List VReg),
     let op := s.opM h clsF [b, c] a
     let x := s.sees h op vals
     let f := fsp x.e.fmt.toNat
     let u := fun k => f.decode (x.el 0 k)
     let v := fun k => f.decode (x.el 1 k)
     s.EReady h i op vals → x.quiet m (fun k => fcmpFlags any (u k) (v k)) →
     ∃ t, exec i s = .next t ∧ EDone s t h op (x.flags m fun k => fcmpFlags any (u k) (v k)) (x.map m fun k =>
       if (u k).isNan = false ∧ (v k).isNan = false ∧ p (u k) (v k) = true then 1 else 0))

/-- R280, R281: the mask operations write every bit below VL and no other; MPOPC and MFIRST give their scalar; MTOQ, where
the queue has room for all of them, pushes the mask below VL in words of 64 bits, lowest first. R283: the permutations. Those that commit as a whole ignore VSTART; VSPLAT and VMERGE are element-wise; VSPLAT
from a register that it writes, in one turn only within one group of elements (see ClashingGroups). -/
def Obligations.MasksAndPermutations : Prop :=
  ((∀ i a b c f, maskRow i = some (a, b, c, f) → ∀ (s : State) (h : Nat) (vals : List VReg), s.EReady h i (opMask a) vals →
     ∃ t, exec i s = .next t ∧
       let x := s.sees h (opMask a) vals
       EDone s t h (opMask a) 0 fun k =>
         if k < x.e.vl then some (if f (x.mbit b.toNat k) (x.mbit c.toNat k) then 1 else 0) else none) ∧
   (∀ a b (s : State) (h : Nat) (vals : List VReg), let op := s.opS h (some clsA) [] [] a
     let x := s.sees h op vals
     let on := (List.range x.e.vl).filter fun k => x.mbit b.toNat k
     (s.EReady h (.mpopc a b) op vals → ∃ t, exec (.mpopc a b) s = .next t ∧ EDone s t h op 0 (only on.length)) ∧
     (s.EReady h (.mfirst a b) op vals → ∃ t, exec (.mfirst a b) s = .next t ∧
       EDone s t h op 0 (only (on.head?.getD (2 ^ 64 - 1))))) ∧
   ∀ (a : BitVec 2) (b : BitVec 3) (s : State) (h : Nat), s.cur = .eStream h → s.gateFail (.mtoq a b) = none →
     s.limit = none → (s.hart h).e.Fresh →
     let e := (s.hart h).e
     let n := ceilDiv e.vl 64
     s.eChecks h { opMask 0 with dst := .none } = none → e.vstart = 0 → (s.eaOf h a.toNat).length + n ≤ 8 →
     ∃ t, exec (.mtoq a b) s = .next t ∧ SameE (s.hart h) (t.hart h) ∧ s.SameElsewhere t ∧
       (t.hart h).e.pc = e.pc + 4 ∧ (t.hart h).e.vstart = 0 ∧ (t.hart h).e.fflags = e.fflags ∧
       (t.hart h).e.mask = e.mask ∧ (t.hart h).e.l = e.l ∧ (t.hart h).e.o = e.o ∧ (t.hart h).e.main = e.main ∧
       (t.hart h).r.ae = (s.hart h).r.ae ∧ (∀ q, q ≠ a.toNat → t.eaOf h q = s.eaOf h q) ∧
       ∃ l : List W64, t.eaOf h a.toNat = s.eaOf h a.toNat ++ l ∧ l.length = n ∧
         ∀ k, (l.getD (k / 64) 0).getLsbD (k % 64) = (decide (k < e.vl) && (tgetD e.mask b.toNat 0).getLsbD k)) ∧
  ((∀ i a b ex m f, permRow i = some (a, b, ex, m, f) → ∀ (s : State) (h : Nat) (vals : List VReg),
     let g := (s.hart h).e.g
     let op := { s.opV h clsA (b :: ex.map (·.1)) a with vecs := (b, g) :: ex.map fun p => (p.1, if p.2 = 0 then g else p.2) }
     let x := s.sees h op vals
     s.EReady h i op vals → ∃ t, exec i s = .next t ∧
       EDone s t h op 0 fun (k : Nat) => if k < x.e.vl ∧ x.active m k = true then f x k else none) ∧
   (∀ a b m (s : State) (h : Nat) (vals : List VReg), let op := { s.opV h clsA [b] a with vecs := [(b, 1)], scal := [b] }
     let x := s.sees h op vals
     s.EReady h (.vsplat a b m) op vals → (op.clash = true → x.e.vl ≤ (x.e.vstart / eSize x.e.w + 1) * eSize x.e.w) → ∃ t, exec (.vsplat a b m) s = .next t ∧
       EDone s t h op 0 (x.map m fun _ => x.sc 0 % 2 ^ x.e.w)) ∧
   ∀ a b c m (s : State) (h : Nat) (vals : List VReg), let op := s.opV h clsA [b, c] a
     let x := s.sees h op vals
     s.EReady h (.vmerge a b c m) op vals → ∃ t, exec (.vmerge a b c m) s = .next t ∧
       EDone s t h op 0 (x.map 0 fun k => if x.active m k = true then x.el 0 k else x.el 1 k))

/-- R284: the reductions leave every element but element 0 of their register; the floating ones, where no enabled flag is raised,
accrue their flags; VSCAN gives each active element the sum of the active ones up to it. That -0 and +0 make -0 in RDN here
too, and that no active element gives -0, are logs 91 and 68. -/
def Obligations.Reductions : Prop :=
  (∀ i a b m f, redRow i = some (a, b, m, f) → ∀ (s : State) (h : Nat) (vals : List VReg), let op := s.opR h clsI b a
    let x := s.sees h op vals
    s.EReady h i op vals → ∃ t, exec i s = .next t ∧
      EDone s t h op 0 (only (f x.e.fmt.toNat x.e.w ((x.act m).map fun k => x.el 0 k)))) ∧
  (∀ i a b m f, fredRow i = some (a, b, m, f) → ∀ (s : State) (h : Nat) (vals : List VReg), let op := s.opR h clsF b a
    let x := s.sees h op vals
    let r := f (fsp x.e.fmt.toNat) x.e.frm.toNat
      ((List.range x.e.vl).map fun k => if x.active m k then some (x.el 0 k) else none)
    s.EReady h i op vals → r.2 &&& x.e.fpen = 0 → ∃ t, exec i s = .next t ∧ EDone s t h op r.2 (only r.1)) ∧
  ∀ a b m (s : State) (h : Nat) (vals : List VReg), let op := s.opV h clsI [b] a
    let x := s.sees h op vals
    s.EReady h (.vscan a b m) op vals → ∃ t, exec (.vscan a b m) s = .next t ∧ EDone s t h op 0 fun (k : Nat) =>
      if k < x.e.vl ∧ x.active m k = true then
        some ((((x.act m).filter (· ≤ k)).map fun j => x.el 0 j).sum % 2 ^ x.e.w)
      else none


/-- R99, R149, R268: where a group of elements reads registers that an earlier group of the instruction has written, each group reads
them as the groups before it left them. So VCVT and VFMAW with overlapping groups, VSPLAT, a load, an atomic or a tile load with a
scalar or an index inside its destination execute one group in a turn (log 113). Where the same instruction with VL cut to the end of
its first group completes in one turn, the turn over the whole leaves the same registers and memory, and stands at its next group:
the pc, VL and VSTART as they were, the popped entries in the latch, no push made, and what it read when it started kept. -/
def Obligations.ClashingGroups : Prop :=
  (∀ (i : Instr) (s : State) (h : Nat) (op : EOp) (vals : List VReg) (m : BitVec 2) (E : Nat) (exact : Bool),
    let e := (s.hart h).e
    (exact = true ∧ (
      (∃ a b t' mode, cvtRow i = some (a, b, t', m, mode) ∧ let wt := fmtWidth t'.toNat
        let gd := max 1 (e.g * wt / max 1 e.w)
        op = { s.opV h clsA [b] a with derived := [gd], dst := .vec a gd wt } ∧ E = eSize (max e.w wt)) ∨
      (∃ a b c, i = .vfmaw a b c m ∧ op = s.opT h clsH [b, c] a (2 * e.g) 32 ∧ E = 4) ∨
      ∃ a b, i = .vsplat a b m ∧ op = { s.opV h clsA [b] a with vecs := [(b, 1)], scal := [b] } ∧ E = eSize e.w) ∨
     exact = false ∧ (
      (∃ r, vloadRow i e = some r ∧ op = r.op (.vec r.a e.g e.w) ∧ m = r.m ∧ E = r.E) ∨
      ∃ a b c f, vamoRow i = some (a, b, c, m, f) ∧ E = 4 ∧
        op = { cls := some clsW, derived := [e.idxG], srcs := [b, c], vecs := [(b, 1), (c, e.idxG), (a, e.g)],
               dst := .vec a e.g 32, scal := [b] })) →
    s.EReady h i op vals → op.clash = true →
    let x := s.sees h op vals
    ∀ first next : Nat, let n := (first / E + 1) * E
    (if exact then first = e.vstart ∧ n < e.vl ∧ next = n
     else x.computes m first ∧ (∀ j, j < first → ¬ x.computes m j) ∧
       x.computes m next ∧ n ≤ next ∧ ∀ j, n ≤ j → j < next → ¬ x.computes m j) →
    ∀ u : State, exec i (s.modE h fun e => { e with vl := n }) = .next u →
    (u.hart h).a.instret = (s.hart h).a.instret + 1 → (u.hart h).e.vl = n →
    ∃ (t : State) (p : Nat), exec i s = .next t ∧ n ≤ p ∧ p ≤ next ∧
      { t with harts := s.harts } = { u with harts := s.harts } ∧ (∀ g, g ≠ h → t.hart g = u.hart g) ∧
      t.hart h = { u.hart h with
        a := (s.hart h).a
        e := { (u.hart h).e with
          vl := e.vl, pc := e.pc, vstart := e.vstart, l := e.l, latch := vals, latchQ := portsOf op.srcs, reserved := none
          staging := (match op.dst with
            | .vec _ g _ => if g ≤ 1 then some (tgetD (u.hart h).e.l 0 0) else none
            | _ => none)
          prog := some { elem := p, escope := (s.hart h).a.escope, fpen := e.fpen, frm := e.frm, word := (evalOf i).setWidth 32,
                         smiss := e.smiss } } }) ∧
  ∀ (a c ti : RCode) (m : BitVec 2) (s : State) (h : Nat) (vals : List VReg) (X : Tens) (g : Nat) (i : Instr),
    s.tensHeld h ti.toNat = some X → s.tdUse X.td = 0 → TileGroup (s.vlen h) (tdTileElems X.td) X.w g →
    let op : EOp := { cls := none, derived := [], srcs := [c], vecs := [(c, 1)], dst := .vec a g X.w, scal := [c] }
    let x := s.sees h op vals
    let nb := elBytes X.w
    let E := eSize X.w
    (i = .vlt a ti c m ∨ i = .vltck a ti c m) → s.EReady h i op vals → op.clash = true →
    let n := if i = .vlt a ti c m then x.sc 0 else x.sc 0 % 2 ^ 32
    X.tileOk n = true →
    ∀ on : Nat → Prop,
    (∀ j, on j ↔ x.e.vstart ≤ j ∧ j < tdTileElems X.td ∧ if i = .vlt a ti c m then x.active m j = true else
      X.chunkOn x.e m n (x.sc 0 / 2 ^ 32 % 8) j) →
    ∀ first next : Nat, on first → (∀ j, j < first → ¬ on j) → let b := (first / E + 1) * E
    on next → b ≤ next → (∀ j, b ≤ j → j < next → ¬ on j) →
    ∀ ph : Nat → Phys, (∀ j, on j → j < b → X.inside n j = true → X.To s h false nb n j (.ok (ph j)) ∧ (ph j).dev = false) →
    ∃ (t : State) (val : Nat → Option Nat) (p : Nat), exec i s = .next t ∧ b ≤ p ∧ p ≤ next ∧
      EPaused s t h i op vals 0 val p ∧ ∀ j,
      (¬ on j ∨ b ≤ j → val j = none) ∧ (on j → j < b → X.inside n j = false → val j = some 0) ∧
      (on j → j < b → X.inside n j = true → val j = some (s.vecNat h (ph j) nb / 2 ^ (X.elem n j).2 % 2 ^ X.w))
/-! Vector accesses to memory (R273, R274, R286..R294). -/

/-- R102, R273, R274: VSETVL sets the format, the group and VL, the smaller of AVL and VLMAX, or a reserved format's VILL with VL
0, and gives VL; WBASE moves the register window, or traps REGRANGE where it would leave the hart's registers, and keeps
VSTART (log 68). -/
def Obligations.VectorConfig : Prop :=
  (∀ (a b : RCode) (g : BitVec 2) (ty : BitVec 4) (s : State) (h : Nat) (vals : List VReg),
    let op := s.opS h none [b] [(b, 1)] a
    let x := s.sees h op vals
    s.EReady h (.vsetvl a b g ty) op vals →
    let vl := if 14 ≤ ty.toNat then 0 else min (x.sc 0) (s.vlen h / fmtWidth ty.toNat * 2 ^ g.toNat)
    ∃ t, exec (.vsetvl a b g ty) s = .next t ∧ EDone (s.modE h fun e => { e with
      vl := vl, vill := decide (14 ≤ ty.toNat), group := if 14 ≤ ty.toNat then 0 else g,
      fmt := if 14 ≤ ty.toNat then 0 else ty }) t h op 0 (only vl)) ∧
  ∀ (n : BitVec 12) (s : State) (h : Nat), s.cur = .eStream h → s.gateFail (.wbase n) = none → (s.hart h).e.Fresh →
    let wb := ((s.hart h).e.wb : Int) + n.toInt
    (0 ≤ wb → wb < (s.hart h).id.rsize → ∃ t, exec (.wbase n) s = .next t ∧ t = s.setHart h { s.hart h with
      a := { (s.hart h).a with instret := (s.hart h).a.instret + 1 }
      e := { (s.hart h).e with wb := wb.toNat, pc := (s.hart h).e.pc + 4, wait := .none, latch := [], latchQ := [],
                               reserved := none, staging := none } }) ∧
    (¬ (0 ≤ wb ∧ wb < (s.hart h).id.rsize) →
      exec (.wbase n) s = .next (s.trap (.eStream h) ⟨.regrange, evalOf (.wbase n), 0, 0, 0, 0⟩))

/-- R124, R268, R286, R291, R293: a vector load all of whose computed elements pass the checks gives each the bits at its address,
those of its bay's dirty lines where there are some, and leaves the others. For each element VLRSC makes a release at PKG, takes one
place in the sequentially consistent order, and makes an acquire at PKG: the bay's dirty lines are at their homes before the first
one is read, and no clean copy is left (R199, R353, R363). A load with a scalar or an index in its destination, in one turn only
within one group of elements (see ClashingGroups). R268, R286, R292: where a computed element fails checks 1 to 5 of R286 and every lower one passes, VLR, VLRS, VLRX and
VLRSC trap with that element, its cause and its address, and have written no element at or above the new VSTART; VLRFF
traps only at its first computed element, and at a later one loads those below it and makes its number VL. -/
def Obligations.VectorLoads : Prop :=
  (∀ (i : Instr) (s : State) (h : Nat) (r : VAccess) (vals : List VReg), vloadRow i (s.hart h).e = some r →
     let op := r.op (.vec r.a (s.hart h).e.g (s.hart h).e.w)
     let x := s.sees h op vals
     let n := elBytes x.e.w
     let s0 := s.scFrom h r.sc
     s.EReady h i op vals → ∀ ph : Nat → Phys,
     (∀ k, x.computes r.m k → VecTo s h false r.sc false n (r.place x k).1 (.ok (ph k)) ∧ s0.vecErr h false false (ph k) n = false) →
     (op.clash = true → x.oneGroup r.m r.E ph) →
     ∃ t, exec i s = .next t ∧ EDone (s.scTo h r.sc (x.count r.m)) t h op 0
       (x.map r.m fun k => s0.vecNat h (ph k) n / 2 ^ (r.place x k).2 % 2 ^ x.e.w)) ∧
  (∀ (i : Instr) (s : State) (h : Nat) (r : VAccess) (vals : List VReg), vloadRow i (s.hart h).e = some r →
     let op := r.op (.vec r.a (s.hart h).e.g (s.hart h).e.w)
     let x := s.sees h op vals
     let n := elBytes x.e.w
     let s0 := s.scFrom h r.sc
     s.EReady h i op vals → ∀ (ph : Nat → Phys) (k : Nat) (c : Cause), x.computes r.m k →
     VecTo s h false r.sc false n (r.place x k).1 (.error c) →
     (∀ j, j < k → x.computes r.m j → VecTo s h false r.sc false n (r.place x j).1 (.ok (ph j)) ∧
       s0.vecErr h false false (ph j) n = false) →
     (op.clash = true → ∀ j, j < k → ¬ x.computes r.m j) →
     let val := fun (v j : Nat) => if j < v then
       x.map r.m (fun j => s0.vecNat h (ph j) n / 2 ^ (r.place x j).2 % 2 ^ x.e.w) j else none
     ((c ≠ .uncorr ∧ ∀ a b m, i ≠ .vlrff a b m) ∨ (∃ a b m, i = .vlrff a b m) ∧ (∀ j, j < k → ¬ x.computes r.m j) →
       ∃ (u : State) (v : Nat), exec i s = .next (u.trap (.eStream h) ⟨c, BitVec.ofNat 64 (r.place x k).1, 0, 0, BitVec.ofNat 64 k, 0⟩) ∧
         x.e.vstart ≤ v ∧ v ≤ k ∧ (u.hart h).e.vstart = v ∧ u.cur = s.cur ∧ u.harts = (s.setHart h (u.hart h)).harts ∧
         (c ≠ .uncorr → u.mem = (s.scTo h r.sc ((x.todo r.m).filter (· < k)).length).mem) ∧
         (u.hart h).e.fflags = x.e.fflags ∧ (u.hart h).e.l = x.e.l ∧
         (u.hart h).e.mask = x.e.mask ∧ (u.hart h).a = (s.hart h).a ∧
         (8 ≤ r.a.toNat → ImageIs x.e.w (x.vlen * x.e.g) ((u.hart h).e.groupVal x.vlen r.a x.e.g)
           (x.e.groupVal x.vlen r.a x.e.g) (val v))) ∧
     ((∃ a b m, i = .vlrff a b m) → (∃ j, j < k ∧ x.computes r.m j) → ∃ u t, exec i s = .next t ∧
       (c ≠ .uncorr → u = s) ∧
       (c = .uncorr → (∀ p, s.xlatV h false (r.place x k).1 n = .ok p → u = if s.cutKey p.key then s else s.countUncorr) ∧
         (s.xlatV h false (r.place x k).1 n = .error .uncorr → u = s.countUncorr)) ∧
       EDone (u.modE h fun e => { e with vl := k }) t h op 0 (val k)))

/-- R124, R268, R286, R291, R293: a vector store all of whose computed elements pass the checks stores their bits at their homes
in the order of the elements, when their lines have left the bay's L1; nothing else of memory changes. For each element VSTRSC makes
a release at PKG, takes one place in the sequentially consistent order, and makes an acquire at PKG (R199, R353, R363). -/
def Obligations.VectorStores : Prop :=
  ∀ (i : Instr) (s : State) (h : Nat) (r : VAccess) (vals : List VReg), vstoreRow i (s.hart h).e = some r →
    let op := r.op .none
    let x := s.sees h op vals
    let n := elBytes x.e.w
    s.EReady h i op vals → ∀ ph : Nat → Phys,
    (∀ k, x.computes r.m k → VecTo s h true r.sc false n (r.place x k).1 (.ok (ph k)) ∧
      (r.sc = false → s.Writes h (ph k) n) ∧ (r.sc = true → (s.l1Release h).Storable (ph k).key n)) →
    let s0 := if r.sc then (if x.count r.m = 0 then s else (s.l1Release h).l1Acquire h) else s.flushed h n (x.todo r.m) ph
    ∃ u t : State, exec i s = .next t ∧ s0.SameButStores u ∧
      EDone { u with ticket := u.ticket + BitVec.ofNat 64 (if r.sc then x.count r.m else 0) } t h op 0 (fun _ => none) ∧
      s0.StoredBits t x.e.w (x.computes r.m) (fun k => 8 * (ph k).key + (r.place x k).2) (fun k => x.el 0 k)

/-- R200, R286, R294: a vector atomic all of whose computed elements pass the checks: an element whose home lies beyond ESCOPE is
a scope miss, sets its bit of m7 and counts in SMISSCNT, which saturates, and leaves memory and the destination; any other
clears its bit, gives the old value at its home, its line gone from the bay's L1, and stores the new one there (R124). Stated
for elements at different addresses, and, where the base or the index lies in the destination, within one group of elements (see
ClashingGroups). What l0 takes at a missed element is log 76. -/
def Obligations.VectorAtomics : Prop :=
  ∀ i a b c m f, vamoRow i = some (a, b, c, m, f) → ∀ (s : State) (h : Nat) (vals : List VReg),
    let e := (s.hart h).e
    let op : EOp := { cls := some clsW, derived := [e.idxG], srcs := [b, c], vecs := [(b, 1), (c, e.idxG), (a, e.g)],
                      dst := .vec a e.g 32, scal := [b] }
    let x := s.sees h op vals
    s.EReady h i op vals → ∀ ph : Nat → Phys,
    (∀ k, x.computes m k → VecTo s h true false true 4 (indexAt 0 x k).1 (.ok (ph k)) ∧ s.Writes h (ph k) 4) →
    (op.clash = true → x.oneGroup m 4 ph) →
    (∀ j k, x.computes m j → x.computes m k → j < k → (ph j).key + 4 ≤ (ph k).key ∨ (ph k).key + 4 ≤ (ph j).key) →
    let miss := fun (k : Nat) => (s.hart h).a.escope.toNat < s.homeLevel h (ph k).key
    let done := fun (k : Nat) => x.computes m k ∧ ¬ miss k
    let s0 := s.flushed h 4 ((x.todo m).filter fun k => !decide (miss k)) ph
    ∃ u t : State, exec i s = .next t ∧ u = { s0 with mem := u.mem, bad := u.bad, harts := u.harts } ∧
      (∀ g, u.hart g = { s.hart g with
        r := { (s.hart g).r with dirty := (u.hart g).r.dirty }
        e := if g = h then { e with mask := (u.hart h).e.mask, smiss := (u.hart h).e.smiss } else (s.hart g).e }) ∧
      (∀ n, n ≠ 7 → tgetD (u.hart h).e.mask n 0 = tgetD e.mask n 0) ∧
      (∀ k, k < 2048 → (tgetD (u.hart h).e.mask 7 0).getLsbD k = true ↔ (x.computes m k ∧ miss k) ∨
        (¬ x.computes m k ∧ (tgetD e.mask 7 0).getLsbD k = true)) ∧
      (u.hart h).e.smiss.toNat = min (2 ^ 32 - 1) (e.smiss.toNat +
        ((List.range x.e.vl).filter fun k => decide (x.e.vstart ≤ k) && x.active m k && decide (miss k)).length) ∧
      EDone u t h op 0 (fun k => if x.e.vstart ≤ k ∧ k < x.e.vl ∧ x.active m k = true ∧ ¬ miss k then
        some (s0.nat (ph k).key 4) else none) ∧
      s0.StoredBits t 32 done (fun k => 8 * (ph k).key) fun k =>
        f x.e.fmt.toNat (s0.nat (ph k).key 4) (elemOf 32 (x.e.groupVal x.vlen a x.e.g) k)

/-- R176, R288, R290: a tile load of a tensor whose descriptor its bay holds: the active positions inside the tensor take
the bits of their elements, those outside 0, and FFLAGS is kept; VLTCK loads the positions whose chunk's bit is set; with the tile
number in the destination, in one turn only within one group of elements (see ClashingGroups). R86, R289: VSTT stores the active positions inside the tensor, converted to the tensor's format where it is not the
source's, and accrues the flags of the conversions; a descriptor marked read-only traps PPROT with its identifier. -/
def Obligations.TileAccesses : Prop :=
  (∀ (a c : RCode) (ti : RCode) (m : BitVec 2) (s : State) (h : Nat) (vals : List VReg) (X : Tens) (g : Nat),
     s.tensHeld h ti.toNat = some X → s.tdUse X.td = 0 → TileGroup (s.vlen h) (tdTileElems X.td) X.w g →
     let op : EOp := { cls := none, derived := [], srcs := [c], vecs := [(c, 1)], dst := .vec a g X.w, scal := [c] }
     let x := s.sees h op vals
     let nb := elBytes X.w
     ∀ i : Instr, (i = .vlt a ti c m ∨ i = .vltck a ti c m) → s.EReady h i op vals →
     let n := if i = .vlt a ti c m then x.sc 0 else x.sc 0 % 2 ^ 32
     ∀ on : Nat → Prop,
     (∀ j, on j ↔ x.e.vstart ≤ j ∧ j < tdTileElems X.td ∧ if i = .vlt a ti c m then x.active m j = true else
       X.chunkOn x.e m n (x.sc 0 / 2 ^ 32 % 8) j) →
     X.tileOk n = true → ∀ ph : Nat → Phys, (∀ j, on j → X.inside n j = true → X.To s h false nb n j (.ok (ph j))) →
     (op.clash = true → ∃ g, ∀ j, on j → j / eSize X.w = g ∧ (X.inside n j = true → (ph j).dev = false)) →
     ∃ (t : State) (val : Nat → Option Nat), exec i s = .next t ∧ EDone s t h op 0 val ∧ ∀ j,
       (¬ on j → val j = none) ∧ (on j → X.inside n j = false → val j = some 0) ∧
       (on j → X.inside n j = true → val j = some (s.vecNat h (ph j) nb / 2 ^ (X.elem n j).2 % 2 ^ X.w))) ∧
  (∀ (b c : RCode) (ti : RCode) (m : BitVec 2) (s : State) (h : Nat) (vals : List VReg) (X : Tens) (g : Nat),
     s.tensHeld h ti.toNat = some X → s.tdUse X.td = 0 →
     let fs := if (s.hart h).e.vill then tdFmt X.td else (s.hart h).e.fmt.toNat
     let ws := fmtWidth fs
     TileGroup (s.vlen h) (tdTileElems X.td) ws g →
     let op : EOp := { cls := none, derived := [], srcs := [b, c], vecs := [(b, g), (c, 1)], dst := .none }
     let x := s.sees h op vals
     let n := x.sc 1
     let nb := elBytes X.w
     s.EReady h (.vstt ti b c m) op vals →
     (tdRdonly X.td = true →
       exec (.vstt ti b c m) s = .next (s.trap (.eStream h) ⟨.pprot, BitVec.ofNat 64 ti.toNat, 0, 0, 0, 0⟩)) ∧
     (tdRdonly X.td = false → X.tileOk n = true → ∀ ph : Nat → Phys,
       let l := (List.range (tdTileElems X.td)).filter fun j => decide (x.e.vstart ≤ j) && x.active m j && X.inside n j
       let on := fun (j : Nat) => j ∈ l
       (∀ j, on j → X.To s h true nb n j (.ok (ph j)) ∧ s.Writes h (ph j) nb) →
       let s0 := s.flushed h nb l ph
       let v := fun j => if fs = tdFmt X.td then (elemOf ws (x.vec 0 g) j, 0)
         else convert (fmtDecode fs (elemOf ws (x.vec 0 g) j)) (tdFmt X.td) 0
       (∀ j, on j → (v j).2 &&& x.e.fpen = 0) →
       ∃ (u t : State) (fl : BitVec 5), exec (.vstt ti b c m) s = .next t ∧ s0.SameButStores u ∧
         EDone u t h op fl (fun _ => none) ∧
         (∀ n, n < 5 → (fl.getLsbD n = true ↔ ∃ j, on j ∧ (v j).2.getLsbD n = true)) ∧
         s0.StoredBits t X.w on (fun j => 8 * (ph j).key + (X.elem n j).2) fun j => (v j).1))

/-- R141, R175, R176: tile n's position j stands for the tile's coordinates c, the n-th in row-major order of the grid, and the
position's o, the j-th of the tile; the element has the coordinates c_d TILE_d + o_d, and lies in the tensor where each is
below its extent. A DENSE element lies at BASE plus the sum of its coordinates times their strides, the last in bits; a SILL
element, and any scale, where R141 and R175 put it. -/
def Obligations.TileLayout : Prop :=
  ∀ (td : BitVec 1024) (n j : Nat), let X : Tens := { td := td, buf := none }
    let r := tdRank td
    let grid := fun d => ceilDiv (tdDim td d) (tdTile td d)
    let cs := tdTileElem td n j
    let e := fun d => cs.getD d 0
    let num := fun (c ext : Nat → Nat) (r : Nat) =>
      ((List.range r).map fun d => c d * (((List.range r).filter (d < ·)).map ext).prod).sum
    (∀ d, d < r → 0 < tdTile td d) → 1 ≤ r → n < ((List.range r).map grid).prod → j < ((List.range r).map (tdTile td)).prod →
    cs.length = r ∧
    (∃ c o : Nat → Nat, (∀ d, d < r → c d < grid d ∧ o d < tdTile td d ∧ e d = c d * tdTile td d + o d) ∧
      n = num c grid r ∧ j = num o (tdTile td) r) ∧
    (X.inside n j = true ↔ ∀ d, d < r → e d < tdDim td d) ∧
    (tdLayout td ≠ 1 → X.elem n j = (.va ((tdBase td : Int) + ((List.range (r - 1)).map fun d => (e d : Int) * tdStride td d).sum +
        ((e (r - 1) * X.w / 8 : Nat) : Int)), e (r - 1) * X.w % 8) ∧
      X.scale n j = if fmtScaled (tdFmt td) = true ∧ tdScale td ≠ 0 then
        some (tdScale td + num e (tdDim td) (r - 1) * ceilDiv (tdDim td (r - 1)) 32 + e (r - 1) / 32) else none) ∧
    (tdLayout td = 1 → r = 2 →
      let row := e 1 / 512 * (ceilDiv (tdDim td 0) 32 * 32) + e 0
      X.elem n j = (.va ((tdBase td + row * (512 * X.w / 8) + e 1 % 512 * X.w / 8 : Nat) : Int), e 1 * X.w % 8) ∧
      X.scale n j = if fmtScaled (tdFmt td) = true ∧ tdScale td ≠ 0 then
        some (tdScale td + row * 16 + e 1 % 512 / 32) else none)
/-! The matrix unit and the extrapolating accumulators (R296..R315). -/

/-- R301, R304: MBEAM of a tensor that its bay holds, whose elements and scales all read, starts a load: the loading beam
takes format and extents, the element of each position inside them and 0 elsewhere, and each block's scale byte or code 127, the scales beyond them as before;
MSETA sets the row's format, extent and scale latch and reads no element. R301, R302, R303: BEAM_LOAD_DONE ends the load, and an error it met empties the loading beam and sets LERR; MSWAP, MBEAM
and the bare MZERO stand while a load goes on, and trap UNCORR once where LERR is set; MSWAP exchanges the beams once no row
of the hart waits for the unit or occupies it, which R383 gives to the bay's harts in turn; the bare MZERO empties the loading beam; MZERO writes zero to every element of its group. -/
def Obligations.Beams : Prop :=
  (∀ (ti b : RCode) (s : State) (h : Nat) (vals : List VReg) (X : Tens) (i : Instr), (i = .mbeam ti b ∨ i = .mseta ti b) →
     s.tensHeld h ti.toNat = some X → s.tdUse X.td = 0 → (rowClass (tdFmt X.td)).isSome = true →
     let K := s.vlen h / fmtWidth (tdFmt X.td)
     let op : EOp := { cls := none, derived := [], srcs := [b], vecs := [(b, 1)], dst := .none }
     let x := s.sees h op vals
     let n := x.sc 0
     let nb := elBytes X.w
     let m := (s.hart h).m
     X.shapeOk (i = .mbeam ti b) K = true → s.EReady h i op vals → m.loadBusy = false → m.lerr = none → X.tileOk n = true →
     ∀ (ph sc : Nat → Nat → Phys),
     let N := (X.extents n).1
     let T := (X.extents n).2
     (∀ j k, j < N → k < T → X.To s h false nb n (X.pos j k) (.ok (ph j k))) →
     let within := fun p => tdInside X.td (tdTileElem X.td n p)
     (∀ j q, j < N → 32 * q < T → ∀ a, within (X.pos j (32 * q)) = true → X.scale n (X.pos j (32 * q)) = some a →
       VecTo s h false false false 1 a (.ok (sc j q))) →
     let byte := fun j q => if j < N ∧ 32 * q < T ∧ within (X.pos j (32 * q)) = true ∧
         (X.scale n (X.pos j (32 * q))).isSome = true then s.vecNat h (sc j q) 1 else 127
     (i = .mbeam ti b → ∃ (t : State) (B : Beam), exec i s = .next t ∧
       EDone (s.modM h fun m => { m with loading := B, loadBusy := true, lerrNext := none }) t h op 0 (fun _ => none) ∧
       B.empty = false ∧ B.fmt.toNat = tdFmt X.td ∧ B.tn = N ∧ B.tk = T ∧
       (∀ j k, j < K → k < K → elemOf X.w (tgetD B.data j 0).toNat k = if j < N ∧ k < T then
         s.vecNat h (ph j k) nb / 2 ^ (X.elem n (X.pos j k)).2 % 2 ^ X.w else 0) ∧
       (∀ j q, j < K → q < 8 → elemOf 8 (tgetD B.scale j 0).toNat q =
         if q < ceilDiv K 32 then byte j q else elemOf 8 (tgetD m.loading.scale j 0).toNat q) ∧
       ∀ j, K ≤ j → tgetD B.scale j 0 = tgetD m.loading.scale j 0) ∧
     (i = .mseta ti b → ∃ (t : State) (l : W64), exec i s = .next t ∧
       EDone (s.modM h fun m => { m with sfmt := BitVec.ofNat 4 (tdFmt X.td), kt := T, latch := l }) t h op 0 (fun _ => none) ∧
       ∀ q, q < 8 → elemOf 8 l.toNat q = if q < ceilDiv K 32 then byte 0 q else elemOf 8 m.latch.toNat q)) ∧
  ((∀ s : State, let m := (s.hart s.ev.n).m
     exec .beamLoadDone s = .next (s.modM s.ev.n fun _ => if m.loadBusy = false then m else match m.lerrNext with
       | none => { m with loadBusy := false }
       | some va => { m with loadBusy := false, loading := { m.loading with empty := true }, lerr := some va, lerrNext := none })) ∧
   (∀ (i : Instr) (s : State) (h : Nat), (i = .mswap ∨ i = .mzeroBare ∨ ∃ ti b, i = .mbeam ti b) → s.cur = .eStream h →
     s.gateFail i = none → let m := (s.hart h).m
     m.rowTraps = [] →
     (m.loadBusy = true → exec i s = .next (s.modE h fun e => { e with wait := .stall })) ∧
     (∀ va, m.loadBusy = false → m.lerr = some va → exec i s =
       .next ((s.modM h fun m => { m with lerr := none }).trap (.eStream h) ⟨.uncorr, va.setWidth 64, 0, 0, 0, 0⟩))) ∧
   (∀ (s : State) (h : Nat), s.cur = .eStream h → s.gateFail .mswap = none → (s.hart h).e.Fresh →
     let u := s.mxServe (bayOf h)
     let m := (u.hart h).m
     (s.hart h).m.rowTraps = [] → (s.hart h).m.loadBusy = false → (s.hart h).m.lerr = none →
     ((∃ r ∈ m.rows, ∀ c, r.occEnd = some c → s.cycle < c) → exec .mswap s = .next (u.modE h fun e => { e with wait := .stall })) ∧
     ((∀ r ∈ m.rows, ∃ c, r.occEnd = some c ∧ c ≤ s.cycle) → ∃ t, exec .mswap s = .next t ∧ t = u.setHart h (t.hart h) ∧
       (t.hart h).m = { m with
         loading := m.active, abeam := !m.abeam
         active := { m.loading with fmt := if m.loading.empty = true then 0 else m.loading.fmt } } ∧
       SameE (u.hart h) { (t.hart h) with m := m } ∧ (t.hart h).e.pc = (s.hart h).e.pc + 4 ∧ (t.hart h).e.vstart = 0 ∧
       (t.hart h).e.main = (s.hart h).e.main ∧ (t.hart h).e.l = (s.hart h).e.l ∧ (t.hart h).r = (s.hart h).r)) ∧
   -- what the unit does of itself: at clk c it takes the first row that has been issued, going round from its pointer
   (∀ (s : State) (bay c k : Nat) (r : Row), k < 8 →
     let g := fun i => bay * 8 + (tgetD s.mxTurn bay 0 + i) % 8
     let K := s.vlen (g k) / max 1 (fmtWidth r.sfmt.toNat)
     let e := c + max 1 (ceilDiv (K * K) (if fmtWidth r.sfmt.toNat = 4 then 8192 else if fmtWidth r.sfmt.toNat = 8 then 4096 else 1024))
     (∀ i q, i < k → (s.hart (g i)).m.rows.find? (fun r => r.occEnd.isNone) = some q → c < q.issued) →
     ∀ pre post, (s.hart (g k)).m.rows = pre ++ r :: post → (∀ q ∈ pre, q.occEnd.isSome = true) → r.occEnd = none → r.issued ≤ c →
     s.mxTake bay c = ({ s with mxBusy := tput s.mxBusy bay e, mxTurn := tput s.mxTurn bay ((g k + 1) % 8) } : State).modM (g k)
       fun m => { m with rows := pre ++ { r with occEnd := some e } :: post }) ∧
   (∀ (s : State) (bay : Nat), ∃ (b : Nat) (w : Nat) (f : Nat → List Row), s.mxServe bay =
     { s with mxBusy := (s.mxServe bay).mxBusy, mxTurn := (s.mxServe bay).mxTurn, harts := (s.mxServe bay).harts } ∧
     (∀ n, n ≠ bay → tgetD (s.mxServe bay).mxBusy n 0 = tgetD s.mxBusy n 0) ∧
     tgetD (s.mxServe bay).mxBusy bay 0 = b ∧ tgetD (s.mxServe bay).mxTurn bay 0 = w ∧
     ∀ g, (s.mxServe bay).hart g = { s.hart g with m := { (s.hart g).m with rows := f g } }) ∧
   (∀ (s : State) (h : Nat), s.cur = .eStream h → s.gateFail .mzeroBare = none → let m := (s.hart h).m
     m.loadBusy = false → m.lerr = none → ∃ t, exec .mzeroBare s = .next t ∧ t = s.setHart h (t.hart h) ∧
       (t.hart h).m = { m with loading := { m.loading with empty := true, data := [], scale := [] } } ∧
       SameE (s.hart h) { (t.hart h) with m := m } ∧ (t.hart h).e.pc = (s.hart h).e.pc + 4 ∧
       (t.hart h).e.main = (s.hart h).e.main ∧ (t.hart h).e.l = (s.hart h).e.l) ∧
   ∀ (a : RCode) (s : State) (h : Nat) (vals : List VReg), let w := fmtWidth (s.hart h).m.sfmt.toNat
     let op : EOp := { cls := none, derived := [], srcs := [], vecs := [], dst := .vec a (32 / max 1 w) 32 }
     s.EReady h (.mzero a) op vals → ∃ t, exec (.mzero a) s = .next t ∧
       EDone s t h op 0 fun (k : Nat) => if k < s.vlen h / max 1 w then some 0 else none)

/-- R89, R90, R296, R305: MROW checks the beam and the pair of formats, then completes with its row in flight; ROW_COMPLETE, 4 clk after the
unit has served the row, adds the row to every column of its group, accrues its flags, and leaves an enabled flag to trap later; an earlier ROW_COMPLETE does nothing. R306: an MROWT stands until the eight
E-streams of its truss step stand at one; then, where all eight may issue, the row of bay 0 (logs 69, 70), its format, extent
and latch go into every bay's unit, each with its own beam and group, and all eight complete. R89, R90: a column of integers is the exact sum of its products added modulo
2^32; a column of floating elements takes its blocks of 32 in increasing order, each summed exactly, scaled by its two block scales
where the formats are scaled, and added to the FP32 accumulator with one rounding to nearest even. -/
def Obligations.Rows : Prop :=
  ((∀ (a b : RCode) (s : State) (h : Nat) (vals : List VReg),
     let op : EOp := { cls := none, derived := [], srcs := [b], vecs := [(b, 1)], dst := .none }
     let x := s.sees h op vals
     let r := rowSent s h h a (x.src 0)
     s.EReady h (.mrow a b) op vals →
     (rowReady s h (s.hart h).m.sfmt a → ∃ t, exec (.mrow a b) s = .next t ∧
       EDone (s.modM h fun m => { m with rows := m.rows ++ [r] }) t h op 0 (fun _ => none)) ∧
     ((s.hart h).m.active.empty = true ∨ rowPair (s.hart h).m.sfmt.toNat (s.hart h).m.active.fmt.toNat = false →
       exec (.mrow a b) s = .next (s.trap (.eStream h) ⟨.illvt, evalOf (.mrow a b), 0, 0, 0, 0⟩))) ∧
   ∀ (s : State) (r : Row) (rs : List Row), let h := s.ev.n
     let u := s.mxServe (bayOf h)
     (u.hart h).m.rows = r :: rs →
     ((∀ c, r.occEnd = some c → s.cycle < c + 4) → exec .rowComplete s = .next u) ∧
     (∀ c, r.occEnd = some c → c + 4 ≤ s.cycle → let w := fmtWidth r.sfmt.toNat
       let K := s.vlen h / max 1 w
       let g := 32 / max 1 w
       let old := (s.hart h).e.accVal (s.vlen h) r.acc g
       let col := fun j => r.column (s.vlen h) j (elemOf 32 old j)
       ∃ t, exec .rowComplete s = .next t ∧ t = u.setHart h (t.hart h) ∧
         (w ∣ 32 → w ∣ s.vlen h → 1 ≤ w → ∀ j, j < K →
           elemOf 32 ((t.hart h).e.accVal (s.vlen h) r.acc g) j = (col j).1 % 2 ^ 32) ∧
         (∀ n, (n < r.acc ∨ r.acc + g ≤ n) → tgetD (t.hart h).e.main n 0 = tgetD (s.hart h).e.main n 0) ∧
         (t.hart h).m.rows = rs ∧ (t.hart h).a = (s.hart h).a ∧ (t.hart h).r = (s.hart h).r ∧
         (∀ n, n < 5 → ((t.hart h).e.fflags.getLsbD n = true ↔ (s.hart h).e.fflags.getLsbD n = true ∨
           ∃ j, j < K ∧ (col j).2.getLsbD n = true)) ∧
         ((∀ j, j < K → (col j).2 &&& r.fpen = 0) → (t.hart h).m.rowTraps = (s.hart h).m.rowTraps) ∧
         ((∃ j, j < K ∧ (col j).2 &&& r.fpen ≠ 0) → ∃ q, (t.hart h).m.rowTraps = (s.hart h).m.rowTraps ++ [q] ∧
           q.acc = r.acc ∧ q.size = g ∧ q.pc = r.pc) ∧
         (rowPair r.sfmt.toNat r.beam.fmt.toNat = true → rowClass r.sfmt.toNat ≠ some 3 → ∀ j,
           let B := tgetD r.beam.data j 0
           BlocksAre (fmtScaled r.sfmt.toNat)
             (fun k => if k < K ∧ k < r.kt then fmtDecode r.sfmt.toNat (elemOf w r.arow.toNat k) else .zero)
             (fun k => if k < K then fmtDecode r.beam.fmt.toNat (elemOf w B.toNat k) else .zero)
             (fun q => elemOf 8 r.latch.toNat q) (fun q => elemOf 8 (tgetD r.beam.scale j 0).toNat q)
             (ceilDiv K 32) (elemOf 32 old j) (col j)) ∧
         (rowClass r.sfmt.toNat = some 3 → r.beam.fmt.toNat ≤ 1 → ∀ j, (col j).2 = 0 ∧ (col j).1 = wrap 32 ((elemOf 32 old j : Int) +
           ((List.range K).map fun k => if k < r.kt then asInt r.sfmt.toNat 8 (elemOf 8 r.arow.toNat k) *
             asInt r.beam.fmt.toNat 8 (elemOf 8 (tgetD r.beam.data j 0).toNat k) else 0).sum)))) ∧
  (∀ (a b : RCode) (s : State) (h : Nat), s.cur = .eStream h → s.gateFail (.mrowt a b) = none →
     let hs := s.trussStep h
     let t0 := s.modE h fun e => { e with wait := .mrowt a b }
     ((∃ g ∈ hs, (t0.hart g).atMrowt = none) → exec (.mrowt a b) s = .next t0) ∧
     ∀ (f : Nat → RCode × RCode) (img : Nat), h ∈ hs → (∀ g ∈ hs, (t0.hart g).atMrowt = some (f g)) →
       let r := hs.headD 0
       let b0 := (f r).2
       (∀ g ∈ hs, rowReady s g (s.hart r).m.sfmt (f g).1 ∧ (s.hart g).e.Fresh) →
       groupCheck (s.hart r).e (s.hart r).id.rsize b0 1 = none → (s.hart r).m.rowTrap (touches (s.hart r).e b0 1) = none →
       (s.hart r).m.rowBusy (touches (s.hart r).e b0 1) = false →
       (isPort b0 = false → img = ((s.hart r).e.reg b0).toNat % 2 ^ s.vlen r) →
       (isPort b0 = true → ∃ v, (s.aeOf r (b0.toNat - 4)).head? = some (.full v) ∧ img = v.toNat % 2 ^ s.vlen r) →
       ∃ t, exec (.mrowt a b) s = .next t ∧ t.mem = s.mem ∧ (∀ g, g ∉ hs → t.hart g = s.hart g) ∧ ∀ g ∈ hs,
         (t.hart g).m = { (s.hart g).m with rows := (s.hart g).m.rows ++ [rowSent s g r (f g).1 img] } ∧
         (t.hart g).e.pc = (s.hart g).e.pc + 4 ∧ (t.hart g).e.wait = .none ∧ (t.hart g).e.main = (s.hart g).e.main ∧
         (t.hart g).e.l = (s.hart g).e.l ∧ (t.hart g).a.instret = (s.hart g).a.instret + 1 ∧
         ∀ q, q < 4 → t.aeOf g q = if g = r ∧ isPort b0 = true ∧ b0.toNat = q + 4 then (s.aeOf g q).tail else s.aeOf g q)

/-- R309, R310, R314: XCFG writes one setting within its limits, or traps BOUNDS with the value; a new depth clears the history,
as XCLR does; XCHK appends its elements in FP64, dropping the oldest of a full history; XSTAT pushes the two status words. R93, R94, R311, R312, R313, R315: XEPS and XLSQ drain every lane's history in FP64 and round the result to FP32, where no
lane raises an enabled flag; XEPS gives the last entry of the largest even column of Wynn's table, or of those complete before a
divisor within THRESH, which sets NZD; XLSQ traps ILLVT where COUNT is not the depth its weights were loaded for; XTEST sets CONV
where LAST and the element differ by at most the bound and the increments shrink, STAG where they do not, and its mask to their
union with NZD. R93: the operations in FP64 are IEEE binary64 rounded to nearest even; FP32 values enter exactly and leave with one
rounding and its flags. -/
def Obligations.Extrapolation : Prop :=
  ((∀ (it b : RCode) (c : BitVec 2) (s : State) (h : Nat) (vals : List VReg),
     let op : EOp := { cls := none, derived := [], srcs := [b], vecs := [(b, 1)], dst := .none }
     let v := (s.sees h op vals).sc 0
     let X := tgetD (s.hart h).m.xa c.toNat XAcc.zero
     s.EReady h (.xcfg it b c) op vals →
     ((it = 0 ∨ it = 3) ∧ (v = 0 ∨ 8 < v) → exec (.xcfg it b c) s =
       .next (s.trap (.eStream h) ⟨.bounds, BitVec.ofNat 64 v, 0, 0, 0, 0⟩)) ∧
     (¬ ((it = 0 ∨ it = 3) ∧ (v = 0 ∨ 8 < v)) → ∃ (t : State) (Y : XAcc), exec (.xcfg it b c) s = .next t ∧
       EDone (s.modM h fun m => { m with xa := tput m.xa c.toNat Y }) t h op 0 (fun _ => none) ∧
       (it = 0 → Y = { X with depth := v, count := 0, hist := [], conv := 0, stag := 0, nzd := 0, last := [] }) ∧
       (it = 1 → Y = { X with thresh := BitVec.ofNat 64 v }) ∧ (it = 2 → Y = { X with tol := BitVec.ofNat 64 v }) ∧
       (it = 3 → Y = { X with wdepth := v }) ∧
       ∀ k, k < 8 → it.toNat = 8 + k → Y = { X with wt := tput X.wt k (BitVec.ofNat 64 v) })) ∧
   (∀ (c : BitVec 2) (s : State) (h : Nat) (vals : List VReg),
     let op : EOp := { cls := none, derived := [], srcs := [], vecs := [], dst := .none }
     let X := tgetD (s.hart h).m.xa c.toNat XAcc.zero
     s.EReady h (.xclr c) op vals → ∃ t, exec (.xclr c) s = .next t ∧ EDone (s.modM h fun m => { m with
       xa := tput m.xa c.toNat { X with count := 0, hist := [], conv := 0, stag := 0, nzd := 0, last := [] } }) t h op 0
       (fun _ => none)) ∧
   (∀ (b : RCode) (c : BitVec 2) (s : State) (h : Nat) (vals : List VReg),
     let op : EOp := { cls := none, derived := [], srcs := [b], vecs := [(b, 1)], dst := .none }
     let x := s.sees h op vals
     let X := tgetD (s.hart h).m.xa c.toNat XAcc.zero
     s.EReady h (.xchk b c) op vals → ∃ (t : State) (v : Tab W64), exec (.xchk b c) s = .next t ∧
       (∀ i, tgetD v i 0 = if i < (s.hart h).id.lanes then histEntry (elemOf 32 (x.src 0) i) else 0) ∧
       EDone (s.modM h fun m => { m with xa := tput m.xa c.toNat (if X.count = X.depth then
         { X with hist := X.hist.drop 1 ++ [v] } else { X with hist := X.hist ++ [v], count := X.count + 1 }) }) t h op 0
         (fun _ => none)) ∧
   ∀ (a c : BitVec 2) (s : State) (h : Nat), s.cur = .eStream h → s.gateFail (.xstat a c) = none →
     let X := tgetD (s.hart h).m.xa c.toNat XAcc.zero
     (s.hart h).e.Fresh → (s.eaOf h a.toNat).length ≤ 6 → ∃ t, exec (.xstat a c) s = .next t ∧ s.SameElsewhere t ∧ SameE (s.hart h) (t.hart h) ∧
       (t.hart h).e.pc = (s.hart h).e.pc + 4 ∧ (t.hart h).e.vstart = 0 ∧ (t.hart h).e.main = (s.hart h).e.main ∧
       (∀ q, q ≠ a.toNat → t.eaOf h q = s.eaOf h q) ∧ t.eaOf h a.toNat = s.eaOf h a.toNat ++
         [BitVec.ofNat 64 (X.conv.toNat + 2 ^ 32 * X.stag.toNat),
          BitVec.ofNat 64 (X.nzd.toNat + 2 ^ 32 * X.count + 2 ^ 36 * X.depth + 2 ^ 40 * X.wdepth)]) ∧
  ((∀ (a : RCode) (c : BitVec 2) (s : State) (h : Nat) (vals : List VReg) (i : Instr), (i = .xeps a c ∨ i = .xlsq a c) →
     let op : EOp := { cls := none, derived := [], srcs := [], vecs := [], dst := .vec a 1 32 }
     let X := tgetD (s.hart h).m.xa c.toNat XAcc.zero
     let L := (s.hart h).id.lanes
     let hist := fun k => X.hist.map fun v => tgetD v k 0
     ∀ res : Nat → W64 × Bool,
     (i = .xlsq a c → ∀ k, res k =
       (((List.range X.count).map fun n => tgetD X.wt n 0).zip (hist k) |>.foldl (fun acc p => f64Fma p.1 p.2 acc) 0, false)) →
     (i = .xeps a c → ∀ k, (hist k = [] → res k = (0, false)) ∧ ∀ (e : Nat → Nat → W64) (last : Nat), EpsTable (hist k) e →
       let n := (hist k).length
       let small := fun c => ∃ j, c + j + 1 < n ∧ f64Le (f64Abs (f64Sub (e (c + 1) (j + 1)) (e (c + 1) j))) X.thresh = true
       last % 2 = 0 → 
       (last < n → (n ≤ last + 2) → (∀ c, ¬ small c) → res k = (e (last + 1) (n - 1 - last), false)) ∧
       ∀ c, small c → (∀ d, d < c → ¬ small d) → last ≤ c → c ≤ last + 1 → res k = (e (last + 1) (n - 1 - last), true)) →
     let r32 := fun k => if ∃ x ∈ hist k, (f64 x).isNan = true then (0x7FC0_0000, flNV) else f64to32 (res k).1
     s.EReady h i op vals → (i = .xlsq a c → X.count = X.wdepth) → (∀ k, k < L → (r32 k).2 &&& (s.hart h).e.fpen = 0) →
     ∃ (t : State) (fl : BitVec 5) (last : Tab (BitVec 32)) (nzd : BitVec 32), exec i s = .next t ∧
       EDone (s.modM h fun m => { m with xa := tput m.xa c.toNat { X with last := last, nzd := nzd } }) t h op fl
         (fun (k : Nat) => if k < L then some (r32 k).1 else none) ∧
       (∀ n, n < 5 → (fl.getLsbD n = true ↔ ∃ k, k < L ∧ (r32 k).2.getLsbD n = true)) ∧
       (∀ k, k < L → tgetD last k 0 = BitVec.ofNat 32 (r32 k).1) ∧
       ∀ k, k < 32 → nzd.getLsbD k = (decide (k < L) && (res k).2)) ∧
   (∀ (a : RCode) (c : BitVec 2) (s : State) (h : Nat) (vals : List VReg),
     let op : EOp := { cls := none, derived := [], srcs := [], vecs := [], dst := .vec a 1 32 }
     let X := tgetD (s.hart h).m.xa c.toNat XAcc.zero
     s.EReady h (.xlsq a c) op vals → X.count ≠ X.wdepth →
     exec (.xlsq a c) s = .next (s.trap (.eStream h) ⟨.illvt, evalOf (.xlsq a c), 0, 0, 0, 0⟩)) ∧
   ∀ (a : BitVec 3) (b : RCode) (c : BitVec 2) (s : State) (h : Nat) (vals : List VReg),
     let op : EOp := { cls := none, derived := [], srcs := [b], vecs := [(b, 1)], dst := .none }
     let x := s.sees h op vals
     let X := tgetD (s.hart h).m.xa c.toNat XAcc.zero
     let L := (s.hart h).id.lanes
     s.EReady h (.xtest a b c) op vals → ∃ (t : State) (conv stag : BitVec 32), exec (.xtest a b c) s = .next t ∧
       EDone (s.modHart h fun v => { v with
         m := { v.m with xa := tput v.m.xa c.toNat { X with conv := conv, stag := stag } }
         e := { v.e with mask := tput v.e.mask a.toNat ((conv ||| stag ||| X.nzd).setWidth 2048) } }) t h op 0 (fun _ => none) ∧
       ∀ k, k < 32 →
         let new := f32to64 (tgetD X.last k 0).toNat
         let S := fun n => tgetD (X.hist.getD n []) k 0
         let n := X.hist.length
         let d1 := f64Abs (f64Sub (S (n - 1)) (S (n - 2)))
         let d0 := f64Abs (f64Sub (S (n - 2)) (S (n - 3)))
         let pass := f64Le (f64Abs (f64Sub new (f32to64 (elemOf 32 (x.src 0) k)))) (f64Mul X.tol (f64Abs new)) = true
         let stagnant := 3 ≤ n ∧ d1 ≠ 0 ∧ f64Le d0 d1 = true
         (conv.getLsbD k = true ↔ k < L ∧ pass ∧ ¬ stagnant) ∧ (stag.getLsbD k = true ↔ k < L ∧ pass ∧ stagnant)) ∧
  -- the arithmetic: binary64 and FP32 with round to nearest even, FP32 values taken exactly
  (∀ (a b c : W64) (p q r : ℝ), (f64 a).Is p → (f64 b).Is q → (f64 c).Is r →
    let sg := fun (x : W64) => x.getLsbD 63
    let is := fun (x : ℝ) (z : Bool) (v : W64) => ∃ fl, spFP64.Result 0 x z (v.toNat, fl)
    is (p + q) (sg a && sg b) (f64Add a b) ∧ is (p - q) (sg a && !sg b) (f64Sub a b) ∧ is (p * q) (sg a != sg b) (f64Mul a b) ∧
    (q ≠ 0 → is (p / q) (sg a != sg b) (f64Div a b)) ∧ (p ≠ 0 → q = 0 → f64 (f64Div a b) = .inf (sg a != sg b)) ∧
    is (p * q + r) ((sg a != sg b) && sg c) (f64Fma a b c) ∧ (f64 (f64Abs a)).Is |p| ∧ (f64Le a b = true ↔ p ≤ q) ∧
    spFP32.Result 0 p (sg a) (f64to32 a)) ∧
  (∀ a b : W64, (f64 a).isNan = true ∨ (f64 b).isNan = true → f64Le a b = false ∧ (f64 (f64Add a b)).isNan = true ∧
    (f64 (f64Sub a b)).isNan = true ∧ (f64 (f64Mul a b)).isNan = true ∧ (f64 (f64Div a b)).isNan = true) ∧
  ∀ (v : Nat) (p : ℝ) (n : Bool), v < 2 ^ 32 → let d := spFP32.decode v
    (d.Is p → (f64 (f32to64 v)).Is p ∧ (f32to64 v).getLsbD 63 = v.testBit 31) ∧
    (d = .inf n → f64 (f32to64 v) = .inf n ∧ f64to32 (f32to64 v) = (v, 0)) ∧
    (d.isNan = true → (f64 (f32to64 v)).isNan = true ∧ (f64 (histEntry v)).isNan = true) ∧ (d.isNan = false → histEntry v = f32to64 v)
/-! Transfers and the copy engines (R204, R318..R326). -/

/-- R108, R204, R323: CPLAUNCH, and CSRRD of its register, of shadows that pass the checks takes the lowest FREE slot, which
holds the shadows, a generation one higher and the bits of no chunk it has, enters the copy engine of its truss, and gives
the TID, with a release (R124); a refused launch gives its code, and takes nothing, but that one with code 2 triggers a snapshot
where the region's CAPTURE has bit 26; a full engine is waited for. R323, R324: what is
refused, in which order, and the number of chunks of what is not; bits of the shadows that a launch does not
use are ignored (log 53). -/
def Obligations.TransferLaunch : Prop :=
  (∀ (s : State) (o : Option Nat) (q : Geo) (bar : Bool), 0 < q.es →
    let noFmt := fun (f : Nat) => f = 11 ∧ s.has .fp4 = false ∨ (f = 12 ∨ f = 13) ∧ s.has .dFormats = false
    let noFeat := (q.kind = 3 ∨ q.kind = 4) ∧ s.has .compress = false ∨ q.kind = 2 ∧ (noFmt q.sfmt ∨ noFmt q.dfmt)
    let ws := fmtWidth q.sfmt
    let wd := fmtWidth q.dfmt
    let n := q.inner * 8 / ws
    let badShape := 6 ≤ q.kind ∨ q.planes = 0 ∨ q.rows = 0 ∨ q.inner = 0 ∨ 6 ≤ q.rnd ∨
      (q.kind = 1 ∨ q.kind = 5) ∧ q.inner % q.es ≠ 0 ∨
      q.kind = 2 ∧ (14 ≤ q.sfmt ∨ 14 ≤ q.dfmt ∨ q.inner * 8 % ws ≠ 0 ∨ n * wd % 8 ≠ 0) ∨
      (q.kind = 3 ∨ q.kind = 4) ∧ (q.planes ≠ 1 ∨ q.rows ≠ 1) ∨ q.kind = 3 ∧ q.inner % 512 ≠ 0 ∨ q.kind = 4 ∧ q.inner % 4 ≠ 0
    let rowsd := if q.kind = 1 then q.inner / q.es else if q.kind = 5 then q.top + q.rows + q.bottom else q.rows
    let blocks := ceilDiv q.inner 512
    let ob := if q.kind = 1 then q.rows * q.es else if q.kind = 2 then n * wd / 8
      else if q.kind = 4 then 512 * blocks + 64 * ceilDiv (2 * blocks) 64
      else if q.kind = 5 then q.inner + (q.before + q.after) * q.es else q.inner
    let stride := fun (x : Int) => if q.kind = 3 ∨ q.kind = 4 then 0 else x
    let chunks := ceilDiv (q.planes * rowsd * ob) (512 * 2 ^ q.g)
    let chk := s.launchCheck o q bar
    (noFeat → chk = .error .feature) ∧
    (¬ noFeat → badShape → chk = .error (.code 3)) ∧
    (¬ noFeat → ¬ badShape → 0 < ob → ∀ slo shi dlo dhi : Int,
      BoxIs q.src q.planes q.rows (if q.kind = 3 then 512 * blocks + 64 * ceilDiv (2 * blocks) 64 else q.inner) (stride q.sps)
        (stride q.srs) slo shi →
      BoxIs q.dst q.planes rowsd ob (stride q.dps) (stride q.drs) dlo dhi →
      let bad := 64 < chunks ∨ s.boxOk o (slo, shi) = false ∨ s.boxOk o (dlo, dhi) = false ∨ bar = false
      let overlap := 1 ≤ q.kind ∧ q.kind ≤ 4 ∧ slo ≤ dhi ∧ dlo ≤ shi
      (bad → chk = .error (.code 3)) ∧ (¬ bad → overlap → chk = .error (.code 2)) ∧ (¬ bad → ¬ overlap → chk = .ok chunks))) ∧
  ∀ (a : RCode) (i : Instr) (s : State) (h : Nat), (i = .cplaunch a ∨ i = .csrrd a 0x08F) → s.cur = .aStream h →
    s.Ready i [] [a] → csrDeny s.cur 0x08F = none →
    let cp := (s.hart h).a.cp
    let chk := s.launchCheck (some h) (Geo.of cp)
      (!cp.bar.getLsbD 0 || decide (16 * (cp.bar.toNat / 16 % 2 ^ 19) + 16 ≤ (s.hart h).r.bound))
    (chk = .error .feature → exec i s = .next (s.raise .feature (evalOf i))) ∧
    (chk = .error (.code 3) → ∃ t, exec i s = .next t ∧ Done s t [] a (refusedWith 3)) ∧
    (chk = .error (.code 2) → ∃ t, exec i s = .next t ∧
      Done (if (s.hart h).id.capture.getLsbD 26 then s.snapTrigger else s) t [] a (refusedWith 2)) ∧
    ∀ n, chk = .ok n →
      ((∀ k, k < 32 → (s.slot h k).state ≠ .free) →
        ∃ t, exec i s = .next t ∧ Done s t [] a (refusedWith 1)) ∧
      ∀ k, s.LowestFree h k → let q := tgetD s.copyq (h / 64) []
        (64 ≤ q.length → exec i s = .next (s.modA h fun r => { r with wait := .stall })) ∧
        (q.length < 64 → ∃ (t : State) (x : Xfer), exec i s = .next t ∧
          Taken (s.slot h k) x n (s.hart h).a.pc cp false .copy ∧
          Done (({ s.withSlot h k x with copyq := tput s.copyq (h / 64) (q ++ [.slot h k x.gen]) } : State).l1Release h) t [] a
            (tidWord k x.gen))

/-- The slot that a TID names, if it names a transfer that is not FREE (R320). R318, R320, R321: CPWAIT and CPTEST complete at once for a TID that names nothing; CPWAIT stands until the chunks of its
mask have landed or the transfer has ended, covers them, acquires (R124), and traps CPERR with the launch and the TID where the transfer
failed and one has not landed; CPTEST gives the bitmap or the status word, and covers every chunk of an ended transfer; a
slot whose ended transfer is covered whole is FREE. R322: CPCANCEL of a TID that names nothing, or an ended transfer, completes; of any other
transfer under way than a subscription it lands the chunks in flight, writing their bytes and setting their bits (stated for a transfer
without a barrier), ends the transfer DONE with status CANCELLED, takes it from its engine's queue, and completes; of a subscription
under way it marks it, with status CANCELLED, and the stream stands until the sill has ended it. VCKM puts the bitmap into a mask, all ones for a TID that names nothing, covers an ended transfer, and traps CPERR
for a failed one. -/
def Obligations.TransferWaits : Prop :=
  (∀ (s : State) (h : Nat) (v : W64) (i : Nat), s.live h v = some i ↔
     i = v.toNat % 32 ∧ v.getLsbD 63 = false ∧ v.toNat / 256 % 256 = (s.slot h i).gen.toNat ∧ (s.slot h i).state ≠ .free) ∧
  ((∀ (b c : RCode) (s : State) (h : Nat), s.cur = .aStream h → s.Ready (.cpwait b c) [b, c] [] →
     let tid := s.src [b, c] 0
     let m := s.src [b, c] 1
     (s.live h tid = none → ∃ t, exec (.cpwait b c) s = .next t ∧ Done s t [b, c] 0 0) ∧
     ∀ i, s.live h tid = some i → let x := s.slot h i
       (x.state = .active → x.bitmap &&& m ≠ m →
         exec (.cpwait b c) s = .next (s.modA h fun r => { r with wait := .cpwait })) ∧
       (x.state ≠ .failed → (x.bitmap &&& m = m ∨ x.state = .done) → ∃ t, exec (.cpwait b c) s = .next t ∧
         Done ((s.cover h i m).l1Acquire h) t [b, c] 0 0) ∧
       (x.state = .failed → x.bitmap &&& m = m → ∃ t, exec (.cpwait b c) s = .next t ∧ Done ((s.cover h i m).l1Acquire h) t [b, c] 0 0) ∧
       (x.state = .failed → x.bitmap &&& m ≠ m → exec (.cpwait b c) s = .next
         (((s.cover h i m).modR h fun r => { r with pendFail := tdel r.pendFail x.launched }).trap (.aStream h)
           ⟨.cperr, 0, x.launchPc, tid, 0, 0⟩))) ∧
   (∀ (a b c : RCode) (s : State) (h : Nat), s.cur = .aStream h → s.Ready (.cptest a b c) [b] [a] →
     (s.live h (s.src [b] 0) = none → ∃ t, exec (.cptest a b c) s = .next t ∧
       Done s t [b] a (if c = 0 then BitVec.allOnes 64 else 0)) ∧
     ∀ i, s.live h (s.src [b] 0) = some i → let x := s.slot h i
       ∃ t, exec (.cptest a b c) s = .next t ∧
         Done (if x.state = .active then s else s.cover h i (BitVec.allOnes 64)) t [b] a (if c = 0 then x.bitmap else
           BitVec.ofNat 64 ((if x.state = .active then 1 else if x.state = .done then 2 else 3) + 2 ^ 8 * x.gen.toNat +
             2 ^ 16 * x.status.toNat + (if x.sill = true then 2 ^ 24 else 0) + 2 ^ 25 * x.flags.toNat))) ∧
   ∀ (s : State) (h i : Nat) (m : W64), let x := s.slot h i
     s.cover h i m = s.modR h fun r => { r with slots := tput r.slots i { x with
       covered := x.covered ||| m
       state := if (x.state = .done ∨ x.state = .failed) ∧ x.covered ||| m = BitVec.allOnes 64 then .free else x.state } }) ∧
  (∀ (b : RCode) (s : State) (h : Nat), s.cur = .aStream h → s.Ready (.cpcancel b) [b] [] →
     (s.live h (s.src [b] 0) = none → ∃ t, exec (.cpcancel b) s = .next t ∧ Done s t [b] 0 0) ∧
     ∀ i, s.live h (s.src [b] 0) = some i → let x := s.slot h i
       let sub := ∃ td buf off ns sz nx st ti, x.job = .ssub td buf off ns sz nx st ti
       let cells := x.flight.flatMap (·.writes)
       (x.state ≠ .active → x.flight = [] → ∃ t, exec (.cpcancel b) s = .next t ∧ Done s t [b] 0 0) ∧
       (x.state = .active → sub → x.flight = [] → exec (.cpcancel b) s = .next
         ((s.modR h fun r => { r with slots := tput r.slots i { x with cancelled := true, status := 6 } }).modA h fun r =>
           { r with wait := .stall })) ∧
       (x.state = .active → ¬ sub → (x.flight = [] ∨ x.sh.bar.getLsbD 0 = false) → (∀ f ∈ x.flight, s.cellsBad f.writes = false) →
         (∀ c ∈ cells, isIo c.1 = false ∧ s.cutKey c.1 = false) → (cells.map (·.1)).Nodup → (x.flight.map (·.chunk)).Nodup →
         ∃ (t u : State) (bits : BitVec 64) (fl : BitVec 5),
         exec (.cpcancel b) s = .next t ∧ Done u t [b] 0 0 ∧
         (∀ k, bits.getLsbD k = true ↔ x.bitmap.getLsbD k = true ∨ k < 64 ∧ ∃ f ∈ x.flight, f.chunk = k) ∧
         (∀ k, fl.getLsbD k = true ↔ x.flags.getLsbD k = true ∨ ∃ f ∈ x.flight, f.flags.getLsbD k = true) ∧
         (∀ c ∈ cells, u.byteOf c.1 = c.2) ∧ (∀ k, k ∉ cells.map (·.1) → u.byteOf k = s.byteOf k) ∧
         u = { s with
           mem := u.mem, bad := u.bad
           harts := u.harts
           copyq := s.copyq.map fun p => (p.1, p.2.filter fun q => q != .slot h i x.gen)
           sillq := s.sillq.map fun p => (p.1, p.2.filter fun q => q.ref != .slot h i x.gen) } ∧
         (∀ g, u.hart g = { s.hart g with r := { (s.hart g).r with
           dirty := (u.hart g).r.dirty, slots := if g = h then (u.hart h).r.slots else (s.hart g).r.slots } }) ∧
         (x.flight = [] → u.mem = s.mem ∧ u.bad = s.bad ∧ ∀ g, (u.hart g).r.dirty = (s.hart g).r.dirty) ∧
         (∀ j, j ≠ i → u.slot h j = s.slot h j) ∧
         u.slot h i = { x with
           cancelled := true, status := 6, paused := [], flight := [], bitmap := bits, flags := fl
           state := if x.covered = BitVec.allOnes 64 then .free else .done })) ∧
(∀ (a : BitVec 3) (b : RCode) (s : State) (h : Nat) (vals : List VReg),
   let op : EOp := { cls := none, derived := [], srcs := [b], vecs := [(b, 1)], dst := .none }
   let tid := BitVec.ofNat 64 ((s.sees h op vals).sc 0)
   let put := fun (u : State) (m : MaskReg) => u.modE h fun e => { e with mask := tput e.mask a.toNat m }
   s.EReady h (.vckm a b) op vals →
   (s.live h tid = none → ∃ t, exec (.vckm a b) s = .next t ∧
     EDone (put s (BitVec.ofNat 2048 (2 ^ 64 - 1))) t h op 0 (fun _ => none)) ∧
   ∀ i, s.live h tid = some i → let x := s.slot h i
     let u := if x.state = .active then s else s.cover h i (BitVec.allOnes 64)
     (x.state ≠ .failed → ∃ t, exec (.vckm a b) s = .next t ∧ EDone (put u (x.bitmap.setWidth 2048)) t h op 0 (fun _ => none)) ∧
     (x.state = .failed → exec (.vckm a b) s = .next
       (((u.modR h fun r => { r with pendFail := tdel r.pendFail x.launched }).modE h fun e =>
         { e with vstart := 0, kept := false, latch := [], latchQ := [], reserved := none, staging := none, prog := none }).trap (.eStream h)
           ⟨.cperr, 0, x.launchPc, tid, 0, 0⟩)))

/-- R326: BGATHER of a tensor that its bay holds reads its list, writes the word of the coordinates outside the grid, and
takes a slot as a launch does, with one chunk for each block; a list with a reserved bit, a SILL tensor, a tile larger than a
chunk, or a destination outside the hart's allocation is refused with code 3. -/
def Obligations.BlockGather : Prop :=
  ∀ (a b ti : RCode) (s : State) (h : Nat) (X : Tens), s.cur = .aStream h → s.Ready (.bgather a b ti) [b] [a] →
    s.tensHeld h ti.toNat = some X → s.tdUse X.td = 0 →
    let v := (s.src [b] 0).toNat
    let l := v % 2 ^ 48
    let n := v / 2 ^ 56 % 64 + 1
    let cp := (s.hart h).a.cp
    let q := Geo.of cp
    (v / 2 ^ 62 ≠ 0 ∨ v / 2 ^ 48 % 256 ≠ 0 → ∃ t, exec (.bgather a b ti) s = .next t ∧
      Done s t [b] a (refusedWith 3)) ∧
    ∀ ds w s1 s2, v / 2 ^ 62 = 0 → v / 2 ^ 48 % 256 = 0 → s.aLoads s.cur (l + 8) (2 * n) = (.ok ds, s1) →
      s1.aLoad s.cur l 8 = (.ok w, s2) →
      let cs := fun (k d : Nat) => sext 16 ((ds.getD (2 * k + d / 4) 0).toNat / 2 ^ (16 * (d % 4)))
      let out := fun k => ∃ d, d < tdRank X.td ∧ (cs k d < 0 ∨ (ceilDiv (tdDim X.td d) (tdTile X.td d) : Int) ≤ cs k d)
      X.buf = none →
      let bad := tdLayout X.td ≠ 0 ∨ q.chunk < tdTileBytes X.td ∨ q.dst < ownBase ∨ ownBase + (s.hart h).r.bound < q.dst + n * q.chunk ∨
        cp.bar.getLsbD 0 = true ∧ (s.hart h).r.bound < 16 * (cp.bar.toNat / 16 % 2 ^ 19) + 16
      (bad → ∃ t, exec (.bgather a b ti) s = .next t ∧ Done s2 t [b] a (refusedWith 3)) ∧
      (¬ bad → ∀ k, s.LowestFree h k → (tgetD s.copyq (h / 64) []).length < 64 → ∀ (oob : W64) (s3 : State),
        (∀ j, j < 64 → (oob.getLsbD j = true ↔ j < n ∧ out j)) → s2.aStore s.cur l 8 oob.toNat = (none, s3) →
        ∃ (t : State) (x : Xfer) (crd : List (List Int)), exec (.bgather a b ti) s = .next t ∧
          Taken (s.slot h k) x n (s.hart h).a.pc cp false (.gather X.td false crd oob) ∧
          (∀ j d, j < n → d < tdRank X.td → (crd.getD j []).getD d 0 = cs j d) ∧
          Done (({ s3.withSlot h k x with
            copyq := tput s3.copyq (h / 64) (tgetD s3.copyq (h / 64) [] ++ [.slot h k x.gen]) } : State).l1Release h)
            t [b] a (tidWord k x.gen))

/-- R324, R325: byte j of chunk k of PLAIN, TRANSPOSE or PAD is byte d = 512 2^g k + j of the destination in plane, row and
column order: it is written to DST plus its plane's and row's strides plus its column, and comes from the source byte of the
same place, of the transposed element, or of the place less the margins, and outside it is the pad value's byte. R138, R139, R324: of CONVERT it
holds the row's elements, each converted with the mode, whose flags the chunk accrues; of EXPAND it is the byte of its block, decoded,
of whose slot no byte is read but those that its header names, and a block that does not decode fails the transfer with DECODE; of
COMPRESS it is a byte of a block's encoding or of its header, a short block padded with zeros, or a byte left open (log 3). R167, R318, R319, R325: an engine starts a chunk by its reads and translations, which change no memory but table entries,
and puts its bytes in flight; landing writes exactly those bytes, sets the chunk's bit and accrues its flags; the last
landing ends the transfer DONE and takes it from its queue. R203: with a barrier, it takes the number of the chunk's bytes from PENDING
in the same step, and then, where LEFT and PENDING are 0, PHASE flips and LEFT is COUNT again. -/
def Obligations.CopyEngine : Prop :=
  (∀ (q : Geo) (rowsd ob k : Nat), q.out = some (rowsd, ob) → (q.kind = 0 ∨ q.kind = 1 ∨ q.kind = 5) → 0 < q.es →
     let p := q.plan rowsd ob k
     let total := q.planes * rowsd * ob
     let n := min q.chunk (total - k * q.chunk)
     p.dst.length = n ∧ ∀ (bs : List Byte) (w : W64), bs.length = p.need.length → ∃ (out : List Byte) (from_ : Nat → Option Nat),
       p.make bs w = some (out, 0) ∧ out.length = n ∧ ∀ j, j < n →
       let d := k * q.chunk + j
       let P := d / ob / rowsd
       let r := d / ob % rowsd
       let x := d % ob
       let src := fun (r x : Nat) => Loc.va ((q.src : Int) + P * q.sps + r * q.srs + x)
       let inside := q.top ≤ r ∧ r < q.top + q.rows ∧ q.before * q.es ≤ x ∧ x < q.before * q.es + q.inner
       p.dst.getD j (.va 0) = .va ((q.dst : Int) + P * q.dps + r * q.drs + x) ∧
       (∀ i, from_ j = some i → i < bs.length ∧ out.getD j 0 = bs.getD i 0 ∧ p.need.getD i (.va 0) =
         if q.kind = 0 then src r x else if q.kind = 1 then src (x / q.es) (r * q.es + x % q.es)
         else src (r - q.top) (x - q.before * q.es)) ∧
       (from_ j = none ↔ q.kind = 5 ∧ ¬ inside) ∧
       (from_ j = none → out.getD j 0 = BitVec.ofNat 8 (q.value / 256 ^ (x % q.es)))) ∧
  (∀ (q : Geo) (rowsd ob k : Nat) (M : Int → Byte) (w : W64), q.out = some (rowsd, ob) → 2 ≤ q.kind → q.kind ≤ 4 →
     let p := q.plan rowsd ob k
     let total := q.planes * rowsd * ob
     let n := min q.chunk (total - k * q.chunk)
     let read := fun (l : List Loc) => l.map fun l => match l with | .va a => M a | .cell _ => 0
     let bs := read p.need ++ read (p.more (read p.need))
     let at_ := fun (x : Nat) => M ((q.src : Int) + x)
     (∀ l ∈ p.need ++ p.more (read p.need), ∃ a, l = .va a) ∧ p.dst.length = n ∧
     (q.kind = 2 → p.more (read p.need) = [] ∧
       let ws := fmtWidth q.sfmt
       let wd := fmtWidth q.dfmt
       let conv := fun (j e : Nat) => let d := k * q.chunk + j
         let row := (q.src : Int) + (d / ob / rowsd : Nat) * q.sps + (d / ob % rowsd : Nat) * q.srs
         convert (fmtDecode q.sfmt (ofBytes ((List.range (max 1 (ws / 8))).map fun u => M (row + (e * ws / 8 + u : Nat))) /
           2 ^ (e * ws % 8) % 2 ^ ws)) q.dfmt q.rnd
       ∃ out fl, p.make bs w = some (out, fl) ∧ out.length = n ∧
         (∀ j, j < n → let d := k * q.chunk + j
           p.dst.getD j (.va 0) = .va ((q.dst : Int) + (d / ob / rowsd : Nat) * q.dps + (d / ob % rowsd : Nat) * q.drs + (d % ob : Nat)) ∧
           ∀ t, t < 8 → let b := 8 * (d % ob) + t
             (out.getD j 0).getLsbD t = (conv j (b / wd)).1.testBit (b % wd)) ∧
         ∀ f, f < 5 → (fl.getLsbD f = true ↔ ∃ j t, j < n ∧ t < 8 ∧
           (conv j ((8 * ((k * q.chunk + j) % ob) + t) / wd)).2.getLsbD f = true)) ∧
     (3 ≤ q.kind → ∀ j, j < n → p.dst.getD j (.va 0) = .va ((q.dst : Int) + (k * q.chunk + j : Nat))) ∧
     (q.kind = 3 →
       let hdr := fun b => ofBytes ((List.range 2).map fun j => at_ (q.inner + 2 * b + j))
       let slot := fun b => (List.range 512).map fun j => at_ (512 * b + j)
       let mine := fun b => ∃ j, j < n ∧ (k * q.chunk + j) / 512 = b
       (∀ l ∈ p.need, ∃ b j, mine b ∧ j < 2 ∧ l = .va ((q.src : Int) + (q.inner + 2 * b + j : Nat))) ∧
       (∀ l ∈ p.more (read p.need), ∃ b j, mine b ∧ j < (if (hdr b).testBit 15 then 512 else 8 * (hdr b % 64)) ∧
         l = .va ((q.src : Int) + (512 * b + j : Nat))) ∧
       ((∃ b, mine b ∧ decodeBlock (hdr b) (slot b) = none) → p.make bs w = none) ∧
       ((∀ b, mine b → decodeBlock (hdr b) (slot b) ≠ none) → ∃ out, p.make bs w = some (out, 0) ∧ out.length = n ∧
         ∀ j, j < n → let d := k * q.chunk + j
           ∀ raw, decodeBlock (hdr (d / 512)) (slot (d / 512)) = some raw → out.getD j 0 = raw.getD (d % 512) 0)) ∧
     (q.kind = 4 → p.more (read p.need) = [] ∧
       let enc := fun b => encodeBlock ((List.range 512).map fun j => if 512 * b + j < q.inner then at_ (512 * b + j) else 0)
       let N := ceilDiv q.inner 512
       ∃ out, p.make bs w = some (out, 0) ∧ out.length = n ∧
         ∀ j, j < n → let d := k * q.chunk + j
           (d < 512 * N → d % 512 < (enc (d / 512)).2.length → out.getD j 0 = (enc (d / 512)).2.getD (d % 512) 0) ∧
           (512 * N ≤ d → d < 514 * N → out.getD j 0 =
             BitVec.ofNat 8 ((enc ((d - 512 * N) / 2)).1 / 256 ^ ((d - 512 * N) % 2))))) ∧
  ((∀ (s : State) (r : XRef) (x : Xfer) (k : Nat) (p : Plan), s.engNext s.ev.n = some (r, x, k) → s.xferPlan r x k = some p →
     let c := s.engCtx r (512 + s.ev.n)
     ∀ b0 s0 b1 s1, s.engReads c p.need = (.ok b0, s0) → s0.engReads c (p.more b0) = (.ok b1, s1) →
       let made := p.make (b0 ++ b1) (Config.freeWord s1.free)
       let u := ({ s1 with free := s1.free + 1 } : State)
       (made = none → exec .chunkStart s = .next (u.failXfer r 5)) ∧
       ∀ out fl ks s2, made = some (out, fl) → u.engCells c p.dst = (.ok ks, s2) →
       s.Walked s2 ∧ exec .chunkStart s = .next (s2.setXfer r { x with
         started := x.started ||| BitVec.ofNat 64 (2 ^ k)
         flight := x.flight ++ [{ chunk := k, writes := ks.zip out, bytes := out.length, flags := fl }] })) ∧
   (∀ s : State, s.engNext s.ev.n = none → exec .chunkStart s = .next s) ∧
   ∀ (s : State) (h i : Nat) (g : BitVec 8) (x : Xfer) (f : Flight), let r : XRef := .slot h i g
     let bar := x.sh.bar.getLsbD 0 = true ∧ x.sill = false
     let kb := scratchKey (h / 8) ((s.hart h).r.alloc + (s.hart h).r.base + 16 * (x.sh.bar.toNat / 16 % 2 ^ 19))
     let inBar := fun (k : Nat) => bar ∧ kb ≤ k ∧ k < kb + 16
     s.flightOf = some (r, f) → s.xfer? r = some x → x.state = .active → (bar → readBad s kb 16 = false) →
     (∀ c ∈ f.writes, ¬ inBar c.1) → s.cellsBad f.writes = false →
     (∀ c ∈ f.writes, isIo c.1 = false ∧ s.cutKey c.1 = false) → (f.writes.map (·.1)).Nodup →
     let x1 := { x with
       bitmap := x.bitmap ||| BitVec.ofNat 64 (2 ^ f.chunk), flags := x.flags ||| f.flags
       flight := x.flight.filter fun g => g.chunk != f.chunk }
     let last := x1.flight = [] ∧ (x1.bitmap = BitVec.allOnes 64 ∨ x.cancelled = true)
     ∃ t, exec .chunkLanding s = .next t ∧ (∀ c ∈ f.writes, t.byteOf c.1 = c.2) ∧
       (∀ k, k ∉ f.writes.map (·.1) → ¬ inBar k → t.byteOf k = s.byteOf k) ∧
       (bar → let r := { s.bar kb with pending := ((s.bar kb).pending + 2 ^ 32 - f.bytes % 2 ^ 32) % 2 ^ 32 }
         t.bar kb = if r.left = 0 ∧ r.pending = 0 then { r with phase := !r.phase, left := r.count } else r) ∧
       (¬ last → t.slot h i = x1 ∧ t.copyq = s.copyq) ∧
       (last → t.slot h i = { x1 with
           paused := [], state := if x.covered = BitVec.allOnes 64 then .free else .done } ∧
         ∀ e, tgetD t.copyq e [] = (tgetD s.copyq e []).filter fun q => q != r) ∧
       (∀ j, (h, i) ≠ j → t.slot j.1 j.2 = s.slot j.1 j.2) ∧ t.plates = s.plates ∧ t.cmds = s.cmds)
/-! Stream loads, stage barriers, identifiers and launches of a step (R202, R203, R251..R256, R327..R329). -/

/-- R124, R327, R328: a stream load whose reads pass pushes one entry that waits for its data, the image of the bytes read, through
its bay's L1 where they are cached: VLEN / 8 contiguous bytes, or the words at a stride; a read that meets an uncorrectable error makes
the entry one that fails at its address. R138, R327, R328: SLDZ reads the header and the slot of the block that holds its address, and its entry holds the VLEN / 8
raw bytes from there, or, where the block does not decode, fails at its header's address; an address outside the region traps
BOUNDS. STREAM_LOAD_FILL completes the first entry of a queue that waits. -/
def Obligations.StreamLoads : Prop :=
  (∀ (i : Instr) (a : RCode) (srcs : List RCode) (s : State) (h : Nat) (us : List (Nat × Nat)), s.cur = .aStream h →
     let n := s.vlen h / 8
     (∃ b, i = .sld a b ∧ srcs = [b] ∧ (s.src [b] 0).toNat % n = 0 ∧
       us = (List.range (n / 8)).map fun k => ((s.src [b] 0).toNat + 8 * k, 8)) ∨
     (∃ b c, i = .slds a b c ∧ srcs = [b, c] ∧
       us = (List.range (n / 4)).map fun k => ((s.src [b, c] 0 + BitVec.ofNat 64 k * s.src [b, c] 1).toNat, 4)) →
     s.Ready i srcs [a] → (∀ u ∈ us, s.placeH h u.1 u.2 ≠ .bounds ∧ u.1 % 4 = 0) →
     ∀ ks s1, s.slXlat s.cur us = (.ok ks, s1) →
     s.Walked s1 ∧
     ((∀ (k : Nat) u c, us[k]? = some u → ks[k]? = some c → s1.readBadBy s.cur c u.2 = false) → ∃ (s2 t : State) (v : VReg),
       exec i s = .next t ∧ s2 = { s1 with l1 := s2.l1 } ∧ Queued s2 t srcs (a.toNat - 4) (.filling v) ∧
       ∀ (k j : Nat) u c, us[k]? = some u → ks[k]? = some c → j < u.2 →
         BitVec.ofNat 8 (v.toNat / 256 ^ (k * u.2 + j)) = s1.byteBy s.cur c (c.key + j)) ∧
     ∀ va s2, s1.slRead s.cur (us.zip ks) = (.error va, s2) →
       (∃ (k : Nat) (u : Nat × Nat) (c : Phys), us[k]? = some u ∧ ks[k]? = some c ∧ u.1 = va ∧ s1.readBadBy s.cur c u.2 = true) ∧
       ∃ t, exec i s = .next t ∧ Queued s2 t srcs (a.toNat - 4) (.failing (BitVec.ofNat 64 va))) ∧
  ((∀ (a b c : RCode) (s : State) (h : Nat), s.cur = .aStream h → s.Ready (.sldz a b c) [b, c] [a] →
     let va := (s.src [b, c] 0).toNat
     let base := (s.src [b, c] 1).toNat % 2 ^ 48
     let n := (s.src [b, c] 1).toNat / 2 ^ 48 + 1
     let k := (va - base) / 512
     let us := (base + 512 * n + 2 * k, 2) :: (List.range 64).map fun j => (base + 512 * k + 8 * j, 8)
     (va < base ∨ base + 512 * n ≤ va → exec (.sldz a b c) s = .next (s.raise .bounds (s.src [b, c] 0))) ∧
     (base ≤ va → va < base + 512 * n → va % (s.vlen h / 8) = 0 → base % 512 = 0 →
       (∀ u ∈ us, s.placeH h u.1 u.2 ≠ .bounds) → ∀ ks s1, s.slXlat s.cur us = (.ok ks, s1) →
       (∀ (k : Nat) u c, us[k]? = some u → ks[k]? = some c → s1.readBadBy s.cur c u.2 = false) →
       let read := fun (p : Phys) (n : Nat) => (List.range n).map fun j => s1.byteBy s.cur p (p.key + j)
       let hdr := ofBytes (read (ks.getD 0 ⟨0, false⟩) 2)
       let slot := (ks.drop 1).flatMap fun p => read p 8
       ∃ (s2 t : State) (e : AEntry), exec (.sldz a b c) s = .next t ∧ s2 = { s1 with l1 := s2.l1 } ∧
         Queued s2 t [b, c] (a.toNat - 4) e ∧
         (∀ raw, decodeBlock hdr slot = some raw → ∃ v : VReg, e = .filling v ∧
           ∀ j, j < s.vlen h / 8 → BitVec.ofNat 8 (v.toNat / 256 ^ j) = raw.getD (va - base - 512 * k + j) 0) ∧
         (decodeBlock hdr slot = none → e = .failing (BitVec.ofNat 64 (base + 512 * n + 2 * k))))) ∧
   ∀ (s : State) (pre post : List AEntry) (e : AEntry), let h := s.ev.n
     s.aeOf h s.ev.n1 = pre ++ e :: post → (∀ x ∈ pre, (∃ v, x = .full v) ∨ ∃ va, x = .failed va) →
     ∀ x, (∃ v, e = .filling v ∧ x = .full v) ∨ (∃ va, e = .failing va ∧ x = .failed va) →
     exec .streamLoadFill s = .next (s.modR h fun r => { r with ae := tput r.ae s.ev.n1 (pre ++ x :: post) }))

/-- R138, R139, R140: what the compressor makes of 512 bytes, decoded, is those bytes, whatever stands in its slot behind the
stream. -/
def Obligations.CompressionRoundTrip : Prop :=
  ∀ (bs rest : List Byte), bs.length = 512 → decodeBlock (encodeBlock bs).1 ((encodeBlock bs).2 ++ rest) = some bs

/-- R202, R203, R329: a barrier instruction whose address is a multiple of 16 in scratch that the hart may use changes the
barrier's 16 bytes alone, a BARRIVE when the bay's L1 is written back (R124): BINIT sets it; BEXPECT adds to PENDING and BARRIVE takes one from LEFT, and then, where both are 0,
PHASE flips and LEFT is COUNT again. BTEST gives its second dword; BWAIT stands until PHASE differs from its bit;
both acquire. -/
def Obligations.Barriers : Prop :=
  ∀ (i : Instr) (a b c : RCode) (s : State) (h k : Nat),
    (i = .binit b c ∨ i = .bexpect b c ∨ i = .barrive b ∨ i = .bwait b c ∨ i = .btest a b) → s.cur = .aStream h →
    let srcs := if i = .barrive b ∨ i = .btest a b then [b] else [b, c]
    let va := (s.src srcs 0).toNat
    let n := (s.src srcs 1).toNat
    s.Ready i srcs (if i = .btest a b then [a] else []) →
    ((∀ k, s.placeH h va 1 ≠ .scratch k) → exec i s = .next (s.raise .bounds (s.src srcs 0))) ∧
    (s.placeH h va 1 = .scratch k →
      (va % 16 ≠ 0 → exec i s = .next (s.raise .align (s.src srcs 0))) ∧
      (va % 16 = 0 → (i = .binit b c ∨ readBad s k 16 = false) →
        let s0 := if i = .barrive b then s.l1Release h else s
        let r := s0.bar k
        let flip := fun (x : Bar) => if x.left = 0 ∧ x.pending = 0 then { x with phase := !x.phase, left := x.count } else x
        (∀ x : Bar, (i = .binit b c ∧ x = ⟨0, n % 2 ^ 16, n % 2 ^ 16, false⟩ ∨
            i = .bexpect b c ∧ x = flip { r with pending := (r.pending + n % 2 ^ 32) % 2 ^ 32 } ∨
            i = .barrive b ∧ x = flip { r with left := r.left - 1 }) →
          ∃ u t, exec i s = .next t ∧ s0.SameButStores u ∧ Done u t srcs 0 0 ∧ t.bar k = x ∧
            ∀ j, (j < k ∨ k + 16 ≤ j) → t.byteOf j = s0.byteOf j) ∧
        (i = .btest a b → ∃ t, exec i s = .next t ∧ Done (s.l1Acquire h) t [b] a (BitVec.ofNat 64 (s.nat (k + 8) 8))) ∧
        (i = .bwait b c → (r.phase ≠ (s.src srcs 1).getLsbD 0 → ∃ t, exec i s = .next t ∧ Done (s.l1Acquire h) t [b, c] 0 0) ∧
          (r.phase = (s.src srcs 1).getLsbD 0 → exec i s = .next (s.modA h fun x => { x with wait := .bwait })))))

/-- R16, R251, R252, R253: SCOPEOF gives the level of the lowest scope around two agents: for two harts of one package the
lowest of bay, truss, layer, chiplet, tile or package that holds both, and 7 for agents of two packages. POST writes its value
to the result word of the node that its hart's body is, with a release at PKG (R124), and nothing for a queue's command. -/
def Obligations.ScopesAndPost : Prop :=
  (∀ (a b c : RCode) (s : State), s.Ready (.scopeof a b c) [b, c] [a] → ∃ t, exec (.scopeof a b c) s = .next t ∧
    Done s t [b, c] a (BitVec.ofNat 64 (scopeOf (s.src [b, c] 0) (s.src [b, c] 1)))) ∧
  (∀ p g h, p < 64 → g < 4096 → h < 4096 → scopeOf (BitVec.ofNat 64 (p * 4096 + g)) (BitVec.ofNat 64 (p * 4096 + h)) =
    if g = h then 0 else if g / 8 = h / 8 then 1 else if g / 64 = h / 64 then 2 else if g / 256 = h / 256 then 3
    else if g / 512 = h / 512 then 4 else if g / 1024 = h / 1024 then 5 else 6) ∧
  (∀ x y : W64, x.toNat / 4096 % 64 ≠ y.toNat / 4096 % 64 → scopeOf x y = 7) ∧ (∀ x y : W64, scopeOf x y = scopeOf y x) ∧
  ∀ (b : RCode) (s : State) (h : Nat) (c : Cmd), s.cur = .aStream h → s.Ready (.post b) [b] [] → s.bodyNode h = some c →
    ((∃ n j r, c.src = .queue n j r) → ∃ u, exec (.post b) s = .next u ∧ Done s u [b] 0 0) ∧
    ∀ g k I, c.src = .node g k → s.inst? g = some I → ∃ u, Done (s.releaseBy s.cur 5) u [b] 0 0 ∧ exec (.post b) s =
        .next (u.ctlWriteD (s.ctxOf c.rcb).ptbase (I.area + 136 + 128 * k) (toBytes 8 (s.src [b] 0).toNat))

/-- R104, R258..R264: a ridge instruction checks its number, then the owner. RIRD and RITAG read the ridge; RIMIN and RIMAX,
each on a ridge of its direction, put a better pair into it, and leave it else; RIRESET sets it, and every bay's copy with it.
A bay's copy is a value of the ridge's history, never older than its staleness allows; RIDGE_COPY_UPDATE moves it on by one.
RIDGE_FORWARD brings what another package does to its replica: an update of the ridge's epoch to a pod-scope ridge, or a reset of a
later epoch, which sets it and every bay's copy (log 74). RIRD and RITAG acquire and the others release (R124). Ports named twice pop
in the order b, a, c (log 16). KILLCK ends its step KILLED where its key does not
better the bay's copy of a MIN ridge, and completes else. -/
def Obligations.Ridges : Prop :=
  (∀ (i : Instr) (a b c : RCode) (s : State) (srcs dsts : List RCode) (v : W64),
    (i = .rird a b ∨ i = .ritag a b) ∧ srcs = [b] ∧ dsts = [a] ∧ v = s.src [b] 0 ∨
    (i = .rimin a b c ∨ i = .rimax a b c ∨ i = .rireset a b c) ∧ srcs = [b, a, c] ∧ dsts = [] ∧ v = s.src [b, a, c] 1 →
    s.Ready i srcs dsts →
    let n := v.toNat
    let r := s.ridge n
    let key := s.src srcs 0
    let x := s.src srcs 2
    let agent := BitVec.ofNat 64 (s.agentId s.cur)
    (15 < n → exec i s = .next (s.raise .bounds v)) ∧
    (n ≤ 15 → (∃ h, s.cur.hart? = some h ∧ s.ownsRidge h n = false) → exec i s = .next (s.raise .pprot v)) ∧
    (n ≤ 15 → (∀ h, s.cur.hart? = some h → s.ownsRidge h n = true) →
      (i = .rird a b → ∃ t, exec i s = .next t ∧ Done (s.acquireBy s.cur 5) t srcs a r.key) ∧
      (i = .ritag a b → ∃ t, exec i s = .next t ∧ Done (s.acquireBy s.cur 5) t srcs a r.tag) ∧
      (i = .rimin a b c ∧ r.max = true ∨ i = .rimax a b c ∧ r.max = false → exec i s = .next (s.raise .illop (evalOf i))) ∧
      (i = .rimin a b c ∧ r.max = false ∨ i = .rimax a b c ∧ r.max = true →
        let better := (if r.max = true then r.key.toInt < key.toInt else key.toInt < r.key.toInt) ∨
          key = r.key ∧ x.toNat < r.tag.toNat
        (¬ better → ∃ t, exec i s = .next t ∧ Done (s.releaseBy s.cur 5) t srcs 0 0) ∧
        (better → ∃ t, exec i s = .next t ∧ Done ({ s.releaseBy s.cur 5 with ridges := tput s.ridges n { r with
          key := key, tag := x, hist := ⟨key, x, s.cycle, agent⟩ :: r.hist } } : State) t srcs 0 0)) ∧
      (i = .rireset a b c → x.getLsbD 1 = true → s.has .pod = false → exec i s = .next (s.raise .feature (evalOf i))) ∧
      (i = .rireset a b c → (x.getLsbD 1 = false ∨ s.has .pod = true) → ∃ (u t : State), exec i s = .next t ∧ Done u t srcs 0 0 ∧
        u = { s.releaseBy s.cur 5 with seen := u.seen, ridges := tput s.ridges n {
          key := key, tag := BitVec.allOnes 64, max := x.getLsbD 0, wide := x.getLsbD 1,
          epoch := if x.getLsbD 1 = true then r.epoch + 1 else r.epoch
          hist := [⟨key, BitVec.allOnes 64, s.cycle, agent⟩] } } ∧
        (∀ bay, u.copyKey bay n = key) ∧
        ∀ bay m, m < 16 → m ≠ n → u.copyKey bay m = (s.releaseBy s.cur 5).copyKey bay m))) ∧
  (∀ (s : State) (bay n k : Nat) (v : RidgeVal), (s.ridge n).hist[k]? = some v →
    v.at_ + s.staleClk (scopeOf v.by_ (BitVec.ofNat 64 (s.hartId (bay * 8)))) ≤ s.cycle → s.copyIdx bay n ≤ k) ∧
  (∀ s : State, s.ev.n < 512 → s.ev.n1 ≤ 15 → ∃ (t : State), exec .ridgeCopyUpdate s = .next t ∧ t = { s with seen := t.seen } ∧
    ∀ bay m, m < 16 → t.copyIdx bay m = if bay = s.ev.n ∧ m = s.ev.n1 then s.copyIdx bay m - 1 else s.copyIdx bay m) ∧
  (∀ s : State, let r := s.ridge s.ev.n
    let by_ := BitVec.ofNat 64 s.ev.n2
    let take := s.ev.n ≤ 15 ∧ r.wide = true ∧ r.epoch = s.ev.n1 ∧
      ((if r.max = true then r.key.toInt < s.ev.w.toInt else s.ev.w.toInt < r.key.toInt) ∨
        s.ev.w = r.key ∧ s.ev.w1.toNat < r.tag.toNat)
    (s.ev.n3 = 0 → exec .ridgeForward s = .next (if take then { s with ridges := tput s.ridges s.ev.n { r with
      key := s.ev.w, tag := s.ev.w1, hist := ⟨s.ev.w, s.ev.w1, s.cycle, by_⟩ :: r.hist } } else s)) ∧
    (s.ev.n3 ≠ 0 → (15 < s.ev.n ∨ r.wide = true ∧ s.ev.n1 ≤ r.epoch) → exec .ridgeForward s = .next s) ∧
    (s.ev.n3 ≠ 0 → s.ev.n ≤ 15 → (r.wide = false ∨ r.epoch < s.ev.n1) → ∃ t : State, exec .ridgeForward s = .next t ∧
      t = { s with seen := t.seen, ridges := tput s.ridges s.ev.n {
        key := s.ev.w, tag := BitVec.allOnes 64, max := decide (s.ev.n3 = 2), wide := true, epoch := s.ev.n1
        hist := [⟨s.ev.w, BitVec.allOnes 64, s.cycle, by_⟩] } } ∧
      (∀ bay, t.copyKey bay s.ev.n = s.ev.w) ∧ ∀ bay m, m < 16 → m ≠ s.ev.n → t.copyKey bay m = s.copyKey bay m)) ∧
  ∀ (b c : RCode) (s : State) (h : Nat), s.cur = .aStream h → s.Ready (.killck b c) [b, c] [] →
    let n := (s.src [b, c] 1).toNat
    s.ridgeCheck n = none → ∃ u, Done s u [b, c] 0 0 ∧
      ((s.ridge n).max = true ∨ (s.src [b, c] 0).toInt < (s.copyKey (h / 8) n).toInt → exec (.killck b c) s = .next u) ∧
      ((s.ridge n).max = false → (s.copyKey (h / 8) n).toInt ≤ (s.src [b, c] 0).toInt →
        exec (.killck b c) s = .next (u.endStep h .killed))

/-- R35, R186, R187, R256, R373: GLAUNCH takes two steps. The first makes the snapshot, and refuses an empty graph, or one with a
successor beyond it, with 5 and one whose GEN is odd with 7; the agent then stands. The second reads GEN again, and refuses a changed one
with 7; else it makes an instance: the area holds GEN, the node count, and each node with STATUS 0xFF and its
counter, each node whose counter is 0 is ready, and the answer is 0. A misaligned address traps. -/
def Obligations.GraphLaunch : Prop :=
  (∀ (s s1 : State) (rcb g : Nat) (hd : List Byte), let pt := (s.ctxOf rcb).ptbase
    s.ctlRead pt g 16 = (.ok hd, s1) →
    let gen := ofBytes (hd.take 8)
    let n := (hd.getD 8 0).toNat
    (gen % 2 = 1 → s.graphSnap rcb g = (.ok (.error 7), s1)) ∧
    (gen % 2 = 0 → n = 0 → s.graphSnap rcb g = (.ok (.error 5), s1)) ∧
    (gen % 2 = 0 → 0 < n → ∀ bs s2, s1.ctlRead pt (g + 64) (64 * n) = (.ok bs, s2) →
      let node := fun (k : Nat) => BitVec.ofNat 512 (ofBytes ((bs.drop (64 * k)).take 64))
      let out := ∃ k j, k < n ∧ j < 6 ∧ nodeSucc (node k) j ≠ 0xFF ∧ n ≤ nodeSucc (node k) j
      (out → s.graphSnap rcb g = (.ok (.error 5), s2)) ∧
      (¬ out → ∃ sn, s.graphSnap rcb g = (.ok (.ok sn), s2) ∧ sn.rcb = rcb ∧ sn.gen = gen ∧ sn.nodes.length = n ∧
        ∀ k, k < n → sn.nodes.getD k 0 = node k))) ∧
  ∀ (a b c : RCode) (s : State) (h : Nat), s.cur = .aStream h → s.Ready (.glaunch a b c) [b, c] [a] →
    let g := (s.src [b, c] 0).toNat
    let area := (s.src [b, c] 1).toNat
    let rcb := (s.hart h).ctx.rcb
    let pt := (s.ctxOf rcb).ptbase
    let torn := fun (x : State) => x.capture (BitVec.ofNat 32 (x.effCapture rcb)) .torn
    (g % 64 ≠ 0 → exec (.glaunch a b c) s = .next (s.raise .align (s.src [b, c] 0))) ∧
    (g % 64 = 0 → area % 64 ≠ 0 → exec (.glaunch a b c) s = .next (s.raise .align (s.src [b, c] 1))) ∧
    (g % 64 = 0 → area % 64 = 0 → (s.hart h).a.gsnap = none → ∀ hd s1, s.ctlRead pt g 16 = (.ok hd, s1) →
      let n := (hd.getD 8 0).toNat
      (n = 0 → ∃ t, exec (.glaunch a b c) s = .next t ∧ Done s1 t [b, c] a 5) ∧
      (0 < n → s1.launchFault pt g area n = none →
        (∀ st s2, s1.graphSnap rcb g = (.ok (.error st), s2) → ∃ t, exec (.glaunch a b c) s = .next t ∧
          Done (if st = 7 then torn s2 else s2) t [b, c] a (BitVec.ofNat 64 st)) ∧
        ∀ sn s2, s1.graphSnap rcb g = (.ok (.ok sn), s2) → ∃ t, exec (.glaunch a b c) s = .next t ∧ t = s2.setHart h (t.hart h) ∧
          t.hart h = { s2.hart h with a := { (s2.hart h).a with gsnap := some sn, wait := .stall } })) ∧
    (g % 64 = 0 → area % 64 = 0 → ∀ sn, (s.hart h).a.gsnap = some sn →
      let s0 := s.modA h fun r => { r with gsnap := none }
      ∀ b8 s1, s0.ctlRead (s0.ctxOf rcb).ptbase g 8 = (.ok b8, s1) →
        (ofBytes b8 ≠ sn.gen → ∃ t, exec (.glaunch a b c) s = .next t ∧ Done (torn s1) t [b, c] a 7) ∧
        (ofBytes b8 = sn.gen → ∀ s2, s1.ctlWrite (s0.ctxOf rcb).ptbase area (areaBytes sn) = (.ok (), s2) →
          let I := sn.inst s2.nextId rcb area none
          ∃ t, exec (.glaunch a b c) s = .next t ∧
            Done (({ s2 with insts := s2.insts ++ [I], nextId := s2.nextId + 1 } : State).startNodes I) t [b, c] a 0 ∧
            (areaBytes sn).length = 64 + 128 * sn.nodes.length ∧
            ∀ k, k < sn.nodes.length → tgetD I.counts k 0 = nodePreds (sn.nodes.getD k 0)))
/-! Remote enqueue and task pools (R161..R166, R331..R333, R378..R381). -/

/-- R164, R165, R331..R333: REMQ and REMQA take the record at issue and a credit of the destination package, and send it;
with no credit free they wait; a killed record goes nowhere. REMQA then waits for its answer, which is its result. PPUSH puts
its record QUEUED into its truss's shard, and answers KILLED, FULL, or BADHANDLE where the region has no pool, or a CAP out of range
(log 57), or its descriptor cannot be read, which counts (log 100); a killed record of a handle that names no pool of this package is counted nowhere (log 57). All release (R124). -/
def Obligations.RecordInstructions : Prop :=
  (∀ (i : Instr) (a b c : RCode) (dsts : List RCode) (s : State) (h : Nat), s.cur = .aStream h →
    (i = .remq b c ∧ dsts = [] ∨ i = .remqa a b c ∧ dsts = [a] ∧ (s.hart h).a.remq = none) → s.Ready i [b, c] dsts →
    let hd := s.src [b, c] 0
    let spec := s.src [b, c] 1
    let adr := spec.toNat % 2 ^ 48
    let pkg := hd.toNat / 2 ^ 56 % 64
    let pool := hd.toNat / 2 ^ 62 = 1
    (pool → s.has .search = false → exec i s = .next (s.raise .feature (evalOf i))) ∧
    ((pool → s.has .search = true) → adr % 64 ≠ 0 → exec i s = .next (s.raise .align (BitVec.ofNat 64 adr))) ∧
    ((pool → s.has .search = true) → adr % 64 = 0 → s.credit? pkg = 0 →
      exec i s = .next (s.modA h fun x => { x with wait := .stall })) ∧
    ((pool → s.has .search = true) → adr % 64 = 0 → 0 < s.credit? pkg → ∀ ds s1, s.aLoads s.cur adr 8 = (.ok ds, s1) →
      let s2 := s1.l1Release h
      let r := BitVec.ofNat 512 (packElems 64 (ds.map (·.toNat)))
      (¬ (pool ∧ s2.PushKilled h spec r) → ∃ (q : RqRec) (u : State),
        q.rec_ = r ∧ q.handle = hd ∧ q.kill = spec.getLsbD 52 ∧ q.ridge = spec.toNat / 2 ^ 48 % 16 ∧ q.truss = h / 64 ∧
        q.ctx = (s2.hart h).ctx ∧ q.kind = .enqueue (if i = .remq b c then none else some h) ∧ q.name = s2.nextId ∧
        u = { s2 with nextId := s2.nextId + 1, rq := s2.rq ++ [q], credits := tput s2.credits pkg (s.credit? pkg - 1) } ∧
        (i = .remq b c → ∃ t, exec i s = .next t ∧ Done u t [b, c] 0 0) ∧
        (i = .remqa a b c → exec i s = .next (u.modA h fun x => { x with remq := some (q.name, none), wait := .stall }))) ∧
      (pool ∧ s2.PushKilled h spec r → ∃ u t, exec i s = .next t ∧
        Done u t [b, c] (if i = .remq b c then 0 else a) (if i = .remq b c then 0 else 1) ∧
        (pkg ≠ s2.pkgNum ∨ s2.poolRegion (s2.hart h).ctx.asid (hd.toNat % 2 ^ 48) = none → u = s2) ∧
        ∀ rcb, s2.poolRegion (s2.hart h).ctx.asid (hd.toNat % 2 ^ 48) = some rcb → pkg = s2.pkgNum →
          u = s2.poolCount rcb (hd.toNat % 2 ^ 48) 0x18))) ∧
  (∀ (a b c : RCode) (s : State) (h n : Nat), s.cur = .aStream h → s.Ready (.remqa a b c) [b, c] [a] →
    ((s.hart h).a.remq = some (n, none) →
      exec (.remqa a b c) s = .next (s.modA h fun x => { x with wait := .stall })) ∧
    ∀ st, (s.hart h).a.remq = some (n, some st) → ∃ t, exec (.remqa a b c) s = .next t ∧
      Done (s.modA h fun x => { x with remq := none }) t [b, c] a (BitVec.ofNat 64 st)) ∧
  ∀ (a b : RCode) (s : State) (h : Nat), s.cur = .aStream h → s.Ready (.ppush a b) [b] [a] →
    let spec := s.src [b] 0
    let adr := spec.toNat % 2 ^ 48
    let rcb := (s.hart h).ctx.rcb
    (adr % 64 ≠ 0 → exec (.ppush a b) s = .next (s.raise .align (BitVec.ofNat 64 adr))) ∧
    (adr % 64 = 0 → ∀ ds s1, s.aLoads s.cur adr 8 = (.ok ds, s1) → (s1.hart h).ctx.rcb = rcb ∧
      let s2 := s1.l1Release h
      let r := BitVec.ofNat 512 (packElems 64 (ds.map (·.toNat)))
      (s2.poolOf rcb = none → ∃ t, exec (.ppush a b) s = .next t ∧ Done (s2.poolSeen rcb) t [b] a 3) ∧
      ∀ desc cap, s2.poolOf rcb = some (desc, cap) →
        (s2.PushKilled h spec r → ∃ t, exec (.ppush a b) s = .next t ∧ Done (s2.poolCount rcb desc 0x18) t [b] a 1) ∧
        (¬ s2.PushKilled h spec r → 2 ^ cap ≤ (s2.shard rcb (h / 64)).entries.length →
          ∃ t, exec (.ppush a b) s = .next t ∧ Done s2 t [b] a 2) ∧
        (¬ s2.PushKilled h spec r → (s2.shard rcb (h / 64)).entries.length < 2 ^ cap → ∃ u t,
          s2.Pushed u rcb (h / 64) r (spec.getLsbD 52) (spec.toNat / 2 ^ 48 % 16) ∧
          exec (.ppush a b) s = .next t ∧ Done u t [b] a 0))

/-- R162, R163, R165, R166, R380, R381: a record of the channel that no earlier one to its handle precedes is delivered, and
its credit returns: into the pool's shard 0, where a full one counts LOST for a REMQ; at WIDX of the launch queue, with a kick;
or, stolen, into its thief's shard, unless that holds its SEQ or is full, and the victim's LENT entry is FREE, unless the thief's reset
comes between (log 86). A QCB that can be read and is none, or whose region's control block cannot be read, is answered BADHANDLE (logs 57, 100); the order of one sender is kept over all
senders of a package (log 87); the answer of another package is free. A record of another package is written the same way. A steal lends
the best entry of the first victim that has one, in rings that widen, and a shard that finds none waits; an entry LENT for 100 µs is
QUEUED again. -/
def Obligations.RecordChannel : Prop :=
  (∀ (u : State) (q : RqRec) (ans : Option Nat), q.kind = .enqueue ans →
    let adr := q.handle.toNat % 2 ^ 48
    (q.handle.toNat / 2 ^ 62 = 1 → ∀ rcb desc cap, u.poolRegion q.ctx.asid adr = some rcb → u.poolOf rcb = some (desc, cap) →
      ((u.shard rcb 0).entries.length < 2 ^ cap → ∃ w, u.Pushed w rcb 0 q.rec_ q.kill q.ridge ∧ u.enqueueHere q = (0, w)) ∧
      (2 ^ cap ≤ (u.shard rcb 0).entries.length →
        u.enqueueHere q = (2, if ans = none then u.poolCount rcb desc 0x10 else u))) ∧
    (q.handle.toNat / 2 ^ 62 = 0 → ∀ bs s1, u.ctlRead q.ctx.ptbase adr 64 = (.ok bs, s1) →
      let rcb := ofBytes ((bs.drop 8).take 8) % 2 ^ 48
      let qb := s1.rcbFld rcb 0x58 6 42 * 64
      let widx := ofBytes ((bs.drop 0x18).take 4)
      let ahead := (widx + 2 ^ 32 - ofBytes ((bs.drop 0x20).take 4)) % 2 ^ 32
      let lost := fun (x : State) => if ans = none then x.countUp (cbAddr 0x088) 8 1 else x
      (qcbRing (ofBytes (bs.take 8)) = none → u.enqueueHere q = (3, lost s1)) ∧
      ∀ ring lg, qcbRing (ofBytes (bs.take 8)) = some (ring, lg) →
        let bad := isHbm s1 rcb = true ∧ s1.rcbBad rcb = true
        let its := ¬ bad ∧ isHbm s1 rcb = true ∧ s1.rcbLevel rcb = 3 ∧ s1.ctxNode rcb = q.ctx.ctxRcb ∧ qb ≤ adr ∧ (adr - qb) % 64 = 0 ∧
          (adr - qb) / 64 < 512
        (bad → u.enqueueHere q = (3, lost s1.countUncorr)) ∧
        (¬ bad → ¬ its → u.enqueueHere q = (3, lost s1)) ∧
        (its → ahead = 2 ^ lg → u.enqueueHere q = (2, lost s1)) ∧
        (its → ahead ≠ 2 ^ lg → ∀ s2, s1.ctlWrite (s1.ctxOf rcb).ptbase (ring + 64 * (widx % 2 ^ lg)) (toBytes 64 q.rec_.toNat) =
            (.ok (), s2) →
          u.enqueueHere q = (0, s2.kick rcb ((adr - qb) / 64) ((widx + 1) % 2 ^ 32)))) ∧
    (2 ≤ q.handle.toNat / 2 ^ 62 → u.enqueueHere q = (3, u))) ∧
  (∀ (s : State) (q : RqRec), s.ev.n2 ≠ 1 → s.rq[s.ev.n]? = some q →
    (∀ m r, m < s.ev.n → s.rq[m]? = some r → (∃ x, r.kind = .enqueue x) → (∃ x, q.kind = .enqueue x) → r.handle ≠ q.handle) →
    let pkg := match q.kind with
      | .steal _ _ => s.pkgNum
      | .enqueue _ => q.handle.toNat / 2 ^ 56 % 64
    let u : State := { s with rq := s.rq.eraseIdx s.ev.n, credits := tput s.credits pkg (s.credit? pkg + 1) }
    let back := fun (ans : Option Nat) (u : State) (st : Nat) => match ans with
      | some h => u.answer h q.name st
      | none => u
    (∀ ans, q.kind = .enqueue ans →
      (pkg = s.pkgNum → exec .recordDelivery s = .next (back ans (u.enqueueHere q).2 (u.enqueueHere q).1)) ∧
      (pkg ≠ s.pkgNum → exec .recordDelivery s = .next (back ans u
        (if s.inPod pkg = true ∧ s.mg.cut.getLsbD pkg = false then s.ev.n1 % 4 else 3)))) ∧
    ∀ v k, q.kind = .steal v k →
      let rcb := q.ctx.rcb
      let x := s.shard rcb k
      let z := u.setShard rcb k { x with stealing := false }
      let held := ∃ e ∈ x.entries, recSeq e.rec_ = recSeq q.rec_
      (z.poolOf rcb = none → exec .recordDelivery s = .next (z.poolSeen rcb)) ∧
      ∀ desc cap, z.poolOf rcb = some (desc, cap) →
        (held ∨ 2 ^ cap ≤ x.entries.length → exec .recordDelivery s = .next z) ∧
        (¬ held → x.entries.length < 2 ^ cap → v ≠ k → ∃ t, exec .recordDelivery s = .next t ∧ (t.shard rcb k).stealing = false ∧
          (t.shard rcb k).entries = x.entries ++ [⟨q.rec_, q.kill, q.ridge, false, 0⟩] ∧
          (t.shard rcb v).entries = if s.ev.n2 = 2 then (s.shard rcb v).entries
            else (s.shard rcb v).entries.filter fun e => !(e.lent && recSeq e.rec_ == recSeq q.rec_))) ∧
  (∀ s : State, s.ev.n2 = 1 → s.ev.w.toNat / 2 ^ 56 % 64 = s.pkgNum → ∃ q : RqRec,
    exec .recordDelivery s = .next (s.enqueueHere q).2 ∧ q.handle = s.ev.w ∧ q.rec_ = BitVec.ofNat 512 (ofBytes (s.ev.bs.take 64)) ∧
    q.kill = s.ev.w1.getLsbD 52 ∧ q.ridge = s.ev.w1.toNat / 2 ^ 48 % 16 ∧ q.ctx = s.ctxOf s.ev.n3) ∧
  (∀ (x : Shard) (k : Nat) (e : PEntry), x.best = some (k, e) → x.entries[k]? = some e ∧ e.lent = false ∧
    ∀ (j : Nat) (f : PEntry), x.entries[j]? = some f → f.lent = false → ¬ f.First e) ∧
  (∀ (x : Shard) (k : Nat), k < 64 → (∀ v, v ∈ victims x k ↔ v < 64 ∧ v ≠ k) ∧
    (victims x k).Pairwise fun v w => ringOf k v ≤ ringOf k w) ∧
  (∀ s : State, let rcb := s.ev.w.toNat
    let x := s.shard rcb s.ev.n
    s.ev.n < 64 → s.mayProbe rcb s.ev.n = true → (∀ v ∈ victims x s.ev.n, (s.shard rcb v).best = none) →
    exec .steal s = .next (s.setShard rcb s.ev.n { x with asleep := true })) ∧
  (∀ (s : State) (v j : Nat) (e : PEntry), let rcb := s.ev.w.toNat
    let k := s.ev.n
    let x := s.shard rcb k
    let y := s.shard rcb v
    k < 64 → s.mayProbe rcb k = true → ((victims x k).find? fun v => ((s.shard rcb v).best).isSome) = some v →
    y.best = some (j, e) → ∃ t q, exec .steal s = .next t ∧
      t.rq = s.rq ++ [q] ∧ q.kind = .steal v k ∧ q.rec_ = e.rec_ ∧ q.kill = e.kill ∧ q.ridge = e.ridge ∧ q.ctx.rcb = rcb ∧
      t.credits = tput s.credits s.pkgNum (s.credit? s.pkgNum - 1) ∧
      t.shard rcb v = { y with entries := setAt y.entries j { e with lent := true, lentAt := s.cycle } } ∧
      t.shard rcb k = { x with stealing := true, probed := tput x.probed (ringOf k v) v } ∧
      ∀ r m, (r, m) ≠ (rcb, v) → (r, m) ≠ (rcb, k) → m < 64 → t.shard r m = s.shard r m) ∧
  ∀ s : State, s.ev.n < 64 → ∃ (t : State), exec .lentTimeout s = .next t ∧ t = { s with shards := t.shards } ∧ ∀ r m, m < 64 →
    t.shard r m = if r = s.ev.w.toNat ∧ m = s.ev.n then { s.shard r m with entries := (s.shard r m).entries.map fun e =>
      { e with lent := e.lent && decide (s.cycle < e.lentAt + 130000) } } else s.shard r m

/-! The sill engines (R168..R171, R334..R337). -/

/-- R168, R204, R334..R337: SMV and SSUB of a tensor that the bay holds refuse a shape that does not fit with code 3, and else
take a slot and enter the queue of the sill of the tensor's first page, as it lies at issue (log 65), where a full queue is waited
for, and release (R124); SSUB zeroes the ring's two counts, and takes over the slots that stand FULL or FINISHED (log 92).
SPULL traps PPROT for a read-only tensor. SPULL and SSTOP enter the queue of their subscription's sill, and complete without
effect where their TID names none. -/
def Obligations.SillInstructions : Prop :=
  (∀ (i : Instr) (a ti c : RCode) (s : State) (h : Nat) (X : Tens), i = .smv a ti c ∨ i = .ssub a ti c → s.cur = .aStream h →
    s.Ready i [c] [a] → s.tensHeld h ti.toNat = some X → s.tdUse X.td = 0 →
    let w := (s.src [c] 0).toNat
    let r := (s.hart h).r
    let m := s.sillFor (s.hart h).ctx.ptbase X.td
    let q := tgetD s.sillq m []
    let put := fun (u : State) (k : Nat) (x : Xfer) (e : SillCmd) =>
      ({ u.withSlot h k x with sillq := tput s.sillq m (q ++ [e]) } : State).l1Release h
    (i = .smv a ti c →
      let y := 4 * tdDim X.td 0
      let n := ceilDiv y (512 * 2 ^ (w / 2 ^ 48 % 8))
      let bad := tdLayout X.td ≠ 1 ∨ r.bound < w % 2 ^ 24 + sillXBytes X.td ∨ r.bound < w / 2 ^ 24 % 2 ^ 24 + y ∨ 64 < n
      (bad → ∃ t, exec i s = .next t ∧ Done s t [c] a (refusedWith 3)) ∧
      (¬ bad → (∀ k, k < 32 → (s.slot h k).state ≠ .free) → ∃ t, exec i s = .next t ∧ Done s t [c] a (refusedWith 1)) ∧
      (¬ bad → ∀ k, s.LowestFree h k →
        (32 ≤ q.length → exec i s = .next (s.modA h fun x => { x with wait := .stall })) ∧
        (q.length < 32 → ∃ (t : State) (x : Xfer), exec i s = .next t ∧
          Taken (s.slot h k) x n (s.hart h).a.pc (s.hart h).a.cp true (.smv X.td (BitVec.ofNat 64 w)) ∧
          Done (put s k x (.smv (.slot h k x.gen))) t [c] a (tidWord k x.gen)))) ∧
    (i = .ssub a ti c →
      let off := w % 2 ^ 24
      let ring := scratchKey (h / 8) (r.alloc + r.base + off)
      let d := s.nat ring 8
      let ns := d % 256 + 1
      let sz := d / 2 ^ 32
      let one := X.buf.isSome = true → X.tileOk (w / 2 ^ 32) = true
      (¬ one → exec i s = .next (s.raise .bounds (BitVec.ofNat 64 (w / 2 ^ 32)))) ∧
      (one → off % 64 ≠ 0 ∨ r.bound < off + 64 → ∃ t, exec i s = .next t ∧ Done s t [c] a (refusedWith 3)) ∧
      (one → off % 64 = 0 → off + 64 ≤ r.bound → readBad s ring 8 = false → s.cutKey ring = false →
        let bad := sz % 512 ≠ 0 ∨ sz < slotTileBytes X.td ∨ r.bound < off + ringHead ns + ns * sz
        (bad → ∃ t, exec i s = .next t ∧ Done s t [c] a (refusedWith 3)) ∧
        (¬ bad → (∀ k, k < 32 → (s.slot h k).state ≠ .free) → ∃ t, exec i s = .next t ∧ Done s t [c] a (refusedWith 1)) ∧
        (¬ bad → ∀ k, s.LowestFree h k →
          (32 ≤ q.length → exec i s = .next (s.modA h fun x => { x with wait := .stall })) ∧
          (q.length < 32 → s.Storable (ring + 8) 16 → ∃ (t u : State) (x : Xfer) (st : Tab Nat), exec i s = .next t ∧
            (∀ j, j < ns → let b := (s.byteOf (ring + 64 + j)).toNat; tgetD st j 0 = if b = 2 ∨ b = 3 then b else 0) ∧
            s.SameButStores u ∧ (∀ j, u.byteOf j = if ring + 8 ≤ j ∧ j < ring + 24 then 0 else s.byteOf j) ∧
            Taken (s.slot h k) x 1 (s.hart h).a.pc (s.hart h).a.cp true (.ssub X.td X.buf.isSome off ns sz (w / 2 ^ 32) st []) ∧
            Done (put u k x (.sub (.slot h k x.gen))) t [c] a (tidWord k x.gen)))))) ∧
  (∀ (b ti : RCode) (s : State) (h : Nat) (X : Tens), s.cur = .aStream h → s.Ready (.spull b ti) [b] [] →
    s.tensHeld h ti.toNat = some X → s.tdUse X.td = 0 →
    (tdRdonly X.td = true → exec (.spull b ti) s = .next (s.raise .pprot (BitVec.ofNat 64 ti.toNat))) ∧
    (tdRdonly X.td = false →
      (s.subOf h (s.src [b] 0) = none → ∃ t, exec (.spull b ti) s = .next t ∧ Done s t [b] 0 0) ∧
      ∀ r, s.subOf h (s.src [b] 0) = some r → let m := s.sillOf r
        let q := tgetD s.sillq m []
        (32 ≤ q.length → exec (.spull b ti) s = .next (s.modA h fun x => { x with wait := .stall })) ∧
        (q.length < 32 → ∃ t, exec (.spull b ti) s = .next t ∧
          Done ({ s with sillq := tput s.sillq m (q ++ [.pull r X.td X.buf.isSome 0]) } : State) t [b] 0 0))) ∧
  ∀ (b : RCode) (s : State) (h : Nat), s.cur = .aStream h → s.Ready (.sstop b) [b] [] →
    (s.subOf h (s.src [b] 0) = none → ∃ t, exec (.sstop b) s = .next t ∧ Done s t [b] 0 0) ∧
    ∀ r, s.subOf h (s.src [b] 0) = some r → let m := s.sillOf r
      let q := tgetD s.sillq m []
      (32 ≤ q.length → exec (.sstop b) s = .next (s.modA h fun x => { x with wait := .stall })) ∧
      (q.length < 32 → ∃ t, exec (.sstop b) s = .next t ∧
        Done ({ s with sillq := tput s.sillq m (q ++ [.stop r]) } : State) t [b] 0 0)

/-- R91, R168, R170, R334..R337: a sill serves the oldest command for which it can do something. It stores the words of the next chunk
of an SMV and sets its bit: a word is the first slice's sum of blocks, from +0 in increasing order, to which each later slice's is
added with one rounding, a short slice padded with zero products, the canonical NaN where a slice is one, with the flags of every
slice. It moves a
subscription's next slot to FILLING, and then stores the tile, counts it and writes FULL; scans for a write-back, where a
FINISHED slot is PULLING, a PULLING one is written to its tile, counted and EMPTY, and any other is passed; and ends a
stopped subscription DONE with bit 0. A state byte that software may not have written fails the subscription with BADRING, and one that
cannot be read with UNCORR, which is counted. A page without a valid leaf fails the transfer, STACK where it is read and PFAULT where it is written (log 93), and a slot that this
subscription has not filled cannot be pulled (log 92). -/
def Obligations.SillEngine : Prop :=
  (∀ (s : State) (n k : Nat) (c : SillCmd), s.sillTurn n = some (k, c) ↔ (s.sillQueue n)[k]? = some c ∧ s.sillCan n c = true ∧
    ∀ (j : Nat) d, j < k → (s.sillQueue n)[j]? = some d → s.sillCan n d = false) ∧
  (∀ (s : State) (c : EngCtx) (n : Nat) (va : Int), (va < 0 ∨ (2 ^ 47 : Int) ≤ va → s.sillXlat c n va = (.error (.fail 7), s)) ∧
    (0 ≤ va → va < (2 ^ 47 : Int) →
      (∀ k s1, s.engXlat c .read va = (.ok k, s1) → s.sillXlat c n va =
        (if isHbm s1 k = true ∧ k / stackBytes = n then .ok k else .error (.fail 7), s1)) ∧
      (∀ p q s1, s.engXlat c .read va = (.error (.pause p q), s1) → s.sillXlat c n va = (.error (.fail 7), s1)) ∧
      ∀ e s1, s.engXlat c .read va = (.error (.fail e), s1) → s.sillXlat c n va = (.error (.fail e), s1))) ∧
  (∀ (s : State) (r : XRef) (e : EngErr), s.sillErr r e = s.failXfer r (match e with | .fail st => st | .pause _ _ => 1)) ∧
  (∀ (s : State) (h i : Nat) (g : BitVec 8) (x : Xfer) (td : BitVec 1024) (w : W64) (k : Nat), let n := s.ev.n
    let r : XRef := .slot h i g
    s.smvNext n = some (h, r, x, td, w, k) →
    let per := 128 * 2 ^ (w.toNat / 2 ^ 48 % 8)
    (x.flight = [] → ∀ ws fl s1,
      s.smvRows (s.engCtx r (tlbSill n)) n td (s.scratchAt h (w.toNat % 2 ^ 24)) (min (tdDim td 0) (k * per + per) - k * per)
        (k * per) 0 = (.ok (ws, fl), s1) →
      let key := s.scratchAt h (w.toNat / 2 ^ 24 % 2 ^ 24 + 4 * (k * per))
      let bs := ws.flatMap (toBytes 4)
      s1.Storable key bs.length →
      let x1 := { x with bitmap := x.bitmap ||| BitVec.ofNat 64 (2 ^ k), started := x.started ||| BitVec.ofNat 64 (2 ^ k),
                         flags := x.flags ||| fl }
      ∃ t, exec .smvChunk s = .next t ∧
        (∀ j, t.byteOf j = if key ≤ j ∧ j < key + bs.length then bs.getD (j - key) 0 else s1.byteOf j) ∧
        t.slot h i = (if x1.bitmap = BitVec.allOnes 64 then { x1 with
          paused := [], state := if x.covered = BitVec.allOnes 64 then .free else .done } else x1))) ∧
  (∀ (s : State) (c : EngCtx) (n : Nat) (td : BitVec 1024) (xk f y : Nat) (ws : List Nat) (fl : BitVec 5) (s1 : State),
    s.smvRows c n td xk f y 0 = (.ok (ws, fl), s1) → ws.length = f ∧
      ∃ (u : Nat → State) (g : Nat → BitVec 5), u 0 = s ∧ u f = s1 ∧
        (∀ i, i < f → (u i).smvRow c n td xk (y + i) (sillSlices td) 0 0 0 = (.ok (ws.getD i 0, g i), u (i + 1))) ∧
        ∀ j, j < 5 → (fl.getLsbD j = true ↔ ∃ i, i < f ∧ (g i).getLsbD j = true)) ∧
  (∀ (s : State) (c : EngCtx) (n : Nat) (td : BitVec 1024) (xk y w : Nat) (fl : BitVec 5) (s1 : State), let K := sillSlices td
    s.smvRow c n td xk y K 0 0 0 = (.ok (w, fl), s1) → 0 < K →
    let fmt := tdFmt td
    let b := fmtWidth fmt
    let cnt := fun q => min 512 (tdDim td 1 - 512 * q)
    let nb := fun q => ceilDiv (cnt q * b) 8
    let nsc := fun q => if fmtScaled fmt then ceilDiv (cnt q) 32 else 0
    let vals := fun (q : Nat) (l : List Byte) (t : Nat) => if t < cnt q then fmtDecode fmt (elemOf b (ofBytes l) t) else .zero
    let codes := fun (l : List Byte) (i : Nat) => (l.map (·.toNat)).getD i 127
    ∃ (u v : Nat → State) (p r : Nat → Nat × BitVec 5), u 0 = s ∧ u K = s1 ∧
      (∀ q, q < K → ∃ bb bs,
        (u q).sillReads c n ((List.range (nb q)).map fun (i : Nat) => .va (tdElemAddr td [y, 512 * q] + (i : Int))) = (.ok bb, v q) ∧
        (v q).sillReads c n ((List.range (if tdScale td = 0 then 0 else nsc q)).map fun (i : Nat) =>
          .va ((tdScaleAddr td [y, 512 * q] + i : Nat) : Int)) = (.ok bs, u (q + 1)) ∧
        BlocksAre (fmtScaled fmt) (vals q ((u (q + 1)).bytes (xk + q * tdSliceBytes td) (nb q))) (vals q bb)
          (codes ((u (q + 1)).bytes (xk + K * tdSliceBytes td + 16 * q) (nsc q))) (codes bs) 16 0 (p q)) ∧
      r 0 = ((p 0).1, 0) ∧ w = (r (K - 1)).1 ∧
      (∀ q, q + 1 < K → SumIs (r q).1 (p (q + 1)).1 (r (q + 1))) ∧
      ((∃ q, q < K ∧ (spFP32.decode (p q).1).isNan = true) → w = 0x7FC0_0000) ∧
      ∀ j, j < 5 → (fl.getLsbD j = true ↔ ∃ q, q < K ∧ ((p q).2.getLsbD j = true ∨ (r q).2.getLsbD j = true))) ∧
  (∀ (s : State) (r : XRef), s.subNext s.ev.n = some (r, .badRing) → exec .sillTileFill s = .next (s.failXfer r 8)) ∧
  (∀ (s : State) (r : XRef), (∀ b, s.sub? r = some b → (s.subStep s.ev.n r = .uncorr ↔ s.ringBad b = true)) ∧
    (s.subNext s.ev.n = some (r, .uncorr) → exec .sillTileFill s = .next (s.countUncorr.failXfer r 4))) ∧
  (∀ (s : State) (r : XRef) (b : Sub) (h i : Nat) (g : BitVec 8), let n := s.ev.n
    let k := b.next % b.nslot
    b.ref = .slot h i g → b.h = h → 0 < b.nslot →
    (s.subNext n = some (r, .start b) → s.Storable (s.ringState b k) 1 → ∃ t,
      exec .sillTileFill s = .next t ∧ (∀ j, t.byteOf j = if j = s.ringState b k then 1 else s.byteOf j) ∧
      t.slot h i = { b.x with
        job := .ssub b.t.td b.t.buf.isSome b.off b.nslot b.slotsz b.next (tput b.states k 1) b.tiles }) ∧
    (s.subNext n = some (r, .fill b) → ∀ bs s1, s.tileImage (s.engCtx b.ref (tlbSill n)) n b.t b.next = (.ok bs, s1) →
      let slot := s.ringSlot b k
      let cnt := s.scratchAt h (b.off + 8)
      s1.Storable slot bs.length → s1.Storable cnt 8 → s1.Storable (s.ringState b k) 1 → ∃ t,
        exec .sillTileFill s = .next t ∧ t.byteOf (s.ringState b k) = 2 ∧ t.nat cnt 8 = (s1.nat cnt 8 + 1) % 2 ^ 64 ∧
        (∀ j, j < bs.length → t.byteOf (slot + j) = bs.getD j 0) ∧
        (∀ j, (j < slot ∨ slot + bs.length ≤ j) → (j < cnt ∨ cnt + 8 ≤ j) → j ≠ s.ringState b k → t.byteOf j = s1.byteOf j) ∧
        t.slot h i = { b.x with
          job := .ssub b.t.td b.t.buf.isSome b.off b.nslot b.slotsz (b.next + 1) (tput b.states k 2) (tput b.tiles k b.next) })) ∧
  (∀ (s : State) (k scan : Nat) (r : XRef) (X : Tens), let n := s.ev.n
    s.pullNext n = some (k, r, X, scan) →
    ((s.sub? r).any s.ringBad = true → exec .sillSlotPull s = .next (s.countUncorr.failXfer r 4)) ∧
    ((s.sub? r).any s.ringBad = false → (s.sub? r).bind s.ringLook = none → exec .sillSlotPull s = .next (s.failXfer r 8)) ∧
    ∀ b, (s.sub? r).any s.ringBad = false → (s.sub? r).bind s.ringLook = some b →
      let next := fun (u : State) => u.setSillQueue n (if scan + 1 < b.nslot then
        setAt (u.sillQueue n) k (.pull r X.td X.buf.isSome (scan + 1)) else (u.sillQueue n).eraseIdx k)
      (tgetD b.states scan 0 ≠ 3 → tgetD b.states scan 0 ≠ 4 → exec .sillSlotPull s = .next (next s)) ∧
      (tgetD b.states scan 0 = 3 → s.Storable (s.ringState b scan) 1 → ∃ t, exec .sillSlotPull s = .next t ∧
        ∀ j, t.byteOf j = if j = s.ringState b scan then 4 else s.byteOf j) ∧
      (tgetD b.states scan 0 = 4 →
        (tget b.tiles scan = none ∨ pullFits b X (tget b.tiles scan) = false → exec .sillSlotPull s = .next (s.failXfer r 3)) ∧
        (∀ tile, tget b.tiles scan = some tile → pullFits b X (some tile) = true →
          readBad s (s.ringSlot b scan) (slotTileBytes b.t.td) = false → ∀ cs s1,
          s.pullCells (s.engCtx b.ref (tlbSill n)) b X tile (s.bytes (s.ringSlot b scan) (slotTileBytes b.t.td)) = (.ok cs, s1) →
          let cnt := s.scratchAt b.h (b.off + 16)
          s1.cellsBad cs = false → s1.Storable cnt 8 → s1.Storable (s.ringState b scan) 1 →
          (cs.map (·.1)).Nodup → (∀ c ∈ cs, isIo c.1 = false ∧ s1.cutKey c.1 = false ∧ (c.1 < cnt ∨ cnt + 8 ≤ c.1) ∧ c.1 ≠ s.ringState b scan) → ∃ t,
            exec .sillSlotPull s = .next t ∧ (∀ c ∈ cs, t.byteOf c.1 = c.2) ∧ t.byteOf (s.ringState b scan) = 0 ∧
            t.nat cnt 8 = (s1.nat cnt 8 + 1) % 2 ^ 64 ∧
            (∀ j, j ∉ cs.map (·.1) → (j < cnt ∨ cnt + 8 ≤ j) → j ≠ s.ringState b scan → t.byteOf j = s1.byteOf j) ∧
            t.sillQueue n = (next s).sillQueue n))) ∧
  (∀ (s : State) (b0 : Sub), let n := s.ev.n
    s.subToEnd n = some b0 →
    (s.ringBad b0 = true → exec .subscriptionEnd s = .next (s.countUncorr.failXfer b0.ref 4)) ∧
    (s.ringBad b0 = false → s.ringLook b0 = none → exec .subscriptionEnd s = .next (s.failXfer b0.ref 8)) ∧
    ∀ (b : Sub) (h i : Nat) (g : BitVec 8), s.ringBad b0 = false → s.ringLook b0 = some b → b.ref = .slot h i g →
      let st := tgetD b.states (b.next % b.nslot) 0
      (st = 1 → exec .subscriptionEnd s = .next (s.fillSlot n b)) ∧
      (st ≠ 1 → ∀ X k, s.pullUnderWay n b = some (X, k) → exec .subscriptionEnd s = .next (s.pullSlot n b X k).2) ∧
      (st ≠ 1 → s.pullUnderWay n b = none → b.x.flight = [] → b.x.bitmap ||| 1 = BitVec.allOnes 64 → ∃ t,
        exec .subscriptionEnd s = .next t ∧ t.slot h i = { b.x with
          bitmap := BitVec.allOnes 64, paused := [], state := if b.x.covered = BitVec.allOnes 64 then .free else .done } ∧
        ∀ m, t.sillQueue m = (s.sillQueue m).filter fun c => c.ref != b.ref))

/-! Tensor descriptors (R173, R178, R338..R340). -/

/-- R178, R338, R339, R340: TDSET takes 128 bytes at a multiple of 64, writes them with GEN one more than the entry had and
ELIDED clear to the context's table, and the bay's cache holds them; the tensor that a spliced step redirects traps ELIDED.
TDGET gives dword C[3:0] of the entry, read from the cache or, at a first use, from the table into the cache; TDCHK gives what
a use of it would do, with ELIDED, TRANSIENT and GEN, and 0 in the bits 9..4 that R340 does not name (the model's choice, log 62).
TDSYNC drops the entry from the caches of its scope's instance. Both stand while a stream of their bays stands inside a tile instruction
that uses the entry (log 62). TDSET, and TDSYNC at TRUSS or wider, release: the bay's L1 is
written back (R124, R338, R339). -/
def Obligations.TensorDescriptors : Prop :=
  (∀ (w : Word32) (n : Nat), tileUse w = some n ↔ ∃ t : RCode, t.toNat = n ∧ ((∃ a b c, decode w = .instr (.vlt a t b c)) ∨
    (∃ a b c, decode w = .instr (.vltck a t b c)) ∨ ∃ a b c, decode w = .instr (.vstt t a b c))) ∧
  (∀ (ti b : RCode) (s : State) (h : Nat), s.cur = .aStream h → s.Ready (.tdset ti b) [b] [] →
    let va := s.src [b] 0
    let pt := (s.hart h).ctx.ptbase
    let adr := (s.hart h).ctx.tdtbase + 128 * ti.toNat
    (va.toNat % 64 ≠ 0 → exec (.tdset ti b) s = .next (s.raise .align va)) ∧
    let used := s.redirected h ti.toNat = false ∧ ∃ g ∈ s.placed, g / 8 = h / 8 ∧ (s.hart g).ctx.asid = (s.hart h).ctx.asid ∧
      s.redirected g ti.toNat = false ∧ ∃ p, (s.hart g).e.prog = some p ∧ tileUse p.word = some ti.toNat
    (va.toNat % 64 = 0 → used → exec (.tdset ti b) s = .next (s.modA h fun x => { x with wait := .stall })) ∧
    (va.toNat % 64 = 0 → ¬ used → ∀ ds s1, s.aLoads s.cur va.toNat 16 = (.ok ds, s1) →
      (s.redirected h ti.toNat = true → exec (.tdset ti b) s = .next (s1.raise .elided (BitVec.ofNat 64 ti.toNat))) ∧
      (s.redirected h ti.toNat = false → ∀ bs s2, s1.ctlRead pt adr 128 = (.ok bs, s2) → ∃ e : BitVec 1024,
        (∀ j, j < 1024 → e.getLsbD j = if j = 13 then false
          else if 0x380 ≤ j ∧ j < 0x3C0 then (ofBytes (bs.drop 0x70) + 1).testBit (j - 0x380)
          else (ds.getD (j / 64) 0).getLsbD (j % 64)) ∧
        ∀ s3, s2.ctlWrite pt adr (toBytes 128 e.toNat) = (.ok (), s3) → ∃ (u t : State), exec (.tdset ti b) s = .next t ∧
          Done u t [b] 0 0 ∧ u = { s3.l1Release h with tdc := u.tdc } ∧ u.tdCached h ti.toNat = some e ∧
          ∀ g tid, (g / 8 ≠ h / 8 ∨ (s.hart g).ctx.asid ≠ (s.hart h).ctx.asid ∨ tid ≠ ti.toNat) →
            u.tdCached g tid = s3.tdCached g tid))) ∧
  (∀ (i : Instr) (a ti c : RCode) (srcs : List RCode) (s : State) (h : Nat) (x : BitVec 1024) (u : State), s.cur = .aStream h →
    (i = .tdget a ti c ∧ srcs = [c] ∨ i = .tdchk a ti ∧ srcs = []) → s.Ready i srcs [a] →
    ((∃ tile off td, (s.hart h).r.redirect = some (ti.toNat, tile, off, td) ∧
        x = tdOneTile td (ownBase + off - (s.hart h).r.base) ∧ u = s) ∨
      s.redirected h ti.toNat = false ∧ (s.tdCached h ti.toNat = some x ∧ u = s ∨
        s.tdCached h ti.toNat = none ∧ ∃ bs s1, s.ctlRead (s.hart h).ctx.ptbase ((s.hart h).ctx.tdtbase + 128 * ti.toNat) 128 =
          (.ok bs, s1) ∧ x = BitVec.ofNat 1024 (ofBytes bs) ∧ u = s1.tdFill h ti.toNat x)) →
    (i = .tdget a ti c → ∃ t, exec i s = .next t ∧ Done u t srcs a (x.extractLsb' (64 * ((s.src [c] 0).toNat % 16)) 64)) ∧
    (i = .tdchk a ti → ∃ t, exec i s = .next t ∧ Done u t srcs a (BitVec.ofNat 64 (u.tdUse x +
      (if x.getLsbD 13 = true then 2 ^ 10 else 0) + (if x.getLsbD 11 = true then 2 ^ 11 else 0) +
      x.toNat / 2 ^ 0x380 % 2 ^ 32 * 2 ^ 32)))) ∧
  ∀ (ti sc : RCode) (s : State) (h : Nat), s.cur = .aStream h → s.Ready (.tdsync ti sc) [] [] →
    let n := match sc.toNat % 8 with
      | 0 | 1 => 1
      | 2 => 8
      | 3 => 32
      | 4 => 64
      | 5 => 128
      | _ => 512
    let used := ∃ g ∈ s.placed, g / 8 / n = h / 8 / n ∧ (s.hart g).ctx.asid = (s.hart h).ctx.asid ∧
      s.redirected g ti.toNat = false ∧ ∃ p, (s.hart g).e.prog = some p ∧ tileUse p.word = some ti.toNat
    (used → exec (.tdsync ti sc) s = .next ((s.releaseBy s.cur (sc.toNat % 8)).modA h fun x => { x with wait := .stall })) ∧
    (¬ used → ∃ (u t : State), exec (.tdsync ti sc) s = .next t ∧ Done u t [] 0 0 ∧ u = { s.releaseBy s.cur (sc.toNat % 8) with tdc := u.tdc } ∧
      ∀ g tid, u.tdCached g tid = if g / 8 / n = h / 8 / n ∧ (s.hart g).ctx.asid = (s.hart h).ctx.asid ∧ tid = ti.toNat then none
        else s.tdCached g tid)

/-! The plate instructions (R341..R347). -/

/-- R341: QMAP of a QCB whose conditions hold binds a FREE slot to it and marks it MAPPED, and answers BUSY, MAPPED or BADQCB
where they do not; that it reads the QCB through the plate core's translation is the model's choice (log 21), as is that it traps UNCORR
where the region's control block cannot be read (log 100); QLOAD, QSAVE and QUNMAP take a slot from STOPPED to RUNNING, from RUNNING to STOPPED, and from STOPPED to
FREE, and answer STATE in any other state, with nothing changed. -/
def Obligations.QueueSlots : Prop :=
  (∀ (a b c : RCode) (s : State), s.Ready (.qmap a b c) [b, c] [a] →
    let va := (s.src [b, c] 0).toNat
    let k := (s.src [b, c] 1).toNat % 256
    (va % 64 ≠ 0 → exec (.qmap a b c) s = .next (s.raise .align (s.src [b, c] 0))) ∧
    (va % 64 = 0 → ∀ ds s1, s.aLoads s.cur va 8 = (.ok ds, s1) →
      let rcb := (ds.getD 1 0).toNat % 2 ^ 48
      let qb := s1.rcbFld rcb 0x58 6 42 * 64
      let bad := isHbm s1 rcb = true ∧ rcb % 64 = 0 ∧ s1.rcbBad rcb = true
      let good := ¬ bad ∧ (qcbRing (ds.getD 0 0).toNat).isSome = true ∧ isHbm s1 rcb = true ∧ rcb % 64 = 0 ∧ s1.rcbLevel rcb = 3 ∧
        qb ≤ va ∧ (va - qb) / 64 < 512
      ((s1.qslot k).state ≠ .free → ∃ t, exec (.qmap a b c) s = .next t ∧ Done s1 t [b, c] a 1) ∧
      ((s1.qslot k).state = .free → (ds.getD 2 0).getLsbD 8 = true →
        ∃ t, exec (.qmap a b c) s = .next t ∧ Done s1 t [b, c] a 2) ∧
      ((s1.qslot k).state = .free → (ds.getD 2 0).getLsbD 8 = false → bad →
        exec (.qmap a b c) s = .next (s1.countUncorr.raise .uncorr (BitVec.ofNat 64 rcb))) ∧
      ((s1.qslot k).state = .free → (ds.getD 2 0).getLsbD 8 = false → ¬ bad → ¬ good →
        ∃ t, exec (.qmap a b c) s = .next t ∧ Done s1 t [b, c] a 3) ∧
      ((s1.qslot k).state = .free → (ds.getD 2 0).getLsbD 8 = false → good →
        let q : QSlot := ⟨.stopped, rcb, (va - qb) / 64, va⟩
        ∃ t, exec (.qmap a b c) s = .next t ∧ Done ((s1.setQslot k q).putMapped q true k) t [b, c] a 0 ∧ t.qslot k = q))) ∧
  ∀ (i : Instr) (a b : RCode) (s : State) (need : SlotState) (f : Nat → QSlot → State),
    (i = .qload a b ∧ need = .stopped ∧ f = (fun k q =>
        (s.setQslot k { q with state := .running }).modQueue q.rcb q.n fun w => { w with held := none }) ∨
      i = .qsave a b ∧ need = .running ∧ f = (fun k q => (s.setQslot k { q with state := .stopped }).putDone q.rcb q.n) ∨
      i = .qunmap a b ∧ need = .stopped ∧ f = fun k q => (s.setQslot k ⟨.free, 0, 0, 0⟩).putMapped q false k) →
    s.Ready i [b] [a] → let k := (s.src [b] 0).toNat % 256
    ∃ t, exec i s = .next t ∧ Done (if (s.qslot k).state = need then f k (s.qslot k) else s) t [b] a
      (if (s.qslot k).state = need then 0 else 4) ∧ ∀ j, j ≠ k → t.qslot j = s.qslot j

/-- R342, R345, R346: KICKCLR clears the bits of C in one dword of a region's KICKMAP; VTTSET writes an entry of a context's
VTT to memory and to every resident copy, and answers BADRCB for an RCB of another level; PRESET resets the fault domain, and
answers BADRCB for the root; both trap UNCORR where they cannot read the RCB (R128); an address that is not a multiple of 64 traps ALIGN. R391: a reset of a domain ends the steps below its
node, placed or parked, takes their commands and graph instances, empties their pools, records stolen and still on their way included (R381), and leaves all others; a queue goes back to
its fence record: a RUN with ONCE keeps DONE or is FAILED, with a NOREPLAY record, and is skipped when it is read again; any other
record gets STATUS 0xFF. -/
def Obligations.RegionInstructions : Prop :=
  (∀ (i : Instr) (a b c : RCode) (s : State) (srcs dsts : List RCode),
    (i = .kickclr b c ∧ srcs = [b, c] ∧ dsts = [] ∨ i = .vttset a b c ∧ srcs = [b, c] ∧ dsts = [a] ∨
      i = .preset a b ∧ srcs = [b] ∧ dsts = [a]) → s.Ready i srcs dsts →
    let v := s.src srcs 0
    let w := s.src srcs 1
    let rcb := v.toNat % 2 ^ 48
    (rcb % 64 ≠ 0 → exec i s = .next (s.raise .align v)) ∧
    (rcb % 64 = 0 →
      (i = .kickclr b c → isHbm s rcb = true → let k := rcb + 0x80 + 8 * (v.toNat / 2 ^ 48 % 8)
        readBad s k 8 = false → ∃ (u t : State), exec i s = .next t ∧ Done u t srcs 0 0 ∧
          u = { s with mem := u.mem, bad := u.bad } ∧ u.nat k 8 = (BitVec.ofNat 64 (s.nat k 8) &&& ~~~w).toNat ∧
          ∀ j, (j < k ∨ k + 8 ≤ j) → u.byteOf j = s.byteOf j) ∧
      (i = .vttset a b c ∨ i = .preset a b → isHbm s rcb = true → s.rcbBad rcb = true →
        exec i s = .next (s.countUncorr.raise .uncorr (BitVec.ofNat 64 rcb))) ∧
      (i = .vttset a b c → isHbm s rcb = false ∨ s.rcbBad rcb = false ∧ s.rcbLevel rcb ≠ 2 → ∃ t, exec i s = .next t ∧ Done s t srcs a 3) ∧
      (i = .vttset a b c → isHbm s rcb = true → s.rcbBad rcb = false → s.rcbLevel rcb = 2 → let e := v.toNat / 2 ^ 48 % 2 ^ 11
        let k := s.rcbFld rcb 0x48 14 38 * 16384 + 8 * e
        isIo k = false → writeBad s k 8 = false → ∃ (u t : State), exec i s = .next t ∧ Done u t srcs a 0 ∧
          u = { s with mem := u.mem, bad := u.bad, harts := u.harts, vtts := u.vtts } ∧ u.nat k 8 = w.toNat ∧
          (∀ j, (j < k ∨ k + 8 ≤ j) → u.byteOf j = s.byteOf j) ∧
          ∀ m cp, tget u.vtts m = some cp ↔ ∃ old, tget s.vtts m = some old ∧
            cp = if m % 4096 = u.rcbFld rcb 0 16 12 then tput old e (some w) else old) ∧
      (i = .preset a b → isHbm s rcb = false ∨ s.rcbBad rcb = false ∧ s.rcbLevel rcb = 0 → ∃ t, exec i s = .next t ∧ Done s t srcs a 3) ∧
      (i = .preset a b → isHbm s rcb = true → s.rcbBad rcb = false → s.rcbLevel rcb ≠ 0 → ∃ t, exec i s = .next t ∧
        Done (s.domainReset rcb) t srcs a 0))) ∧
  (∀ (s : State) (node : Nat), let t := s.domainReset node
    let below := fun r => decide (node ∈ s.path r)
    (∀ h ∈ s.placed, s.occ h = true → below (s.hart h).ctx.rcb = true → t.hart h = Hart.free) ∧
    (∀ c ∈ t.cmds, below c.rcb = false) ∧ (∀ i ∈ t.insts, below i.rcb = false) ∧ (∀ p ∈ t.parked, below p.rcb = false) ∧
    (∀ c ∈ s.cmds, (∀ d ∈ s.cmds, d.id = c.id → below d.rcb = false) → c ∈ t.cmds) ∧
    (∀ i ∈ s.insts, below i.rcb = false → i ∈ t.insts) ∧
    (∀ p ∈ s.parked, (∀ q ∈ s.parked, q.stepid = p.stepid → below q.rcb = false) → p ∈ t.parked) ∧
    (∀ k x, tget t.shards k = some x → below (k / 64) = true → x.entries = []) ∧
    (∀ k, below (k / 64) = false → tget t.shards k = tget s.shards k) ∧
    (∀ q ∈ t.rq, ∀ v k, q.kind = .steal v k → q.ctx.rcb ∈ s.regions → below q.ctx.rcb = false) ∧
    ∀ r n, n < 512 → below r = false → t.queue r n = s.queue r n) ∧
  (∀ (s : State) (rcb n : Nat) (bs fr : List Byte) (s1 s2 : State) (ring lg : Nat), let pt := (s.ctxOf rcb).ptbase
    let q := s.qcbAt rcb n
    let r := ofBytes (fr.drop 8) % 2 ^ 32
    s.ctlRead pt q 64 = (.ok bs, s1) → qcbRing (ofBytes (bs.take 8)) = some (ring, lg) →
    s1.ctlRead pt (ofBytes ((bs.drop 0x28).take 8) % 2 ^ 48) 16 = (.ok fr, s2) →
    let x := s2.rewindRecs rcb ring lg (min ((ofBytes ((bs.drop 0x1C).take 4) + 2 ^ 32 - r) % 2 ^ 32) (2 ^ lg)) r []
    let u := x.2.ctlWriteD pt (q + 0x1C) (toBytes 4 r ++ toBytes 4 r)
    s.rewindQueue rcb n = { u with
      queues := tput u.queues (rcb * 512 + n) ⟨0, [], [], [], none, x.1⟩ }) ∧
  ∀ (s : State) (rcb ring lg k : Nat) (bs : List Byte) (s1 : State), let pt := (s.ctxOf rcb).ptbase
    let adr := ring + 64 * (k % 2 ^ lg)
    let rec_ := BitVec.ofNat 512 (ofBytes bs)
    let note := fun (st : Nat) => ({ FRec.zero with
      kind := 3, status := st, kernid := rec_.toNat / 2 ^ 32 % 2 ^ 32, cmdaddr := adr } : FRec)
    s.ctlRead pt adr 64 = (.ok bs, s1) →
    (rec_.toNat % 256 ≠ 1 → s.rewindOne rcb ring lg k = (none, s1.ctlWriteD pt (adr + 2) [0xFF])) ∧
    ∀ b s2, rec_.toNat % 256 = 1 → s1.ctlRead pt (rec_.toNat / 2 ^ 64 % 2 ^ 48) 512 = (.ok b, s2) →
      let once := blkOnce (BitVec.ofNat 4096 (ofBytes b))
      (once = false → s.rewindOne rcb ring lg k = (none, s2.ctlWriteD pt (adr + 2) [0xFF])) ∧
      (once = true → rec_.toNat / 2 ^ 16 % 256 = 0 → s.rewindOne rcb ring lg k = (some 0, s2.logFault rcb (note 0))) ∧
      (once = true → rec_.toNat / 2 ^ 16 % 256 ≠ 0 →
        s.rewindOne rcb ring lg k = (some 1, (s2.ctlWriteD pt (adr + 2) [1]).logFault rcb (note 1)))

/-- R343, R344, R347: TLBIR sends its range to every translation cache; TLB_ACK drops a cache's overlapping entries, and
acknowledges what has drained, a bay's L1 written back; TLBSYNC stands until every TLBIR of its core is acknowledged. PRESUME makes parked steps ready
whose page the range holds, and ends what waits for one; a step still to be parked for such a page is then ready at once. A length that is not a multiple of 4 KiB traps BOUNDS. -/
def Obligations.ShootDown : Prop :=
  (∀ (i : Instr) (b c : RCode) (s : State) (p : Nat), s.cur = .plate p → (i = .tlbir b c ∨ i = .presume b c) →
    s.Ready i [b, c] [] →
    let v := (s.src [b, c] 0).toNat
    let len := (s.src [b, c] 1).toNat
    let asid := v % 2 ^ 12
    let lo := v / 2 ^ 12 % 2 ^ 36 * 4096
    let within := fun (x va : Nat) => decide (x = asid ∧ (len = 0 ∨ lo ≤ va ∧ va < lo + len))
    (len % 4096 ≠ 0 → exec i s = .next (s.raise .bounds (s.src [b, c] 1))) ∧
    (len % 4096 = 0 → i = .tlbir b c → ∃ t, exec i s = .next t ∧
      Done ({ s with tlbInv := s.tlbInv ++ [⟨p, asid, lo, len, s.tlbIds⟩] } : State) t [b, c] 0 0 ∧
      (∀ h, h < 4096 → s.bayOn (h / 8) = true → h / 8 ∈ s.tlbIds) ∧ ∀ k, k < 4 → tlbPlate k ∈ s.tlbIds) ∧
    (len % 4096 = 0 → i = .presume b c → ∃ (u t : State), exec i s = .next t ∧ Done u t [b, c] 0 0 ∧
      u = { s with parked := u.parked, harts := u.harts, cmds := u.cmds, queues := u.queues } ∧
      u.parked = (s.parked.map fun x => { x with ready := x.ready || within x.asid x.va }) ∧
      (∀ h, (u.hart h).r.waitPage = ((s.hart h).r.waitPage.bind fun va =>
        if within (s.hart h).ctx.asid va = true then none else some va)) ∧
      (∀ h, (u.hart h).r.presumed = true ↔ (s.hart h).r.presumed = true ∨ ∃ q, (s.hart h).r.pend = some q ∧ q.reason = 0 ∧
        q.cause = .pfault ∧ within (s.hart h).ctx.asid q.va.toNat = true) ∧
      (∀ h k, (u.slot h k).paused = (s.slot h k).paused.filter fun x => !(within (s.hart h).ctx.asid x.2)) ∧
      (∀ r n, n < 512 → (u.queue r n).held = ((s.queue r n).held.bind fun va =>
        if within (s.ctxOf r).asid va = true then none else some va)) ∧
      ∀ (k : Nat) (x : Cmd), s.cmds[k]? = some x → ∃ y : Cmd, u.cmds[k]? = some y ∧ y.id = x.id ∧
        y.phase = match x.phase with
          | .held va acc => if within (s.ctxOf x.rcb).asid va = true then .waiting else .held va acc
          | ph => ph)) ∧
  (∀ (s : State) (p : Nat), s.cur = .plate p → s.gateFail .tlbsync = none →
    ((∃ x ∈ s.tlbInv, x.core = p ∧ x.pend ≠ []) → exec .tlbsync s = .next s) ∧
    ((∀ x ∈ s.tlbInv, x.core = p → x.pend = []) → ∃ t, exec .tlbsync s = .next t ∧ Done s t [] 0 0)) ∧
  ∀ s : State, let n := s.ev.n
    (∃ x ∈ s.tlbInv, n ∈ x.pend) → ∃ (t : State), exec .tlbAck s = .next t ∧
      (let u := if n < 512 then s.l1WriteBack n fun _ => true else s
       t = { u with tlbs := t.tlbs, tlbInv := t.tlbInv }) ∧
      (∀ m, m ≠ n → tgetD t.tlbs m [] = tgetD s.tlbs m []) ∧
      (∀ e : TlbEntry, e ∈ tgetD t.tlbs n [] ↔ e ∈ tgetD s.tlbs n [] ∧ ∀ x ∈ s.tlbInv, n ∈ x.pend →
        ¬ (e.asid = x.asid ∧ (x.len = 0 ∨ e.page < x.lo + x.len ∧ x.lo < e.page + e.size))) ∧
      ∀ y : TlbInv, y ∈ t.tlbInv ↔ y.pend ≠ [] ∧ ∃ x ∈ s.tlbInv,
        y = { x with pend := if s.tlbDrained n x.asid = true then x.pend.filter (· != n) else x.pend }

/-! Launch queues and commands (R33..R41, R154..R160). -/

/-- R154..R157, R367, R403, R405: a host store of eight bytes to a bound doorbell page kicks the queue of its offset, unless its
VF is in a Function Level Reset; any other store there has no effect. A kick writes WIDX, and for an unmapped queue sets its
KICKMAP bit and raises KICK; a malformed control block, or one that cannot be reached, sets the bit and raises FAULT (log 11). The walker of a RUNNING slot reads the
record at RIDX as a command of the run it belongs to, and moves RIDX on; a missing page holds it there; a record that a replay does
not run again (R391) is passed over with its status; a control block that cannot be read stops the walker (log 100). A command is ready once no unended command of the run before its own is left,
a FENCE once nothing older is, from that clk on (R33, R34, R369). R375, R384: a RUN command of a queue is considered for a splice
once, as it becomes ready, among the commands that have been read by then. -/
def Obligations.QueueFetch : Prop :=
  (∀ s : State, let vf := s.ev.n / 4096
    let busy := (s.byteOf (ioBase + 0xA800 + vf / 8)).getLsbD (vf % 8)
    (busy = true ∨ s.ev.bs.length ≠ 8 ∨ s.ev.n1 % 8 ≠ 0 ∨ 4096 ≤ s.ev.n1 ∨ s.doorbell s.ev.n = none → exec .kick s = .next s) ∧
    ∀ rcb, busy = false → s.ev.bs.length = 8 → s.ev.n1 % 8 = 0 → s.ev.n1 < 4096 → s.doorbell s.ev.n = some rcb →
      exec .kick s = .next (s.kick rcb (s.ev.n1 / 8) (ofBytes s.ev.bs % 2 ^ 32))) ∧
  (∀ (s : State) (rcb n widx : Nat), let pt := (s.ctxOf rcb).ptbase
    let q := s.qcbAt rcb n
    let failed := fun (u : State) => (u.setKickBit rcb n).raiseIp 1
    (s.rcbBad rcb = true → s.kick rcb n widx = failed s.countUncorr) ∧
    (∀ e s1, s.rcbBad rcb = false → s.ctlRead pt q 64 = (.error e, s1) → s.kick rcb n widx = failed s1) ∧
    ∀ bs s1, s.rcbBad rcb = false → s.ctlRead pt q 64 = (.ok bs, s1) →
      (qcbRing (ofBytes (bs.take 8)) = none → s.kick rcb n widx = failed s1) ∧
      (∀ r e s2, qcbRing (ofBytes (bs.take 8)) = some r → s1.ctlPut State.storeLow pt false (q + 0x18) (toBytes 4 widx) = (.error e, s2) →
        s.kick rcb n widx = failed s2) ∧
      ∀ r s2, qcbRing (ofBytes (bs.take 8)) = some r → s1.ctlPut State.storeLow pt false (q + 0x18) (toBytes 4 widx) = (.ok (), s2) →
        s.kick rcb n widx = if (bs.getD 0x11 0).getLsbD 0 = true then s2 else (s2.setKickBit rcb n).raiseIp 0) ∧
  (∀ (s : State) (rcb n : Nat), writeBad s (rcb + 0x80 + n / 8) 1 = true → s.setKickBit rcb n = s.countUncorr) ∧
  (∀ (s : State) (rcb n : Nat), writeBad s (rcb + 0x80 + n / 8) 1 = false → ∃ (t : State), s.setKickBit rcb n = t ∧ t = { s with mem := t.mem, bad := t.bad } ∧ ∀ j, t.byteOf j =
    if j = rcb + 0x80 + n / 8 then s.byteOf j ||| BitVec.ofNat 8 (2 ^ (n % 8)) else s.byteOf j) ∧
  (∀ (s : State), let slot := s.qslot s.ev.n
    let n := slot.n
    let rcb := slot.rcb
    let may := slot.state = .running ∧ s.preg.featack ≠ none ∧ (s.queue rcb n).held = none ∧ (s.queueCmds rcb n).length < 16
    let pt := (s.ctxOf rcb).ptbase
    (¬ may → exec .recordRead s = .next s) ∧
    (may → s.rcbBad rcb = true → exec .recordRead s = .next (s.countUncorr.modQueue rcb n fun w => { w with held := some slot.qcb })) ∧
    (∀ e s0, may → s.rcbBad rcb = false → s.ctlRead pt (s.qcbAt rcb n) 64 = (.error e, s0) → exec .recordRead s = .next
      (if e.1 = .uncorr then s0.modQueue rcb n fun w => { w with held := some e.2 } else s0)) ∧
    (∀ b s0, may → s.rcbBad rcb = false → s.ctlRead pt (s.qcbAt rcb n) 64 = (.ok b, s0) → Qcb.of b = none → exec .recordRead s = .next s0) ∧
    ∀ b s0 q, may → s.rcbBad rcb = false → s.ctlRead pt (s.qcbAt rcb n) 64 = (.ok b, s0) → Qcb.of b = some q →
      let ahead := (q.widx + 2 ^ 32 - q.ridx) % 2 ^ 32
      let fetch := 1 ≤ ahead ∧ ahead ≤ 2 ^ q.lg ∧ (q.ridx + 2 ^ 32 - q.done) % 2 ^ 32 < 2 ^ q.lg
      let a := q.ring + 64 * (q.ridx % 2 ^ q.lg)
      (¬ fetch → exec .recordRead s = .next s0) ∧
      (fetch → ∀ s1, (∀ bs, s0.ctlRead (s0.ctxOf rcb).ptbase a 64 = (.ok bs, s1) →
          ((∀ p ∈ (s.queue rcb n).skip, p.1 ≠ q.ridx) → ∃ (u : State) (c : Cmd),
            exec .recordRead s = .next ((u.becomeReady rcb).putRidx rcb n q.ridx) ∧
            u.cmds = s1.cmds ++ [c] ∧ c.rec_ = BitVec.ofNat 512 (ofBytes bs) ∧ c.rcb = rcb ∧ c.va = a ∧ c.phase = .waiting ∧
            c.ready = false ∧ c.partner = none ∧ c.src = .queue n q.ridx (u.queue rcb n).run ∧
            (u.queue rcb n).run = (s.queue rcb n).run + if c.rec_.getLsbD 8 = true then 0 else 1) ∧
          ∀ p, ((s.queue rcb n).skip.find? fun p => p.1 == q.ridx) = some p → ∃ (u : State), exec .recordRead s = .next u ∧
            u.cmds = s1.cmds ∧ let run := (s.queue rcb n).run + if (bs.getD 1 0).getLsbD 0 = true then 0 else 1
            (u.queue rcb n).run = run ∧ (u.queue rcb n).failed =
              (if 1 ≤ p.2 ∧ p.2 ≤ 8 then [(run, s.nextId)] else []) ++ (s.queue rcb n).failed) ∧
        ∀ va, s0.ctlRead (s0.ctxOf rcb).ptbase a 64 = (.error (.pfault, va), s1) → ∃ t, exec .recordRead s = .next t ∧
          (t.queue rcb n).held = some va ∧ t.cmds = s1.cmds)) ∧
  (∀ (s : State) (rcb : Nat), let older := fun (c d : Cmd) => decide (d.rcb = c.rcb ∧ d.id < c.id) && match c.src, d.src with
      | .queue n _ _, .queue m _ _ => n == m
      | _, _ => false
    let now := fun (c : Cmd) => c.rcb = rcb ∧ c.ready = false ∧ ∀ n i run, c.src = .queue n i run → ∀ d ∈ s.cmds,
      older c d = true → c.rec_.toNat % 256 ≠ 5 ∧ d.src.run + 1 ≠ run
    (s.cmds.map (·.id)).Nodup → (s.becomeReady rcb).cmds.length = s.cmds.length ∧ ∀ (k : Nat) (c : Cmd), s.cmds[k]? = some c →
      (now c → ∃ p, (s.becomeReady rcb).cmds[k]? = some { c with ready := true, readyAt := s.cycle, partner := p }) ∧
      (¬ now c → (s.becomeReady rcb).cmds[k]? = some c) ∧
      (now c → (∀ d ∈ s.cmds, now d → d = c) → ∀ u : State, { s with cmds := u.cmds } = u →
        u.cmds = (s.cmds.map fun d => if d.id = c.id then { d with ready := true, readyAt := s.cycle } else d) →
        s.becomeReady rcb = u.consider c.id)) ∧
  ∀ (s : State) (p : Cmd), s.cmd? p.id = some p →
    let may := p.rec_.toNat % 256 = 1 ∧ s.has .splice = true ∧ ∃ n i run, p.src = .queue n i run ∧ 2 ≤ (s.queueCmds p.rcb n).length
    (¬ may → s.consider p.id = s) ∧ (may → s.cmdBlock p = none → s.consider p.id = s) ∧
    ∀ b, may → s.cmdBlock p = some b → ∃ u : State, u = { s with mem := u.mem } ∧ s.consider p.id =
      { u with cmds := s.cmds.map fun d => if d.id = p.id then { d with partner := s.spliceFind p b } else d }

/-- R33, R36..R41, R154, R159, R160: the event of a command that is ready ends it with the status of its dependences, or
BADCMD, or does its work: NOP ends DONE; SIGNAL stores its value; WAIT ends once its word has reached its value, and reads
again until then; FENCE writes SEQ and the index behind it; SELECT compares a result word and takes a side; COPY enters a copy
engine or is refused; GRAPH makes its snapshot and then, when GEN still has its value, starts an instance, else ends TORN; RUN ends
BADBLOCK or UNFIT, joins the splice that was found as it became ready, or starts its node; where the control blocks of its region, the
fields of a FENCE's queue or a pool's descriptor cannot be read, a command ends as log 100 says; that a splice is always made where R375 allows it, that a LOOP block is tested
for fit before its extents, and what a POOL block does without SEARCH in FEAT are the model's choices (logs 28, 90, 50), as are the
store of a SIGNAL as one access (log 73) and the order of the launch checks (log 53). A page that is
missing holds a command; another fault ends it FAILED. -/
def Obligations.QueueCommands : Prop :=
  (∀ (i : Instr) (s : State) (c : Cmd), s.cmd? s.ev.n = some c → s.cmdReady c = true →
    let k := c.rec_.toNat % 256
    let pt := (s.ctxOf c.rcb).ptbase
    let adr := c.rec_.toNat / 2 ^ 64 % 2 ^ 48
    let val : W64 := c.rec_.extractLsb' 128 64
    (i = .nop ∧ (k = 0 ∨ 7 < k) ∨ i = .run ∧ k = 1 ∨ i = .copy ∧ k = 2 ∨ i = .graph ∧ k = 3 ∨ i = .select ∧ k = 4 ∨
      i = .fence ∧ k = 5 ∨ i = .signal ∧ k = 6 ∨ i = .wait ∧ k = 7) →
    (∀ st, s.depStatus c = some st → exec i s = .next (s.endCmd c.id st)) ∧
    (s.depStatus c = none → c.legal = false → exec i s = .next (s.endCmd c.id 5)) ∧
    (s.depStatus c = none → c.legal = true → k ≠ 0 → k ≠ 5 → s.rcbBad c.rcb = true →
      exec i s = .next (s.countUncorr.cmdFault c (.uncorr, c.rcb) 0)) ∧
    (s.depStatus c = none → c.legal = true → (k = 0 ∨ k = 5 ∨ s.rcbBad c.rcb = false) →
      (i = .nop → exec i s = .next (s.endCmd c.id 0)) ∧
      (i = .signal → (∀ s1, s.cmdStore pt adr val = (.ok (), s1) → exec i s = .next (s1.endCmd c.id 0)) ∧
        ∀ e s1, s.cmdStore pt adr val = (.error e, s1) → exec i s = .next (s1.cmdFault c e 1)) ∧
      (i = .wait → (∀ bs s1, s.ctlRead pt adr 8 = (.ok bs, s1) → exec i s = .next (if val.toNat ≤ ofBytes bs then s1.endCmd c.id 0
          else s1.modCmd c.id fun d => { d with phase := .active })) ∧
        ∀ e s1, s.ctlRead pt adr 8 = (.error e, s1) → exec i s = .next (s1.cmdFault c e 0)) ∧
      (∀ n idx r, i = .fence → c.src = .queue n idx r →
        let q := s.qcbAt c.rcb n
        (s.rcbBad c.rcb = true → exec i s = .next ((s.countUncorr.logCmd c .uncorr 0 c.rcb).endCmd c.id 0)) ∧
        (∀ e s0, s.rcbBad c.rcb = false → s.ctlRead pt (q + 0x28) 16 = (.error e, s0) → exec i s =
          .next (if e.1 = .pfault then s0.cmdFault c e 0 else (s0.logCmd c e.1 0 e.2).endCmd c.id 0)) ∧
        ∀ b s0, s.rcbBad c.rcb = false → s.ctlRead pt (q + 0x28) 16 = (.ok b, s0) →
          let seq := (ofBytes (b.drop 8) + 1) % 2 ^ 64
          let put := s0.ctlWrite pt (ofBytes (b.take 6)) (toBytes 8 seq ++ toBytes 8 ((idx + 1) % 2 ^ 32))
          let fin := fun (u : State) => (u.ctlWriteD pt (q + 0x30) (toBytes 8 seq)).endCmd c.id 0
          (∀ s1, put = (.ok (), s1) → exec i s = .next (fin s1)) ∧
          ∀ e s1, put = (.error e, s1) → exec i s =
            .next (if e.1 = .pfault then s1.cmdFault c e 1 else fin (s1.logCmd c e.1 0 e.2))) ∧
      (∀ g m I, i = .select → c.src = .node g m → s.inst? g = some I →
        let src := adr % 2 ^ 8
        (ancestor I.nodes I.nodes.length src m = false → exec i s = .next (s.endCmd c.id 6)) ∧
        (ancestor I.nodes I.nodes.length src m = true → ∀ bs s1, s.ctlRead pt (I.area + 136 + 128 * src) 8 = (.ok bs, s1) →
          let w := BitVec.ofNat 64 (ofBytes bs)
          exec i s = .next (s1.endCmd c.id 0 (some (match adr / 2 ^ 8 % 8 with
            | 0 => w == val
            | 1 => w != val
            | 2 => decide (w.toInt < val.toInt)
            | 3 => decide (val.toInt ≤ w.toInt)
            | 4 => decide (w.toNat < val.toNat)
            | _ => decide (val.toNat ≤ w.toNat)))))) ∧
      (i = .graph → c.gsnap = none →
        (∀ e s1, s.graphSnap c.rcb adr = (.error e, s1) → exec i s = .next (s1.cmdFault c e 0)) ∧
        (∀ st s1, s.graphSnap c.rcb adr = (.ok (.error st), s1) → exec i s = .next ((s1.torn c.rcb st).endCmd c.id st)) ∧
        ∀ g s1, s.graphSnap c.rcb adr = (.ok (.ok g), s1) → exec i s = .next (s1.modCmd c.id fun d => { d with gsnap := some g })) ∧
      (∀ g, i = .graph → c.gsnap = some g → let s0 := s.modCmd c.id fun d => { d with gsnap := none }
        let area := val.toNat % 2 ^ 48
        (∀ e s1, s0.ctlRead pt adr 8 = (.error e, s1) → exec i s = .next (s1.cmdFault c e 0)) ∧
        ∀ bs s1, s0.ctlRead pt adr 8 = (.ok bs, s1) →
          (ofBytes bs ≠ g.gen → exec i s = .next ((s1.torn c.rcb 7).endCmd c.id 7)) ∧
          (ofBytes bs = g.gen → (∀ e s2, s1.ctlWrite pt area (areaBytes g) = (.error e, s2) → exec i s = .next (s2.cmdFault c e 1)) ∧
            ∀ s2, s1.ctlWrite pt area (areaBytes g) = (.ok (), s2) → let I := g.inst s2.nextId c.rcb area (some c.id)
              exec i s = .next ((({ s2 with insts := s2.insts ++ [I], nextId := s2.nextId + 1 } : State).startNodes I).modCmd c.id
                fun d => { d with phase := .active }))) ∧
      (i = .copy → ∀ bs s1, s.ctlRead pt adr 64 = (.ok bs, s1) →
        let sh := shadowsOf bs
        (sh.bar.getLsbD 0 = true → exec i s = .next (s1.endCmd c.id 5)) ∧
        (sh.bar.getLsbD 0 = false →
          (s1.launchCheck none (Geo.of sh) true = .error .feature → exec i s = .next (s1.copyRefused c 4)) ∧
          (∀ st, s1.launchCheck none (Geo.of sh) true = .error (.code st) → exec i s = .next (s1.copyRefused c st)) ∧
          ∀ n, s1.launchCheck none (Geo.of sh) true = .ok n → (s1.copyEngine = none → exec i s = .next s1) ∧
            ∀ e, s1.copyEngine = some e → ∃ x, Taken Xfer.zero x n 0 sh false .copy ∧ exec i s = .next { s1 with
              nextId := s1.nextId + 1
              cmds := s1.cmds.map fun d => if d.id = c.id then { d with phase := .active, xfer := some x } else d
              copyq := tput s1.copyq e (tgetD s1.copyq e [] ++ [.cmd c.id]) })) ∧
      (i = .run → (∀ e s1, s.ctlRead pt adr 512 = (.error e, s1) → exec i s = .next (s1.cmdFault c e 0)) ∧
        ∀ bs s1, s.ctlRead pt adr 512 = (.ok bs, s1) →
        let b := BitVec.ofNat 4096 (ofBytes bs)
        let s2 := if blkPool b = true then s1.poolStart c.rcb else s1
        (blkOk b = false → exec i s = .next (s1.endCmd c.id 4)) ∧
        (blkOk b = true → blkPool b = true → s1.has .search = false →
          exec i s = .next ((s1.logCmd c .feature 1 adr).endCmd c.id 1)) ∧
        (blkOk b = true → blkPool b = true → s1.has .search = true →
          (∀ e, s2.poolErr c.rcb = some e → exec i s = .next ((s2.poolSeen c.rcb).cmdFault c e 0)) ∧
          (s2.poolErr c.rcb = none → s2.poolOf c.rcb = none → exec i s = .next (s2.endCmd c.id 4))) ∧
        (blkOk b = true → (blkPool b = true → s1.has .search = true ∧ s2.poolErr c.rcb = none ∧ s2.poolOf c.rcb ≠ none) →
          (∀ d db sp, c.partner = some (d, db, sp) → exec i s = .next (s2.splice c d db sp).settleRuns) ∧
          (c.partner = none →
            (s2.needsFit c.rcb (blkNeeds b) = false → exec i s = .next (s2.endCmd c.id 3)) ∧
            (s2.needsFit c.rcb (blkNeeds b) = true → exec i s =
              .next (s2.modCmd c.id fun d => { d with phase := .active, run := some (.start b none) }).settleRuns)))))) ∧
  (∀ (s : State) (c : Cmd), s.cmd? s.ev.n = some c → c.rec_.toNat % 256 = 7 → c.phase = .active → ∀ bs s1,
    s.ctlRead (s.ctxOf c.rcb).ptbase (c.rec_.toNat / 2 ^ 64 % 2 ^ 48) 8 = (.ok bs, s1) →
    exec .waitReread s = .next (if (c.rec_.extractLsb' 128 64).toNat ≤ ofBytes bs then s1.endCmd c.id 0
      else s1.modCmd c.id fun d => { d with phase := .active })) ∧
  (∀ (s : State) (c : Cmd) (st n j r : Nat), s.cmd? c.id = some c → c.src = .queue n j r →
    ∃ u : State, (s.endCmd c.id st).cmds = (u.becomeReady c.rcb).cmds ∧ (u.cmds = s.cmds.filter fun d => d.id != c.id) ∧
      ∀ p, (p ∈ (s.queue c.rcb n).failed ∨ 1 ≤ st ∧ st ≤ 8 ∧ p = (r, c.id)) →
        ((s.queue c.rcb n).run ≤ p.1 + 1 ∨ ∃ d ∈ s.cmds, d.id ≠ c.id ∧ d.rcb = c.rcb ∧ ∃ k run, d.src = .queue n k run ∧
          run ≤ p.1 + 1) → p ∈ ((s.endCmd c.id st).queue c.rcb n).failed) ∧
  ∀ (s : State) (c : Cmd) (e : Cause × Nat) (acc : Nat), e.1 = .pfault → (s.cmdFault c e acc).cmds =
    s.cmds.map fun d => if d.id = c.id then { d with phase := .held e.2 acc } else d

/-! Placement, pre-emption and the ends of steps (R31, R32, R42..R47, R118, R152, R246, R368..R372, R377, R391). -/

/-- R26, R31, R46, R50, R118, R368..R372, R379, R414: PLACE_STEP, once features are accepted, places the first waiting step that
finds harts, in the order of the waiting steps' keys, passing over those that find none and POOL steps for which no place's shard has a record: every place is free harts of enabled bays
with a free range of scratch each, outside a reservation for another step. A POOL step takes the first of its places whose shard
gives a record. A new step's streams start at the block's entries with every register at its start value (EPC and the other registers
without a start value at 0, log 1), after an acquire. The age of a region with a waiting step counts the µs since it has one without a
break or since its last placement; REGION_AGEING brings the ages up to date (log 59). At effective priority 15 the oldest waiting
TRUSS step reserves a truss and the oldest other step without a place a bay, each the emptiest; which is the oldest is read off the
keys (log 94). PREEMPT asks the step of lowest priority, at least two below the waiting step's, to leave, where its leaving lets the
waiting step be placed and nothing leaves for it yet. -/
def Obligations.StepPlacement : Prop :=
  (∀ s : State, s.preg.featack = none → exec .placeStep s = .next s) ∧
  (∀ (s : State), s.preg.featack ≠ none → let u := s.unfitPairs.reserve
    let take := fun (d : Cand) (q : List (Nat × Nat)) => let h := (q.headD (0, 0)).1
      u.dequeue d.cmd (h / 64) (h / 8) ((u.shard d.cmd.rcb (h / 64)).entries.length + 1)
    let passed := fun (d : Cand) => u.spots d = [] ∨
      d.parked = none ∧ blkPool d.run.blk = true ∧ ∀ q ∈ u.spots d, take d q = (none, u)
    ((∀ c ∈ u.cands, passed c) → exec .placeStep s = .next u.settleRuns) ∧
    ∀ (pre post : List Cand) (c : Cand), u.cands = pre ++ c :: post → (∀ d ∈ pre, passed d) →
    (∀ p sp sps, u.spots c = sp :: sps → c.parked = some p →
      exec .placeStep s = .next (((u.claim (u.ctxOf c.cmd.rcb) c.run.needs sp).placedAt c sp).resume p sp).settleRuns) ∧
    (∀ sp sps, u.spots c = sp :: sps → c.parked = none → blkPool c.run.blk = false →
      exec .placeStep s = .next (u.placeNew c sp none).settleRuns) ∧
    ∀ sa sp sb, u.spots c = sa ++ sp :: sb → c.parked = none → blkPool c.run.blk = true →
      (∀ q ∈ sa, take c q = (none, u)) → ∀ e w, take c sp = (some e, w) →
        exec .placeStep s = .next (w.placeNew c sp (some e.rec_)).settleRuns) ∧
  (∀ (s : State) (c : Cand) (h off : Nat), c.run.splice = none → blkTruss c.run.blk = false → let b := c.run.blk
    let t := (s.placeNew c [(h, off)] none).settleRuns
    let v := t.hart h
    v.occ = true ∧ v.id.node = c.cmd.id ∧ v.id.lin = c.run.next ∧ v.id.lanes = blkLanes b ∧ v.id.rsize = blkRsize b ∧
    v.id.stepix = (List.range 6).map (fun d => BitVec.ofNat 64 ((blkIndex b c.run.next).getD d 0)) ++
      [BitVec.ofNat 64 c.run.next, 0] ∧
    v.a = { Hart.free.a with pc := BitVec.ofNat 64 (blkAentry b) } ∧
    v.e = { Hart.free.e with pc := BitVec.ofNat 64 (blkEentry b), fpen := v.e.fpen } ∧ v.id.fpen0 = v.e.fpen ∧
    v.m = { Hart.free.m with kt := 4 * blkLanes b } ∧
    v.r = { Hart.free.r with alloc := off, bound := blkScrb b, allocSize := blkScrb b, placedAt := s.cycle } ∧
    tget t.ages c.cmd.rcb = some s.cycle ∧ (t.l1Of (h / 8)).clean = []) ∧
  (∀ s : State, s.cands.Pairwise fun c d => keyLt d.key c.key = false) ∧
  (∀ (s : State) (c : Cand) (sp : List (Nat × Nat)) (p : Nat × Nat), 4 ≤ c.run.needs.lanes → sp ∈ s.spots c → p ∈ sp →
    s.occ p.1 = false ∧ s.bayOn (p.1 / 8) = true ∧ p.2 + c.run.needs.scrb ≤ 2 ^ 23 ∧
      (∀ a ∈ s.allocs (p.1 / 8), p.2 + c.run.needs.scrb ≤ a.1 ∨ a.1 + a.2 ≤ p.2) ∧
      (∀ t id, s.trussResv = some (t, id) → id ≠ c.cmd.id → p.1 / 64 ≠ t) ∧
      ∀ b id, s.bayResv = some (b, id) → id ≠ c.cmd.id → p.1 / 8 ≠ b) ∧
  (∀ s : State, ∃ (t : State), exec .regionAgeing s = .next t ∧ t = { s with ages := t.ages } ∧ ∀ r,
    ((∃ c ∈ s.cands, c.cmd.rcb = r) → tget t.ages r = some ((tget s.ages r).getD s.cycle)) ∧
    ((∀ c ∈ s.cands, c.cmd.rcb ≠ r) → tget t.ages r = none) ∧
    (∀ b, tget t.ages r = some b → t.age r = (s.cycle - b) / 1300) ∧ (tget t.ages r = none → t.age r = 0)) ∧
  (∀ s : State, let u := s.reserve
    let crowd := fun t => ((List.range 64).filter fun i => s.occ (64 * t + i)).length
    let used := fun b => ((List.range 8).filter fun i => s.occ (8 * b + i)).length
    (∀ t id, s.trussResv = some (t, id) → s.stepLeft id = true → u.trussResv = some (t, id)) ∧
    (∀ t id, u.trussResv = some (t, id) → s.trussResv = some (t, id) ∨ t < 64 ∧ s.trussCapable t = true ∧
      (∃ c ∈ s.cands, c.cmd.id = id ∧ c.run.needs.truss = true ∧ s.agedPrio c.cmd.rcb = 15) ∧
      ∀ k, k < 64 → s.trussCapable k = true → crowd t ≤ crowd k) ∧
    (∀ b id, s.bayResv = some (b, id) → s.stepLeft id = true → u.bayResv = some (b, id)) ∧
    ∀ b id, u.bayResv = some (b, id) → s.bayResv = some (b, id) ∨ s.bayOn b = true ∧
      (∃ c ∈ s.cands, c.cmd.id = id ∧ c.run.needs.truss = false ∧ s.agedPrio c.cmd.rcb = 15) ∧
      ∀ k, k < 512 → s.bayOn k = true → used b ≤ used k) ∧
  (∀ s : State, let u := s.reserve
    let ask := fun (h : Nat) (c : Cand) => u.modR h fun r => { r with
      pend := some ⟨if (u.hart h).ctx.asid = (u.ctxOf c.cmd.rcb).asid then 1 else 2, .none, 0, 0⟩, presumed := false }
    (u.resvVictim = none → (∀ c ∈ u.cands, u.victimFor c = none) → exec .preempt s = .next u) ∧
    (∀ (h : Nat) (c : Cand), u.resvVictim = some (h, c) → exec .preempt s = .next (ask h c)) ∧
    ∀ (pre post : List Cand) (c : Cand) (h : Nat), u.resvVictim = none → u.cands = pre ++ c :: post →
      (∀ d ∈ pre, u.victimFor d = none) → u.victimFor c = some h →
      exec .preempt s = .next ((ask h c).modR h fun r => { r with pendFor := some c.cmd.id })) ∧
  ∀ (s : State) (c : Cand) (h : Nat), s.victimFor c = some h → s.spots c = [] ∧
    s.effPrio (s.hart h).ctx.rcb + 2 ≤ s.agedPrio c.cmd.rcb ∧ s.canPreempt h = true ∧ s.helps h c = true ∧
    (∀ g ∈ s.placed, (s.hart g).r.pendFor ≠ some c.cmd.id) ∧
    ∀ g ∈ s.placed, s.effPrio (s.hart g).ctx.rcb + 2 ≤ s.agedPrio c.cmd.rcb → s.canPreempt g = true → s.helps g c = true →
      s.effPrio (s.hart h).ctx.rcb ≤ s.effPrio (s.hart g).ctx.rcb

/-- R42, R44, R45, R152, R246, R377, R387, R390, R391: a step all of whose streams have executed STEPEND, with no transfer under
way, retires, and its harts are free with their stores at their homes; a failed transfer that nothing has reported traps CPERR at the oldest one's STEPEND; the
first body of a spliced step ends so too, and gives way to the consumer's on the same hart, with the FPEN copied at placement, and
EPC, EVAL, ELAUNCH, ETID and EELEM at 0 (log 1). A step past its STEPLIM traps TIMEOUT on its first
hart. Two streams that each wait for the other trap QDEADLOCK on the E-stream. A step under RESET-REPLAY that has faulted
resets its domain. None of them happens while a request stands on the step, or before its condition holds. -/
def Obligations.StepEnds : Prop :=
  (∀ s : State, let h := s.ev.n
    let isOver := s.stepActive h = true ∧ ∀ g ∈ s.stepHarts h, (s.hart g).a.ended = true ∧ (s.hart g).e.ended = true ∧
      ∀ k, (∃ x, (k, x) ∈ (s.hart g).r.slots ∧ x.state = .active) → False
    let inFirst := (s.hart h).id.spliced = true ∧ (s.hart h).r.bodyC = false
    (¬ isOver → exec .stepRetire s = .next s ∧ exec .spliceBoundary s = .next s) ∧
    (inFirst → exec .stepRetire s = .next s) ∧ (¬ inFirst → exec .spliceBoundary s = .next s) ∧
    (isOver → ¬ inFirst → s.oldestFail h = none → ∃ t, exec .stepRetire s = .next t ∧ t = s.endStep h .retired ∧
      ∀ g ∈ s.stepHarts h, t.hart g = Hart.free ∧ (t.l1Of (g / 8)).dirty = []) ∧
    (∀ i g n tid pc, isOver → i = .stepRetire ∧ ¬ inFirst ∨ i = .spliceBoundary ∧ inFirst ∧ (∃ c r sp,
        s.cmd? (s.hart h).id.node = some c ∧ c.run = some r ∧ r.splice = some sp) →
      s.oldestFail h = some (g, n, tid, pc) → exec i s = .next
      ((s.modHart g fun v => { v with
          a := { v.a with ended := false, instret := v.a.instret - 1 }
          r := { v.r with pendFail := tdel v.r.pendFail n } }).trap (.aStream g) ⟨.cperr, 0, pc, tid, 0, 0⟩)) ∧
    (isOver → inFirst → s.oldestFail h = none → ∀ c r sp, s.cmd? (s.hart h).id.node = some c → c.run = some r → r.splice = some sp → ∃ t,
      exec .spliceBoundary s = .next t ∧ let v := s.hart h
      let w := t.hart h
      w.a = { Hart.free.a with pc := BitVec.ofNat 64 (blkAentry r.blk), instret := v.a.instret } ∧
      w.e = { Hart.free.e with pc := BitVec.ofNat 64 (blkEentry r.blk), fpen := v.id.fpen0 } ∧
      w.m = { Hart.free.m with kt := 4 * v.id.lanes } ∧ w.occ = v.occ ∧ w.ctx = v.ctx ∧
      w.r = { v.r with ae := [], ea := [], slots := [], base := blkScrb sp.pblk, bound := blkScrb r.blk, bodyC := true } ∧
      (t.l1Of (h / 8)).dirty = [] ∧ ∀ g, g ≠ h → t.hart g = (s.mxServe (h / 8)).hart g)) ∧
  (∀ s : State, let h := (s.stepHarts s.ev.n).headD s.ev.n
    let v := s.hart h
    let late := v.id.steplim ≠ 0 ∧ v.id.steplim * 1300 < v.r.placedBefore + (s.cycle - v.r.placedAt)
    (¬ (s.stepActive h = true ∧ late) → exec .timeout s = .next s) ∧
    (s.stepActive h = true → late → exec .timeout s =
      .next (s.trap (if v.a.ended = true then .eStream h else .aStream h) ⟨.timeout, 0, 0, 0, 0, 0⟩))) ∧
  (∀ s : State, let h := s.ev.n
    let v := s.hart h
    (s.stepActive h = false → exec .qdeadlock s = .next s) ∧
    (s.stepActive h = true → s.deadlocked h = true → exec .qdeadlock s =
      .next (s.trap (if v.e.ended = true then .aStream h else .eStream h) ⟨.qdeadlock, 0, 0, 0, 0, 0⟩)) ∧
    (s.stepActive h = true → s.deadlocked h = false → s.trussDeadE h = true → exec .qdeadlock s =
      .next (s.trap (.eStream h) ⟨.qdeadlock, 0, 0, 0, 0, 0⟩)) ∧
    (s.stepActive h = true → s.deadlocked h = false → s.trussDeadE h = false → s.trussDeadA h = true → exec .qdeadlock s =
      .next (s.trap (.aStream h) ⟨.qdeadlock, 0, 0, 0, 0, 0⟩)) ∧
    (s.stepActive h = true → s.deadlocked h = false → s.trussDeadE h = false → s.trussDeadA h = false →
      exec .qdeadlock s = .next s) ∧
    (∀ p q, v.a.ended = false → v.e.ended = false → v.a.wait = .queue [p] [] → v.e.wait = .queue [q] [] →
      s.eaOf h p = [] → s.aeOf h q = [] → s.deadlocked h = true) ∧
    ∀ p es, v.e.ended = false → v.e.wait = .queue [p] [] → s.aeOf h p = es → es ≠ [] → s.deadlocked h = false) ∧
  ∀ s : State, let v := s.hart s.ev.n
    ((v.r.pend = none ∨ ∃ r, v.r.pend = some r ∧ (v.occ = false ∨ r.reason ≠ 3)) → exec .domainReset s = .next s) ∧
    ∀ r, v.r.pend = some r → v.occ = true → r.reason = 3 →
      exec .domainReset s = .next (s.domainReset (s.faultDomain v.ctx.rcb))

/-! Parking and notices (R183, R191..R193, R390..R394). -/

/-- R183, R192, R390, R392, R393, R394: a step that is asked to leave waits until its REMQs and SMVs are done; then each hart
takes a free frame slot, the frames are written, and its harts are free with the step parked; what it has in the queues of the copy
engines keeps its place there (log 111). A step that can take no slot
goes on where it is a pre-emption, waits in place for its page with a notice where it is a page fault, and ends FAILED under
PARK-ONLY; one whose frame cannot be written ends FAILED. The main registers go to their backing space at RBASE and come back from
it, which placement leaves at a free value (R100, R121, log 23), and a step's stores are at their homes when it has left. A resumed hart restarts INSTRET at 0 with RESUMED set. Held notices
are written, oldest first, while the ring has room; none is dropped. -/
def Obligations.StepParks : Prop :=
  (∀ s : State, let h := s.ev.n
    let v := s.hart h
    let hs := s.stepHarts h
    ((v.r.pend = none ∨ v.occ = false ∨ ∃ r, v.r.pend = some r ∧ r.reason = 3) → exec .park s = .next s) ∧
    ∀ r, v.r.pend = some r → v.occ = true → r.reason ≠ 3 →
      ((∃ g ∈ hs, (s.hart g).a.remq ≠ none ∨ ∃ p ∈ (s.hart g).r.slots, p.2.state = .active ∧ ∃ td w, p.2.job = .smv td w) →
        exec .park s = .next s) ∧
      ((∀ g ∈ hs, (s.hart g).a.remq = none ∧ ∀ p ∈ (s.hart g).r.slots, p.2.state = .active → ∀ td w, p.2.job ≠ .smv td w) →
        let t := (hs.foldl State.drainHart s).frameSeen h
        let seen := s.frameSeen h
        (t.parkSlots h = none →
          (r.reason ≠ 0 → exec .park s = .next (seen.modR h fun x => { x with pend := none, pendFor := none })) ∧
          (r.reason = 0 → r.cause ≠ .pfault → exec .park s = .next (seen.failStep h r.cause)) ∧
          (r.reason = 0 → r.cause = .pfault → ∃ u, exec .park s = .next u ∧ u.parked = s.parked ∧ u.hart h =
            { v with r := { v.r with pend := none, waitPage := if v.r.presumed = true then none else some r.va.toNat } })) ∧
        ∀ slots, t.parkSlots h = some slots → let fr := (t.stepHarts h).zip slots
          (∀ u, t.writeFrames r fr = (none, u) → ∃ (w : State) (p : Parked), exec .park s = .next w ∧
            w.parked = u.parked ++ [p] ∧ p.stepid = (t.hart h).id.stepid ∧ p.rcb = (t.hart h).ctx.rcb ∧ p.frames = fr ∧
            p.ready = (r.reason != 0 || v.r.presumed) ∧ p.va = r.va.toNat ∧ p.harts = (t.stepHarts h).map u.keepHart ∧
            (∀ e, (tgetD w.copyq e []).length = (tgetD u.copyq e []).length ∧
              ∀ (n : Nat) q, (tgetD u.copyq e [])[n]? = some q → (tgetD w.copyq e [])[n]? = some (match q with
                | .slot g i x => match (t.stepHarts h).idxOf? g with
                  | some k => .parked p.stepid k i x
                  | none => q
                | _ => q)) ∧
            ∀ g ∈ t.stepHarts h, w.hart g = Hart.free ∧ (w.l1Of (g / 8)).dirty = []) ∧
          ∀ c u, t.writeFrames r fr = (some c, u) → exec .park s =
            .next ((fr.foldl (fun x p => x.frameMark (t.hart h).ctx.rcb p.2 false) u).failStep h c))) ∧
  (∀ (s : State) (h : Nat) (slots : List Nat), s.parkSlots h = some slots → slots.length = (s.stepHarts h).length ∧ slots.Nodup ∧
    let a := s.frameArea (s.hart h).ctx.rcb
    ∀ k ∈ slots, k < a.2.1 ∧ ∃ bs, (s.ctlRead (s.ctxOf (s.hart h).ctx.rcb).ptbase (a.1 + k / 8) 1).1 = .ok bs ∧
      (ofBytes bs).testBit (k % 8) = false) ∧
  (∀ (s : State) (v : Hart) (h off slot : Nat) (u : State), s.resumeHart v h off slot = (none, u) →
    (u.hart h).id.resumed = true ∧ (u.hart h).a.instret = 0 ∧ (u.hart h).r.alloc = off ∧ (u.hart h).a.wait = .none ∧
    (u.hart h).id.stepid = v.id.stepid ∧ (u.hart h).r.placedAt = s.cycle) ∧
  (∀ (s : State) (h : Nat), let v := s.hart h
    (v.e.bad ≠ [] → s.flushRegs h = (some .uncorr, s.countUncorr)) ∧
    (v.e.bad = [] → s.flushRegs h = s.writePieces v.ctx.ptbase v.id.rbase ((List.range v.id.rsize).map fun k =>
      (4 * v.id.lanes * k, toBytes (4 * v.id.lanes) (tgetD v.e.main k 0).toNat))) ∧
    ∀ bs s1, s.ctlRead v.ctx.ptbase v.id.rbase (4 * v.id.lanes * v.id.rsize) = (.ok bs, s1) → ∃ m, s.reloadRegs v = (.ok m, s1) ∧
      ∀ k, k < v.id.rsize → tgetD m k 0 = BitVec.ofNat 1024 (ofBytes ((bs.drop (4 * v.id.lanes * k)).take (4 * v.id.lanes)))) ∧
  (∀ s : State, ∃ t w, exec .parkNoticeRetry s = .next t ∧ s.notices = w ++ t.notices ∧
    (t.notices ≠ [] → t.noticeUsed = 511) ∧ (w = [] → t = s)) ∧
  ∀ (s : State) (n : List W64), n.length = 8 → let i := s.nat noticeHead 4
    let t := s.noticeWrite n
    t.nat noticeHead 4 = (i + 1) % 2 ^ 32 ∧ t.preg.ipend.getLsbD 1 = true ∧
    ∀ k j, k < 8 → j < 8 → t.byteOf (ioBase + 0x1040 + 64 * (i % 511) + 8 * k + j) =
      BitVec.ofNat 8 ((n.getD k 0).toNat / 256 ^ j)

/-! Power, boot, the host port, links, the snapshot pin and the debugger (R18..R25, R95, R114, R344, R401..R415). -/

/-- R18, R21, R23, R24, R95, R249, R402, R409..R411: outside 46 V to 58 V the module is in reset and has lost its state but the
flash; 10 ms after the input is back, power-on reset ends; a junction over 115 °C removes power until the input is cycled, which any
value outside the range does (log 95). A package reset leaves the values of State.reset, registers without one at 0 (log 1), the
record, and the memory that is not the package's (log 26). A power sample starts,
lasts or ends a throttled interval, samples not yet taken counting 0 (log 19), and changes no hart. The boot ROM shows each step it
reaches in BOOTSTAT. BOOT ends with a failure's code there (in the order of log 35), or with the body in place and four cores running
at ENTRY; RESTART lets halted cores go on; the mailbox takes bytes, and at 0x1000 raises MGMT; an
access that BAR 0 does not map completes as Unsupported Request, one to its registers being the events above (log 40). -/
def Obligations.PowerAndBoot : Prop :=
  (∀ s : State, ∃ (t : State), s.packageReset = t ∧ t = { State.reset with
      agenda := s.agenda, cur := s.cur, ev := s.ev, rr := s.rr, free := s.free, nextId := s.nextId, record := s.record
      mem := t.mem
      mg := { State.reset.mg with
        inRange := s.mg.inRange, tripRec := s.mg.tripRec, minsvn := s.mg.minsvn, bootCfg := s.mg.bootCfg,
        debugHalt := s.mg.debugHalt } } ∧
    ∀ k, t.byteOf k = if isHost k = true ∨ isRemote k = true then s.byteOf k
      else if k = ioBase + 0xB010 ∧ s.mg.tripRec = true then 1 else 0) ∧
  (∀ s : State, let ok := 46000 ≤ s.ev.n ∧ s.ev.n ≤ 58000
    let u := s.packageReset
    (¬ ok → exec .powerInputChange s = .next { u with
      cycle := s.cycle, mg := { u.mg with power := .reset none, inRange := false } }) ∧
    (ok → s.mg.inRange = true → exec .powerInputChange s = .next s) ∧
    (ok → s.mg.inRange = false → exec .powerInputChange s = .next { s with mg := { s.mg with
      inRange := true
      power := match s.mg.power with
        | .reset _ => .reset (some s.cycle)
        | p => p } }) ∧
    (∀ t, s.mg.power = .reset (some t) → t + 13000000 ≤ s.cycle → exec .powerGoodTimer s = .next u) ∧
    ((∀ t, s.mg.power = .reset (some t) → s.cycle < t + 13000000) → exec .powerGoodTimer s = .next s) ∧
    (115000 < s.ev.n → exec .thermalTrip s = .next { u with
      cycle := s.cycle, mg := { u.mg with power := .tripped, tripRec := true } }) ∧
    (s.ev.n ≤ 115000 → exec .thermalTrip s = .next s) ∧
    exec .bootctl s = .next (if s.mg.power = .on ∧ s.ev.w.getLsbD 0 = true then u else s)) ∧
  (∀ s : State, let l := (s.ev.n :: s.mg.samples).take 10
    let hi := 27000000 < l.foldl (· + ·) 0
    let hot := 100000 < s.ev.n1
    ∃ t, exec .powerSample s = .next t ∧ t.mg.samples = l ∧ (t.mg.throttled = true ↔ hi ∨ hot) ∧ t.harts = s.harts ∧
      t.plates = s.plates ∧
      (s.mg.throttled = false → (hi ∨ hot) → t.preg.ipend.getLsbD 2 = true ∧ t.nat (ioBase + 0xB020) 8 = s.timeNs % 2 ^ 64 ∧
        t.nat (ioBase + 0xB018) 8 = (if hi then 1 else 0) + (if hot then 2 else 0) ∧ t.nat (ioBase + 0xB028) 8 = 0 ∧
        t.nat (ioBase + 0x90) 8 = (s.nat (ioBase + 0x90) 8 + 1) % 2 ^ 64) ∧
      (s.mg.throttled = true → ¬ (hi ∨ hot) → t.nat (ioBase + 0xB028) 8 = s.timeNs % 2 ^ 64) ∧
      (s.mg.throttled = false → ¬ (hi ∨ hot) → t.mem = s.mem)) ∧
  (∀ s : State, let hd := s.ev.bs
    let body := s.ev.bs1
    let ready := s.mg.power = .on ∧ s.mg.bootstat.toNat % 256 = 0
    let stage := s.mg.bootstat.toNat / 256 % 256
    let fail := fun (w : W64) => ({ s with mg := { s.mg with bootstat := w, datagrams := w :: s.mg.datagrams } } : State)
    (¬ ready → exec .boot s = .next s) ∧
    (∀ st code, ready → bootFail s.record s.mg.minsvn stage s.ev.n hd body = some (st, code) →
      exec .boot s = .next (fail (BitVec.ofNat 64 (st * 256 + code)))) ∧
    (ready → bootFail s.record s.mg.minsvn stage s.ev.n hd body = none → ∃ (t : State), exec .boot s = .next t ∧
      t = { s with
        mem := t.mem, bad := t.bad, plates := t.plates
        mg := { s.mg with bootstat := 0x501, bodyHash := (hd.drop 0x40).take 48 } } ∧
      (∀ p, p < 4 → t.plate p = { Plate.zero with run := .running, pc := BitVec.ofNat 64 (hdrEntry hd) }) ∧
      ∀ k, t.byteOf k = if hdrLoad hd ≤ k ∧ k < hdrLoad hd + body.length then body.getD (k - hdrLoad hd) 0 else s.byteOf k) ∧
    ∀ ok, let at_ := fun (w : W64) => ({ s with mg := { s.mg with bootstat := w } } : State)
      (¬ ready → s.bootStep ok = s) ∧ (ready → s.bootStep ok = match stage with
        | 0 => at_ 0x100
        | 1 => if s.record.accepted = true then at_ 0x200 else fail 0x202
        | 2 => if ok = true then at_ 0x300 else fail 0x303
        | 3 => if ok = true then at_ 0x400 else fail 0x404
        | _ => s)) ∧
  (∀ (r : Record) (svn stage net : Nat) (hd body : List Byte), bootFail r svn stage net hd body = none →
    (stage < 2 → r.accepted = true) ∧ (stage < 3 → net ≠ 3) ∧ (stage < 4 → net ≠ 4) ∧
    hdrOk hd = true ∧ signatureOk (hd.take 0x100) (hd.drop 0x100) = true ∧ svn ≤ hdrNat hd 8 4 ∧
    body.length = hdrLength hd ∧ sha384 body = (hd.drop 0x40).take 48) ∧
  (∀ s : State, ∃ (t : State), exec .restart s = .next t ∧ t = { s with plates := t.plates } ∧ ∀ p, t.plate p =
    if p < 4 ∧ s.ev.w.getLsbD p = true ∧ (s.plate p).run = .halted then { s.plate p with run := .running } else s.plate p) ∧
  ∀ s : State, let o := s.ev.n
    let bs := s.ev.bs
    let inside := 0x1000 ≤ o ∧ o + bs.length ≤ 0x10000
    (¬ inside → o + bs.length ≤ 0x18 → exec .mailbox s = .next s) ∧
    (¬ inside → 0x18 < o + bs.length → exec .mailbox s = .next { s with mg := { s.mg with completion := none } }) ∧
    (∀ n, 1 ≤ n → o + n ≤ 8 → (s.pfRead o n).mg.completion = some (((toBytes 8 s.mg.bootstat.toNat).drop o).take n)) ∧
    (∀ n, 1 ≤ n → 0x1000 ≤ o → o + n ≤ 0x10000 → ∃ l, (s.pfRead o n).mg.completion = some l ∧ l.length = n ∧
      ∀ j, j < n → l.getD j 0 = memGet s.mg.mailbox (o - 0x1000 + j)) ∧
    (∀ n, 1 ≤ n → 0x18 ≤ o → o + n ≤ 0x1000 → s.pfRead o n = { s with mg := { s.mg with completion := none } }) ∧
    (0x1000 ≤ o → o + bs.length ≤ 0x10000 → ∃ (t : State), exec .mailbox s = .next t ∧
      t = { s with
        mg := { s.mg with mailbox := t.mg.mailbox, completion := some [] }
        preg := { s.preg with ipend := if o = 0x1000 then s.preg.ipend ||| 0x40 else s.preg.ipend } } ∧
      ∀ k, memGet t.mg.mailbox k = if o ≤ k + 0x1000 ∧ k + 0x1000 < o + bs.length then bs.getD (k + 0x1000 - o) 0
        else memGet s.mg.mailbox k)

/-- R114, R122, R344, R401..R408, R413, R415: a host access through BAR 2 of the PF reaches HBM of present stacks, and through a
VF's open aperture pages of its context with the permission, not PLATE, LOCAL; any other completes as Unsupported Request and
performs nothing, as does, without data, a read of an uncorrectable word (log 36) or a walk that meets one, which counts. An FLR sets its VF's bit and raises MGMT; firmware's 1 clears the bit; after 100 ms it completes by time. A
pod forms once, and its entry of the scope table is rewritten (R29, log 96), which firmware builds after a boot and before any context
runs, and maps read-only into a context. A link's errors are counted, and the 64th replay in a row
of one flit takes it down; it trains and comes up with its neighbour's numbers; when it goes down LINK is raised, and where it was up, other packages that
no link reaches any more (log 37) lose what is on its way there: transfers fail UNCORR, records are lost with IPEND.UNCORR, as later
writes are, and reads end UNCORR, until firmware has another path or takes the package out of the pod. A snapshot is latched when armed, and counted as missed when not.
The harts of a bay that the debugger halts issue nothing. -/
def Obligations.OutsideEvents : Prop :=
  (∀ s : State, let x := s.ev
    let size := if x.n1 = 1 then x.bs.length else x.n2
    let ok := 1 ≤ size ∧ size ≤ 4096 ∧ x.n1 ≤ 4 ∧ isHbm s x.n = true ∧ isHbm s (x.n + size - 1) = true
    let done := fun (u : State) (c : Option (List Byte)) => ({ u with mg := { u.mg with completion := c } } : State)
    (¬ ok → exec .pfBar2Access s = .next (done s none)) ∧
    (ok → x.n1 = 0 → readBad s x.n size = false → exec .pfBar2Access s = .next (done s (some (s.bytes x.n size)))) ∧
    (ok → x.n1 = 1 → writeBad s x.n size = false → ∃ u, s.SameButStores u ∧ exec .pfBar2Access s = .next (done u (some [])) ∧
      ∀ k, u.byteOf k = if x.n ≤ k ∧ k < x.n + size then x.bs.getD (k - x.n) 0 else s.byteOf k) ∧
    (ok → 2 ≤ x.n1 → (size = 4 ∨ size = 8) → x.n % size = 0 → readBad s x.n size = false → ∃ u, s.SameButStores u ∧
      exec .pfBar2Access s = .next (done u (some (s.bytes x.n size))) ∧
      (∀ k, k < x.n ∨ x.n + size ≤ k → u.byteOf k = s.byteOf k) ∧ let old := s.nat x.n size
      u.nat x.n size = if x.n1 = 2 then (old + x.w.toNat) % 256 ^ size else if x.n1 = 3 then x.w.toNat % 256 ^ size
        else if old = x.w.toNat % 256 ^ size then x.w1.toNat % 256 ^ size else old)) ∧
  (∀ s : State, let x := s.ev
    let size := if x.n3 = 1 then x.bs.length else x.n2
    let fit := 1 ≤ size ∧ size ≤ 4096 ∧ x.n3 ≤ 4 ∧ x.n1 + size ≤ 2 ^ 36
    let acc : Acc := if x.n3 = 0 then .read else if x.n3 = 1 then .write else .atomic
    let refuse := fun (u : State) => ({ u with mg := { u.mg with completion := none } } : State)
    ((s.aperture x.n = none ∨ ¬ fit) → exec .apertureAccess s = .next (refuse s)) ∧
    (∀ pt pre p post, s.aperture x.n = some pt → fit → pagesOf x.n1 size = pre ++ p :: post →
      (∀ q ∈ pre, s.apertureOk pt acc q.1 = true) → s.apertureOk pt acc p.1 = false →
      (s.walk pt p.1 = .uncorr → exec .apertureAccess s = .next (refuse s.countUncorr)) ∧
      (s.walk pt p.1 ≠ .uncorr → exec .apertureAccess s = .next (refuse s))) ∧
    ∀ pt, s.aperture x.n = some pt → fit → (∀ p ∈ pagesOf x.n1 size, s.apertureOk pt acc p.1 = true) → ∀ l s1,
      s.xlatPieces pt false acc (pagesOf x.n1 size) = (.ok l, s1) →
      exec .apertureAccess s = .next (s1.hostAccess l x.n3 x)) ∧
  (∀ (s : State) (v pt : Nat), s.aperture v = some pt → (s.nat (ioBase + 0xA000 + 8 * v) 8).testBit 12 = true ∧
    s.inFlr v = false ∧ ∃ r, (s.ctxOf r).asid = s.nat (ioBase + 0xA000 + 8 * v) 8 % 4096 ∧ (s.ctxOf r).vf = v ∧
      (s.ctxOf r).ptbase = pt) ∧
  (∀ (s : State) (pt va : Nat) (k : Acc), s.apertureOk pt k va = true ↔ ∃ pte a l size, s.walk pt va = .leaf pte a l size ∧
    permOk pte false k = true ∧ pte.testBit 5 = false ∧ pte / 2 ^ 7 % 4 = 0) ∧
  (∀ (s : State) (l : List (Nat × Nat)) (x : EvArg), let done := fun (u : State) (c : Option (List Byte)) =>
      ({ u with mg := { u.mg with completion := c } } : State)
    ((∀ p ∈ l, readBad s p.1 p.2 = false) → s.hostAccess l 0 x = done s (some (l.flatMap fun p => s.bytes p.1 p.2))) ∧
    ((∃ p ∈ l, readBad s p.1 p.2 = true) → s.hostAccess l 0 x = done s.countUncorr none) ∧
    s.hostAccess [] 1 x = done s (some []) ∧
    (∀ k n, s.hostAccess ((k, n) :: l) 1 x = (s.storeAt k (x.bs.take n)).2.hostAccess l 1 { x with bs := x.bs.drop n }) ∧
    ∀ k n kind, (n = 4 ∨ n = 8) → k % n = 0 → 2 ≤ kind → kind ≤ 4 → isIo k = false → s.cutKey k = false → readBad s k n = false →
      writeBad s k n = false → ∃ u, s.SameButStores u ∧ s.hostAccess [(k, n)] kind x = done u (some (s.bytes k n)) ∧
        (∀ j, j < k ∨ k + n ≤ j → u.byteOf j = s.byteOf j) ∧ let old := s.nat k n
        u.nat k n = if kind = 2 then (old + x.w.toNat) % 256 ^ n else if kind = 3 then x.w.toNat % 256 ^ n
          else if old = x.w.toNat % 256 ^ n then x.w1.toNat % 256 ^ n else old) ∧
  (∀ s : State, let v := s.ev.n
    let adr := ioBase + 0xA800 + v / 8
    let bit : Byte := BitVec.ofNat 8 (2 ^ (v % 8))
    (256 ≤ v → exec .functionLevelReset s = .next s.packageReset) ∧
    (v < 256 → ∃ t, exec .functionLevelReset s = .next t ∧ tget t.mg.flr v = some s.cycle ∧ t.preg.ipend.getLsbD 6 = true ∧
      v ∉ t.mg.flrDone ∧ ∀ k, t.byteOf k = if k = adr then s.byteOf k ||| bit else s.byteOf k) ∧
    (v < 256 → ∃ t, exec .flrClear s = .next t ∧ tget t.mg.flr v = none ∧ v ∉ t.mg.flrDone ∧
      ∀ k, t.byteOf k = if k = adr then s.byteOf k &&& ~~~bit else s.byteOf k) ∧
    (∀ b, tget s.mg.flr v = some b → b + 130000000 ≤ s.cycle → ∃ t, exec .flrTimeout s = .next t ∧ t.mem = s.mem ∧
      tget t.mg.flr v = none ∧ v ∈ t.mg.flrDone) ∧
    ((∀ b, tget s.mg.flr v = some b → s.cycle < b + 130000000) → exec .flrTimeout s = .next s) ∧
    exec .spdmRequest s = .next { s with mg := { s.mg with doe := some (if (v = 12 ∨ v = 13) ∧ s.ev.n1 < 7 then
      .answer (Config.spdmAnswer v s.ev.n1 s.ev.n2 (s.measured s.ev.n2)) else .unsupported) } } ∧
    s.measured 2 = s.record.bytes ++ s.record.sig ∧ s.measured 3 = s.mg.bodyHash ∧ s.measured 4 = s.mg.bootCfg ∧
    s.measured 5 = [s.feat]) ∧
  (∀ s : State, let k := s.ev.n
    let present := k < 16 ∧ s.record.links.getLsbD k = true
    (s.formed = true → exec .podFormed s = .next s) ∧
    (s.formed = false → ∃ u : State, exec .podFormed s = .next (u.sdtPod s.ev.n1) ∧ u.formed = true ∧ u.pkgNum = k % 64 ∧
      u.harts = s.harts ∧ u.preg = s.preg ∧ u.mg.pod = s.ev.w ||| BitVec.ofNat 64 (2 ^ (k % 64))) ∧
    (∀ hops, 1 ≤ hops → (s.preg.sdtbase = 0 → s.sdtPod hops = s) ∧ (s.preg.sdtbase ≠ 0 → ∃ bs,
      s.sdtPod hops = s.sdtPut (s.preg.sdtbase.toNat + 224) bs ∧ bs.length = 32 ∧
      let num := fun (i n : Nat) => ofBytes ((bs.drop i).take n)
      let cost := (s.record.cost.getD 7 0).toNat
      num 0 4 = ((List.range 64).filter fun p => s.mg.pod.getLsbD p || p == s.pkgNum).length ∧ num 4 4 = 0 ∧
      num 8 4 = hops * (cost % 2 ^ 16) % 2 ^ 32 ∧ num 12 4 = hops * (cost / 2 ^ 16 % 2 ^ 16) % 2 ^ 32 ∧
      num 16 4 = hops * (cost / 2 ^ 32 % 2 ^ 16) % 2 ^ 32 ∧ num 20 4 = hops * (s.record.rqlat.getD 7 0).toNat % 2 ^ 32 ∧
      num 24 8 = hops * (10 * (cost / 2 ^ 48 % 2 ^ 16)) % 2 ^ 64)) ∧
    (∀ base, let good := base % 256 = 0 ∧ base < 2 ^ 47 ∧ s.mg.bootstat = 0x501 ∧ s.placed = [] ∧ s.parked = [] ∧ s.cmds = []
      (¬ good → s.sdtBuild base = s) ∧
      (good → ∀ r s1, s.xlatPlate 0 .write base = (r, s1) →
        (∀ c, r = .error c → s.sdtBuild base = s1) ∧
        ∀ p, r = .ok p → isIo p.key = false → s1.Storable p.key 256 → ∃ u, s1.SameButStores u ∧
          s.sdtBuild base = { u with preg := { u.preg with sdtbase := BitVec.ofNat 48 base } } ∧
          ∀ j, u.byteOf j = if p.key ≤ j ∧ j < p.key + 256 then s.sdtBytes.getD (j - p.key) 0 else s1.byteOf j)) ∧
    (∀ rcb p s1 a, s.preg.sdtbase ≠ 0 → isHbm s rcb = true → rcb % 64 = 0 → s.rcbLevel rcb = 2 →
      s.xlatPlate 0 .read s.preg.sdtbase.toNat = (.ok p, s1) → isHbm s1 p.key = true →
      s1.slotFrom s.preg.sdtbase.toNat 4 (s1.ctxOf rcb).ptbase = some a → ∃ u, u = { s1 with mem := u.mem, bad := u.bad } ∧
        s.sdtMap rcb = u ∧ u.nat a 8 = p.key / 4096 * 4096 + 7 ∧ ∀ j, (j < a ∨ a + 8 ≤ j) → u.byteOf j = s1.byteOf j) ∧
    (¬ present → exec .linkReplay s = .next s ∧ exec .linkUp s = .next s) ∧
    (present → (∃ u : State, u = { s with mem := u.mem, bad := u.bad, mg := { s.mg with replays := u.mg.replays, inRow := u.mg.inRow } } ∧
      u.nat (ioBase + 0x100 + 8 * k) 8 = (s.nat (ioBase + 0x100 + 8 * k) 8 + 1) % 2 ^ 64 ∧
      (∀ j, j < ioBase + 0x100 + 8 * k ∨ ioBase + 0x108 + 8 * k ≤ j → u.byteOf j = s.byteOf j) ∧
      let row := if s.ev.n1 = 1 then tgetD s.mg.inRow k 0 + 1 else 1
      tgetD u.mg.inRow k 0 = row ∧ tgetD u.mg.replays k 0 = tgetD s.mg.replays k 0 + 1 ∧
      exec .linkReplay s = .next (if 64 ≤ row ∧ (s.linkState k = 1 ∨ s.linkState k = 2) then u.linkDown k s.ev.w else u)) ∧
      ((s.linkState k = 0 ∨ s.linkState k = 3) → ∃ t, s.linkTrain k = t ∧ t.linkState k = 1 ∧
        ∀ j, j ≠ linkAddr k → t.byteOf j = s.byteOf j) ∧
      ∃ t, exec .linkUp s = .next t ∧ t.linkState k = 2 ∧ t.linkPkg k = s.ev.n1 % 64 ∧ t.nat (linkAddr k + 2) 1 = s.ev.n2 % 64) ∧
    (¬ (k < 16 ∧ (s.linkState k = 1 ∨ s.linkState k = 2)) → exec .linkDown s = .next s) ∧
    (k < 16 → (s.linkState k = 1 ∨ s.linkState k = 2) → exec .linkDown s = .next (s.linkDown k s.ev.w)) ∧
    (k < 16 → ∃ (u t : State), s.linkDown k s.ev.w = t ∧
      u = { s with mem := u.mem, bad := u.bad, preg := { s.preg with ipend := s.preg.ipend ||| 8 } } ∧ u.linkState k = 3 ∧
      (∀ j, j ≠ linkAddr k → u.byteOf j = s.byteOf j) ∧
      ((s.linkState k ≠ 2 ∨ ∃ j, j < 16 ∧ u.linkState j = 2 ∧ u.linkPkg j = s.linkPkg k) → t = u) ∧
      (s.linkState k = 2 → (∀ j, j < 16 → u.linkState j = 2 → u.linkPkg j ≠ s.linkPkg k) → t =
        ((List.range 64).filter fun p => p != s.pkgNum && (p == s.linkPkg k || s.ev.w.getLsbD p)).foldl State.unreachable u))) ∧
  (∀ (s : State) (p : Nat), p < 64 → let t := s.unreachable p
    let there := fun k => isRemote k && (k - 2 ^ 58) / 2 ^ 52 == p
    let gone := fun (q : RqRec) => hdlPkg q.handle == p && match q.kind with
      | .enqueue _ => true
      | .steal _ _ => false
    t.mg.cut = s.mg.cut ||| BitVec.ofNat 64 (2 ^ p) ∧ t.rq = s.rq.filter (fun q => !gone q) ∧
    ((∃ q ∈ s.rq, gone q = true) → t.preg.ipend.getLsbD 5 = true) ∧
    (∀ h k, s.occ h = true → (s.slot h k).state = .active → (∃ f ∈ (s.slot h k).flight, ∃ c ∈ f.writes, there c.1 = true) →
      ((t.slot h k).state = .failed ∨ (t.slot h k).state = .free) ∧ (t.slot h k).status = 4) ∧
    (∀ k, t.cutKey k = true ↔ s.cutKey k = true ∨ there k = true) ∧
    (∀ k n, s.cutKey k = true → s.loadAt k n = (.error .uncorr, s)) ∧
    (∀ k bs, s.cutKey k = true → s.storeMem k bs = { s with preg := { s.preg with ipend := s.preg.ipend ||| 0x20 } }) ∧
    s.reroute p = { s with mg := { s.mg with cut := s.mg.cut &&& ~~~(BitVec.ofNat 64 (2 ^ p)) } } ∧
    s.podLeave p = { s with mg := { s.mg with pod := s.mg.pod &&& ~~~(BitVec.ofNat 64 (2 ^ p)) } }) ∧
  (∀ s : State, (s.preg.pinen = false → exec .snapPin s = .next s) ∧
    (s.preg.pinen = true → s.preg.armed = false → exec .snapPin s = .next { s with preg := { s.preg with
      missed := if s.preg.missed = 255 then 255 else s.preg.missed + 1 } }) ∧
    (s.preg.pinen = true → s.preg.armed = true → ∃ t, exec .snapPin s = .next t ∧ t.preg.armed = false ∧ t.preg.captured = true ∧
      t.preg.ipend.getLsbD 4 = true ∧ t.mem = s.mem ∧ ∃ n, t.snap = some n ∧ n.cycle = BitVec.ofNat 64 s.cycle)) ∧
  (∀ s : State, ∃ (t : State), exec .debuggerHalt s = .next t ∧ t = { s with mg := { s.mg with debugHalt := t.mg.debugHalt } } ∧
    ∀ b, b ∈ t.mg.debugHalt ↔ if b = s.ev.n then s.ev.n1 = 1 else b ∈ s.mg.debugHalt) ∧
  ∀ (s : State) (h : Nat), h / 8 ∈ s.mg.debugHalt → s.canIssue (.aStream h) = false ∧ s.canIssue (.eStream h) = false
end

