-- ==== Sys2Proof/Laws/Bits.lean ====
section
/-! SUPPORT. Bit fields and elements bit by bit: reading a field, replacing one, and a field after a replacement. -/

namespace Sys2Proof.Machine

theorem testBit_fld (v lo len i : Nat) : (fld v lo len).testBit i = (decide (i < len) && v.testBit (lo + i)) := by
  rw [fld, Nat.testBit_mod_two_pow, Nat.testBit_div_two_pow, Nat.add_comm]

theorem testBit_setFld (v lo len x i : Nat) :
    (setFld v lo len x).testBit i = if lo ≤ i ∧ i < lo + len then x.testBit (i - lo) else v.testBit i := by
  have e : setFld v lo len x = 2 ^ lo * (2 ^ len * (v / 2 ^ (lo + len)) + x % 2 ^ len) + v % 2 ^ lo := by
    rw [setFld, Nat.pow_add]
    ring
  rw [e, Nat.testBit_two_pow_mul_add _ (Nat.mod_lt _ (by positivity)),
    Nat.testBit_two_pow_mul_add _ (Nat.mod_lt _ (by positivity)), Nat.testBit_mod_two_pow, Nat.testBit_mod_two_pow,
    Nat.testBit_div_two_pow]
  by_cases h1 : i < lo
  · rw [if_pos h1, if_neg (by omega)]
    simp [h1]
  · rw [if_neg h1]
    by_cases h2 : i - lo < len
    · rw [if_pos h2, if_pos (by omega)]
      simp [h2]
    · rw [if_neg h2, if_neg (by omega)]
      congr 1
      omega

theorem fld_lt (v lo len : Nat) : fld v lo len < 2 ^ len := Nat.mod_lt _ (by positivity)

/-- A field that does not meet the replaced one keeps its value. -/
theorem fld_setFld_ne (v lo len x lo' len' : Nat) (h : lo' + len' ≤ lo ∨ lo + len ≤ lo') :
    fld (setFld v lo len x) lo' len' = fld v lo' len' := by
  apply Nat.eq_of_testBit_eq
  intro i
  simp only [testBit_fld, testBit_setFld]
  by_cases hi : i < len'
  · rw [if_neg (by omega)]
  · simp [hi]

/-- The replaced field reads as what was put there. -/
theorem fld_setFld_self (v lo len x : Nat) : fld (setFld v lo len x) lo len = x % 2 ^ len := by
  apply Nat.eq_of_testBit_eq
  intro i
  simp only [testBit_fld, testBit_setFld, Nat.testBit_mod_two_pow]
  by_cases hi : i < len
  · rw [if_pos (by omega)]
    simp
  · simp [hi]

theorem elemOf_setElem (w v k x j : Nat) : elemOf w (setElem w v k x) j = if j = k then x % 2 ^ w else elemOf w v j := by
  unfold elemOf setElem
  split
  · subst_vars
    exact fld_setFld_self ..
  · refine fld_setFld_ne _ _ _ _ _ _ ?_
    have : j < k ∨ k < j := by omega
    obtain h | h := this
    · left
      calc w * j + w = w * (j + 1) := by ring
        _ ≤ w * k := Nat.mul_le_mul_left _ h
    · right
      calc w * k + w = w * (k + 1) := by ring
        _ ≤ w * j := Nat.mul_le_mul_left _ h

theorem elemOf_mod (w v k n : Nat) (h : w * (k + 1) ≤ n) : elemOf w (v % 2 ^ n) k = elemOf w v k := by
  apply Nat.eq_of_testBit_eq
  intro i
  simp only [elemOf, testBit_fld, Nat.testBit_mod_two_pow]
  by_cases hi : i < w
  · have : w * k + i < n := by
      have : w * k + w ≤ n := by rw [← Nat.mul_succ]; exact h
      omega
    simp [this]
  · simp [hi]

end Sys2Proof.Machine
end

