-- ==== Sys2Proof/Laws/Tab.lean ====
section
/-! SUPPORT. The laws of sparse tables and of memory: reading after writing, writing twice, and the canonical form of
memory that every operation of Mem.lean keeps. -/

namespace Sys2Proof.Machine

variable {α : Type}

theorem tget_nil (a : Nat) : tget ([] : Tab α) a = none := rfl

theorem tget_tins_self (t : Tab α) (a : Nat) (x : α) (h : tget t a = none) : tget (tins t a x) a = some x := by
  induction t with
  | nil => simp [tins, tget]
  | cons p t ih =>
    obtain ⟨k, v⟩ := p
    simp only [tget] at h
    split at h <;> simp_all [tins]
    split <;> simp_all [tget]

theorem tget_tins_ne (t : Tab α) (a b : Nat) (x : α) (h : b ≠ a) : tget (tins t a x) b = tget t b := by
  induction t with
  | nil => simp [tins, tget, h]
  | cons p t ih =>
    obtain ⟨k, v⟩ := p
    simp only [tins]
    split <;> simp [tget, h, ih]

theorem tget_tdel_self (t : Tab α) (a : Nat) : tget (tdel t a) a = none := by
  induction t with
  | nil => rfl
  | cons p t ih =>
    obtain ⟨k, v⟩ := p
    simp only [tdel, List.filter_cons]
    split
    · simp only [tget]
      split <;> simp_all [tdel]
    · exact ih

theorem tget_tdel_ne (t : Tab α) (a b : Nat) (h : b ≠ a) : tget (tdel t a) b = tget t b := by
  induction t with
  | nil => rfl
  | cons p t ih =>
    obtain ⟨k, v⟩ := p
    simp only [tdel, List.filter_cons]
    split
    · simp only [tget]
      split <;> simp_all [tdel]
    · simp only [tget]
      split <;> simp_all [tdel]

/-- Reading the key just written. -/
@[simp] theorem tget_tput_self (t : Tab α) (a : Nat) (x : α) : tget (tput t a x) a = some x :=
  tget_tins_self _ _ _ (tget_tdel_self t a)

/-- A write leaves every other key alone. -/
theorem tget_tput_ne (t : Tab α) (a b : Nat) (x : α) (h : b ≠ a) : tget (tput t a x) b = tget t b := by
  rw [tput, tget_tins_ne _ _ _ _ h, tget_tdel_ne _ _ _ h]

@[simp] theorem tgetD_tput_self (t : Tab α) (a : Nat) (x d : α) : tgetD (tput t a x) a d = x := by
  simp [tgetD]

theorem tgetD_tput_ne (t : Tab α) (a b : Nat) (x d : α) (h : b ≠ a) : tgetD (tput t a x) b d = tgetD t b d := by
  simp [tgetD, tget_tput_ne _ _ _ _ h]

theorem tgetD_tput (t : Tab α) (a b : Nat) (x d : α) : tgetD (tput t a x) b d = if b = a then x else tgetD t b d := by
  split
  · subst_vars; simp
  · exact tgetD_tput_ne _ _ _ _ _ ‹_›

theorem tdel_of_none (t : Tab α) (a : Nat) (h : tget t a = none) : tdel t a = t := by
  induction t with
  | nil => rfl
  | cons p t ih =>
    obtain ⟨k, v⟩ := p
    simp only [tget] at h
    split at h
    · cases h
    · simp only [tdel, List.filter_cons] at ih ⊢
      rw [if_pos (by simpa using Ne.symm ‹_›), ih h]

theorem tdel_tins (t : Tab α) (a : Nat) (x : α) (h : tget t a = none) : tdel (tins t a x) a = t := by
  induction t with
  | nil => simp [tins, tdel]
  | cons p t ih =>
    obtain ⟨k, v⟩ := p
    have h' := h
    simp only [tget] at h
    split at h
    · cases h
    · simp only [tins]
      split
      · have := tdel_of_none ((k, v) :: t) a h'
        simp only [tdel, List.filter_cons] at this ⊢
        simp_all
      · have := ih h
        simp only [tdel, List.filter_cons] at this ⊢
        rw [if_pos (by simpa using Ne.symm ‹¬a = k›), this]

/-- The second of two writes to a key is what stands. -/
@[simp] theorem tput_tput (t : Tab α) (a : Nat) (x y : α) : tput (tput t a x) a y = tput t a y := by
  simp only [tput]
  rw [tdel_tins _ _ _ (tget_tdel_self t a)]

/-! Memory. -/

theorem memGet_memPut_self (m : List Host.Cell) (k : Nat) (b : Byte) : memGet (memPut m k b) k = b := by
  unfold memGet memPut
  split
  · simp [tget_tdel_self, *]
  · simp

theorem memGet_memPut_ne (m : List Host.Cell) (k j : Nat) (b : Byte) (h : j ≠ k) :
    memGet (memPut m k b) j = memGet m j := by
  unfold memGet memPut
  split
  · rw [tget_tdel_ne _ _ _ h]
  · rw [tget_tput_ne _ _ _ _ h]

/-- Reading a byte outside the bytes written gives what it gave before. -/
theorem memGet_memWrite_out (bs : List Byte) (m : List Host.Cell) (k j : Nat) (h : j < k ∨ k + bs.length ≤ j) :
    memGet (memWrite m k bs) j = memGet m j := by
  induction bs generalizing m k with
  | nil => rfl
  | cons b bs ih =>
    simp only [List.length_cons] at h
    rw [memWrite, ih _ _ (by omega), memGet_memPut_ne _ _ _ _ (by omega)]

/-- Reading byte i of the bytes written gives that byte. -/
theorem memGet_memWrite_in (bs : List Byte) (m : List Host.Cell) (k i : Nat) (h : i < bs.length) :
    memGet (memWrite m k bs) (k + i) = bs[i] := by
  induction bs generalizing m k i with
  | nil => simp at h
  | cons b bs ih =>
    cases i with
    | zero => rw [memWrite, memGet_memWrite_out _ _ _ _ (by omega)]; exact memGet_memPut_self _ _ _
    | succ i =>
      simp only [List.length_cons] at h
      have := ih (memPut m k b) (k + 1) i (by omega)
      rw [memWrite, show k + (i + 1) = k + 1 + i by omega, this]
      rfl

/-- Reading the bytes just written. -/
theorem memRead_memWrite (bs : List Byte) (m : List Host.Cell) (k : Nat) : memRead (memWrite m k bs) k bs.length = bs := by
  suffices h : ∀ (n j : Nat) (l : List Byte), l.length = n → (∀ i, (hi : i < n) → memGet (memWrite m k bs) (j + i) = l.getD i 0) →
      memRead (memWrite m k bs) j n = l by
    apply h bs.length k bs rfl
    intro i hi
    rw [memGet_memWrite_in _ _ _ _ hi]
    simp [hi]
  intro n
  induction n with
  | zero => intro j l hl _; simp [memRead, List.eq_nil_of_length_eq_zero hl]
  | succ n ih =>
    intro j l hl hg
    cases l with
    | nil => simp at hl
    | cons x l =>
      have h0 := hg 0 (by omega)
      simp only [Nat.add_zero, List.getD_cons_zero] at h0
      rw [memRead, h0, ih (j + 1) l (by simpa using hl)]
      intro i hi
      have := hg (i + 1) (by omega)
      rwa [show j + (i + 1) = j + 1 + i by omega, List.getD_cons_succ] at this

theorem memWf_cons (k : Nat) (v : Byte) (t : List Host.Cell) :
    memWf ((k, v) :: t) = true ↔ v ≠ memDefault ∧ (∀ p ∈ t, k < p.1) ∧ memWf t = true := by
  simp [memWf, and_assoc]

/-- A part of memory in the canonical form has it. -/
theorem memWf_filter (m : List Host.Cell) (f : Host.Cell → Bool) (h : memWf m = true) : memWf (m.filter f) = true := by
  induction m with
  | nil => simpa using h
  | cons p t ih =>
    obtain ⟨k, v⟩ := p
    rw [memWf_cons] at h
    rw [List.filter_cons]
    split
    · rw [memWf_cons]
      exact ⟨h.1, fun p hp => h.2.1 p (List.mem_of_mem_filter hp), ih h.2.2⟩
    · exact ih h.2.2

theorem memWf_tdel (m : List Host.Cell) (k : Nat) (h : memWf m = true) : memWf (tdel m k) = true := memWf_filter m _ h

theorem mem_tins (m : List Host.Cell) (k : Nat) (b : Byte) (p : Host.Cell) (h : p ∈ tins m k b) : p = (k, b) ∨ p ∈ m := by
  induction m with
  | nil => simpa [tins] using h
  | cons q t ih =>
    obtain ⟨j, v⟩ := q
    simp only [tins] at h
    split at h
    · simpa using h
    · rcases List.mem_cons.1 h with h | h
      · exact .inr (by simp [h])
      · rcases ih h with h | h
        · exact .inl h
        · exact .inr (by simp [h])

theorem memWf_tins (m : List Host.Cell) (k : Nat) (b : Byte) (hb : b ≠ memDefault) (h : memWf m = true)
    (hk : tget m k = none) : memWf (tins m k b) = true := by
  induction m with
  | nil => simp [tins, memWf, hb]
  | cons q t ih =>
    obtain ⟨j, v⟩ := q
    rw [memWf_cons] at h
    simp only [tget] at hk
    split at hk
    · cases hk
    · simp only [tins]
      split
      · rw [memWf_cons, memWf_cons]
        refine ⟨hb, fun p hp => ?_, h⟩
        rcases List.mem_cons.1 hp with hp | hp
        · simp [*]
        · have := h.2.1 p hp; omega
      · rw [memWf_cons]
        refine ⟨h.1, fun p hp => ?_, ih h.2.2 hk⟩
        rcases mem_tins _ _ _ _ hp with hp | hp
        · simp only [hp]; omega
        · exact h.2.1 p hp

/-- A byte written keeps the canonical form. -/
theorem memWf_memPut (m : List Host.Cell) (k : Nat) (b : Byte) (h : memWf m = true) : memWf (memPut m k b) = true := by
  unfold memPut
  split
  · exact memWf_tdel _ _ h
  · exact memWf_tins _ _ _ ‹_› (memWf_tdel _ _ h) (tget_tdel_self m k)

/-- Bytes written keep the canonical form. -/
theorem memWf_memWrite (bs : List Byte) (m : List Host.Cell) (k : Nat) (h : memWf m = true) :
    memWf (memWrite m k bs) = true := by
  induction bs generalizing m k with
  | nil => exact h
  | cons b bs ih => exact ih _ _ (memWf_memPut _ _ _ h)

/-- Cells written keep the canonical form. -/
theorem memWf_memWriteCells (cs m : List Host.Cell) (h : memWf m = true) : memWf (memWriteCells m cs) = true := by
  unfold memWriteCells
  induction cs generalizing m with
  | nil => exact h
  | cons c cs ih => exact ih _ (memWf_memPut _ _ _ h)

end Sys2Proof.Machine
end

