-- ==== Sys2Proof/Laws/State.lean ====
section
/-! SUPPORT. The laws of the small updates of the state: for each update, the fields it leaves alone, each true by rfl,
and what reading a hart or a plate core gives afterwards. -/

namespace Sys2Proof.Machine

/-! A hart's record is replaced or changed. -/

@[simp] theorem State.setHart_agenda (s : State) (h : Nat) (v : Hart) : (s.setHart h v).agenda = s.agenda := rfl
@[simp] theorem State.setHart_cur (s : State) (h : Nat) (v : Hart) : (s.setHart h v).cur = s.cur := rfl
@[simp] theorem State.setHart_ev (s : State) (h : Nat) (v : Hart) : (s.setHart h v).ev = s.ev := rfl
@[simp] theorem State.setHart_rr (s : State) (h : Nat) (v : Hart) : (s.setHart h v).rr = s.rr := rfl
@[simp] theorem State.setHart_free (s : State) (h : Nat) (v : Hart) : (s.setHart h v).free = s.free := rfl
@[simp] theorem State.setHart_nextId (s : State) (h : Nat) (v : Hart) : (s.setHart h v).nextId = s.nextId := rfl
@[simp] theorem State.setHart_limit (s : State) (h : Nat) (v : Hart) : (s.setHart h v).limit = s.limit := rfl
@[simp] theorem State.setHart_cycle (s : State) (h : Nat) (v : Hart) : (s.setHart h v).cycle = s.cycle := rfl
@[simp] theorem State.setHart_ticket (s : State) (h : Nat) (v : Hart) : (s.setHart h v).ticket = s.ticket := rfl
@[simp] theorem State.setHart_record (s : State) (h : Nat) (v : Hart) : (s.setHart h v).record = s.record := rfl
@[simp] theorem State.setHart_mem (s : State) (h : Nat) (v : Hart) : (s.setHart h v).mem = s.mem := rfl
@[simp] theorem State.setHart_bad (s : State) (h : Nat) (v : Hart) : (s.setHart h v).bad = s.bad := rfl
@[simp] theorem State.setHart_div (s : State) (h : Nat) (v : Hart) : (s.setHart h v).div = s.div := rfl
@[simp] theorem State.setHart_mxBusy (s : State) (h : Nat) (v : Hart) : (s.setHart h v).mxBusy = s.mxBusy := rfl
@[simp] theorem State.setHart_mxTurn (s : State) (h : Nat) (v : Hart) : (s.setHart h v).mxTurn = s.mxTurn := rfl
@[simp] theorem State.setHart_l1 (s : State) (h : Nat) (v : Hart) : (s.setHart h v).l1 = s.l1 := rfl
@[simp] theorem State.setHart_plates (s : State) (h : Nat) (v : Hart) : (s.setHart h v).plates = s.plates := rfl
@[simp] theorem State.setHart_preg (s : State) (h : Nat) (v : Hart) : (s.setHart h v).preg = s.preg := rfl
@[simp] theorem State.setHart_mg (s : State) (h : Nat) (v : Hart) : (s.setHart h v).mg = s.mg := rfl
@[simp] theorem State.setHart_snap (s : State) (h : Nat) (v : Hart) : (s.setHart h v).snap = s.snap := rfl
@[simp] theorem State.setHart_ridges (s : State) (h : Nat) (v : Hart) : (s.setHart h v).ridges = s.ridges := rfl
@[simp] theorem State.setHart_seen (s : State) (h : Nat) (v : Hart) : (s.setHart h v).seen = s.seen := rfl
@[simp] theorem State.setHart_tlbs (s : State) (h : Nat) (v : Hart) : (s.setHart h v).tlbs = s.tlbs := rfl
@[simp] theorem State.setHart_tlbInv (s : State) (h : Nat) (v : Hart) : (s.setHart h v).tlbInv = s.tlbInv := rfl
@[simp] theorem State.setHart_vtts (s : State) (h : Nat) (v : Hart) : (s.setHart h v).vtts = s.vtts := rfl
@[simp] theorem State.setHart_tdc (s : State) (h : Nat) (v : Hart) : (s.setHart h v).tdc = s.tdc := rfl
@[simp] theorem State.setHart_granOwner (s : State) (h : Nat) (v : Hart) : (s.setHart h v).granOwner = s.granOwner := rfl
@[simp] theorem State.setHart_qslots (s : State) (h : Nat) (v : Hart) : (s.setHart h v).qslots = s.qslots := rfl
@[simp] theorem State.setHart_queues (s : State) (h : Nat) (v : Hart) : (s.setHart h v).queues = s.queues := rfl
@[simp] theorem State.setHart_cmds (s : State) (h : Nat) (v : Hart) : (s.setHart h v).cmds = s.cmds := rfl
@[simp] theorem State.setHart_insts (s : State) (h : Nat) (v : Hart) : (s.setHart h v).insts = s.insts := rfl
@[simp] theorem State.setHart_parked (s : State) (h : Nat) (v : Hart) : (s.setHart h v).parked = s.parked := rfl
@[simp] theorem State.setHart_ages (s : State) (h : Nat) (v : Hart) : (s.setHart h v).ages = s.ages := rfl
@[simp] theorem State.setHart_trussResv (s : State) (h : Nat) (v : Hart) : (s.setHart h v).trussResv = s.trussResv := rfl
@[simp] theorem State.setHart_bayResv (s : State) (h : Nat) (v : Hart) : (s.setHart h v).bayResv = s.bayResv := rfl
@[simp] theorem State.setHart_copyq (s : State) (h : Nat) (v : Hart) : (s.setHart h v).copyq = s.copyq := rfl
@[simp] theorem State.setHart_sillq (s : State) (h : Nat) (v : Hart) : (s.setHart h v).sillq = s.sillq := rfl
@[simp] theorem State.setHart_shards (s : State) (h : Nat) (v : Hart) : (s.setHart h v).shards = s.shards := rfl
@[simp] theorem State.setHart_rq (s : State) (h : Nat) (v : Hart) : (s.setHart h v).rq = s.rq := rfl
@[simp] theorem State.setHart_credits (s : State) (h : Nat) (v : Hart) : (s.setHart h v).credits = s.credits := rfl
@[simp] theorem State.setHart_notices (s : State) (h : Nat) (v : Hart) : (s.setHart h v).notices = s.notices := rfl

@[simp] theorem State.modHart_agenda (s : State) (h : Nat) (f : Hart → Hart) : (s.modHart h f).agenda = s.agenda := rfl
@[simp] theorem State.modHart_cur (s : State) (h : Nat) (f : Hart → Hart) : (s.modHart h f).cur = s.cur := rfl
@[simp] theorem State.modHart_ev (s : State) (h : Nat) (f : Hart → Hart) : (s.modHart h f).ev = s.ev := rfl
@[simp] theorem State.modHart_rr (s : State) (h : Nat) (f : Hart → Hart) : (s.modHart h f).rr = s.rr := rfl
@[simp] theorem State.modHart_free (s : State) (h : Nat) (f : Hart → Hart) : (s.modHart h f).free = s.free := rfl
@[simp] theorem State.modHart_nextId (s : State) (h : Nat) (f : Hart → Hart) : (s.modHart h f).nextId = s.nextId := rfl
@[simp] theorem State.modHart_limit (s : State) (h : Nat) (f : Hart → Hart) : (s.modHart h f).limit = s.limit := rfl
@[simp] theorem State.modHart_cycle (s : State) (h : Nat) (f : Hart → Hart) : (s.modHart h f).cycle = s.cycle := rfl
@[simp] theorem State.modHart_ticket (s : State) (h : Nat) (f : Hart → Hart) : (s.modHart h f).ticket = s.ticket := rfl
@[simp] theorem State.modHart_record (s : State) (h : Nat) (f : Hart → Hart) : (s.modHart h f).record = s.record := rfl
@[simp] theorem State.modHart_mem (s : State) (h : Nat) (f : Hart → Hart) : (s.modHart h f).mem = s.mem := rfl
@[simp] theorem State.modHart_bad (s : State) (h : Nat) (f : Hart → Hart) : (s.modHart h f).bad = s.bad := rfl
@[simp] theorem State.modHart_div (s : State) (h : Nat) (f : Hart → Hart) : (s.modHart h f).div = s.div := rfl
@[simp] theorem State.modHart_mxBusy (s : State) (h : Nat) (f : Hart → Hart) : (s.modHart h f).mxBusy = s.mxBusy := rfl
@[simp] theorem State.modHart_mxTurn (s : State) (h : Nat) (f : Hart → Hart) : (s.modHart h f).mxTurn = s.mxTurn := rfl
@[simp] theorem State.modHart_l1 (s : State) (h : Nat) (f : Hart → Hart) : (s.modHart h f).l1 = s.l1 := rfl
@[simp] theorem State.modHart_plates (s : State) (h : Nat) (f : Hart → Hart) : (s.modHart h f).plates = s.plates := rfl
@[simp] theorem State.modHart_preg (s : State) (h : Nat) (f : Hart → Hart) : (s.modHart h f).preg = s.preg := rfl
@[simp] theorem State.modHart_mg (s : State) (h : Nat) (f : Hart → Hart) : (s.modHart h f).mg = s.mg := rfl
@[simp] theorem State.modHart_snap (s : State) (h : Nat) (f : Hart → Hart) : (s.modHart h f).snap = s.snap := rfl
@[simp] theorem State.modHart_ridges (s : State) (h : Nat) (f : Hart → Hart) : (s.modHart h f).ridges = s.ridges := rfl
@[simp] theorem State.modHart_seen (s : State) (h : Nat) (f : Hart → Hart) : (s.modHart h f).seen = s.seen := rfl
@[simp] theorem State.modHart_tlbs (s : State) (h : Nat) (f : Hart → Hart) : (s.modHart h f).tlbs = s.tlbs := rfl
@[simp] theorem State.modHart_tlbInv (s : State) (h : Nat) (f : Hart → Hart) : (s.modHart h f).tlbInv = s.tlbInv := rfl
@[simp] theorem State.modHart_vtts (s : State) (h : Nat) (f : Hart → Hart) : (s.modHart h f).vtts = s.vtts := rfl
@[simp] theorem State.modHart_tdc (s : State) (h : Nat) (f : Hart → Hart) : (s.modHart h f).tdc = s.tdc := rfl
@[simp] theorem State.modHart_granOwner (s : State) (h : Nat) (f : Hart → Hart) : (s.modHart h f).granOwner = s.granOwner := rfl
@[simp] theorem State.modHart_qslots (s : State) (h : Nat) (f : Hart → Hart) : (s.modHart h f).qslots = s.qslots := rfl
@[simp] theorem State.modHart_queues (s : State) (h : Nat) (f : Hart → Hart) : (s.modHart h f).queues = s.queues := rfl
@[simp] theorem State.modHart_cmds (s : State) (h : Nat) (f : Hart → Hart) : (s.modHart h f).cmds = s.cmds := rfl
@[simp] theorem State.modHart_insts (s : State) (h : Nat) (f : Hart → Hart) : (s.modHart h f).insts = s.insts := rfl
@[simp] theorem State.modHart_parked (s : State) (h : Nat) (f : Hart → Hart) : (s.modHart h f).parked = s.parked := rfl
@[simp] theorem State.modHart_ages (s : State) (h : Nat) (f : Hart → Hart) : (s.modHart h f).ages = s.ages := rfl
@[simp] theorem State.modHart_trussResv (s : State) (h : Nat) (f : Hart → Hart) : (s.modHart h f).trussResv = s.trussResv := rfl
@[simp] theorem State.modHart_bayResv (s : State) (h : Nat) (f : Hart → Hart) : (s.modHart h f).bayResv = s.bayResv := rfl
@[simp] theorem State.modHart_copyq (s : State) (h : Nat) (f : Hart → Hart) : (s.modHart h f).copyq = s.copyq := rfl
@[simp] theorem State.modHart_sillq (s : State) (h : Nat) (f : Hart → Hart) : (s.modHart h f).sillq = s.sillq := rfl
@[simp] theorem State.modHart_shards (s : State) (h : Nat) (f : Hart → Hart) : (s.modHart h f).shards = s.shards := rfl
@[simp] theorem State.modHart_rq (s : State) (h : Nat) (f : Hart → Hart) : (s.modHart h f).rq = s.rq := rfl
@[simp] theorem State.modHart_credits (s : State) (h : Nat) (f : Hart → Hart) : (s.modHart h f).credits = s.credits := rfl
@[simp] theorem State.modHart_notices (s : State) (h : Nat) (f : Hart → Hart) : (s.modHart h f).notices = s.notices := rfl

@[simp] theorem State.modA_agenda (s : State) (h : Nat) (f : ARegs → ARegs) : (s.modA h f).agenda = s.agenda := rfl
@[simp] theorem State.modA_cur (s : State) (h : Nat) (f : ARegs → ARegs) : (s.modA h f).cur = s.cur := rfl
@[simp] theorem State.modA_ev (s : State) (h : Nat) (f : ARegs → ARegs) : (s.modA h f).ev = s.ev := rfl
@[simp] theorem State.modA_rr (s : State) (h : Nat) (f : ARegs → ARegs) : (s.modA h f).rr = s.rr := rfl
@[simp] theorem State.modA_free (s : State) (h : Nat) (f : ARegs → ARegs) : (s.modA h f).free = s.free := rfl
@[simp] theorem State.modA_nextId (s : State) (h : Nat) (f : ARegs → ARegs) : (s.modA h f).nextId = s.nextId := rfl
@[simp] theorem State.modA_limit (s : State) (h : Nat) (f : ARegs → ARegs) : (s.modA h f).limit = s.limit := rfl
@[simp] theorem State.modA_cycle (s : State) (h : Nat) (f : ARegs → ARegs) : (s.modA h f).cycle = s.cycle := rfl
@[simp] theorem State.modA_ticket (s : State) (h : Nat) (f : ARegs → ARegs) : (s.modA h f).ticket = s.ticket := rfl
@[simp] theorem State.modA_record (s : State) (h : Nat) (f : ARegs → ARegs) : (s.modA h f).record = s.record := rfl
@[simp] theorem State.modA_mem (s : State) (h : Nat) (f : ARegs → ARegs) : (s.modA h f).mem = s.mem := rfl
@[simp] theorem State.modA_bad (s : State) (h : Nat) (f : ARegs → ARegs) : (s.modA h f).bad = s.bad := rfl
@[simp] theorem State.modA_div (s : State) (h : Nat) (f : ARegs → ARegs) : (s.modA h f).div = s.div := rfl
@[simp] theorem State.modA_mxBusy (s : State) (h : Nat) (f : ARegs → ARegs) : (s.modA h f).mxBusy = s.mxBusy := rfl
@[simp] theorem State.modA_mxTurn (s : State) (h : Nat) (f : ARegs → ARegs) : (s.modA h f).mxTurn = s.mxTurn := rfl
@[simp] theorem State.modA_l1 (s : State) (h : Nat) (f : ARegs → ARegs) : (s.modA h f).l1 = s.l1 := rfl
@[simp] theorem State.modA_plates (s : State) (h : Nat) (f : ARegs → ARegs) : (s.modA h f).plates = s.plates := rfl
@[simp] theorem State.modA_preg (s : State) (h : Nat) (f : ARegs → ARegs) : (s.modA h f).preg = s.preg := rfl
@[simp] theorem State.modA_mg (s : State) (h : Nat) (f : ARegs → ARegs) : (s.modA h f).mg = s.mg := rfl
@[simp] theorem State.modA_snap (s : State) (h : Nat) (f : ARegs → ARegs) : (s.modA h f).snap = s.snap := rfl
@[simp] theorem State.modA_ridges (s : State) (h : Nat) (f : ARegs → ARegs) : (s.modA h f).ridges = s.ridges := rfl
@[simp] theorem State.modA_seen (s : State) (h : Nat) (f : ARegs → ARegs) : (s.modA h f).seen = s.seen := rfl
@[simp] theorem State.modA_tlbs (s : State) (h : Nat) (f : ARegs → ARegs) : (s.modA h f).tlbs = s.tlbs := rfl
@[simp] theorem State.modA_tlbInv (s : State) (h : Nat) (f : ARegs → ARegs) : (s.modA h f).tlbInv = s.tlbInv := rfl
@[simp] theorem State.modA_vtts (s : State) (h : Nat) (f : ARegs → ARegs) : (s.modA h f).vtts = s.vtts := rfl
@[simp] theorem State.modA_tdc (s : State) (h : Nat) (f : ARegs → ARegs) : (s.modA h f).tdc = s.tdc := rfl
@[simp] theorem State.modA_granOwner (s : State) (h : Nat) (f : ARegs → ARegs) : (s.modA h f).granOwner = s.granOwner := rfl
@[simp] theorem State.modA_qslots (s : State) (h : Nat) (f : ARegs → ARegs) : (s.modA h f).qslots = s.qslots := rfl
@[simp] theorem State.modA_queues (s : State) (h : Nat) (f : ARegs → ARegs) : (s.modA h f).queues = s.queues := rfl
@[simp] theorem State.modA_cmds (s : State) (h : Nat) (f : ARegs → ARegs) : (s.modA h f).cmds = s.cmds := rfl
@[simp] theorem State.modA_insts (s : State) (h : Nat) (f : ARegs → ARegs) : (s.modA h f).insts = s.insts := rfl
@[simp] theorem State.modA_parked (s : State) (h : Nat) (f : ARegs → ARegs) : (s.modA h f).parked = s.parked := rfl
@[simp] theorem State.modA_ages (s : State) (h : Nat) (f : ARegs → ARegs) : (s.modA h f).ages = s.ages := rfl
@[simp] theorem State.modA_trussResv (s : State) (h : Nat) (f : ARegs → ARegs) : (s.modA h f).trussResv = s.trussResv := rfl
@[simp] theorem State.modA_bayResv (s : State) (h : Nat) (f : ARegs → ARegs) : (s.modA h f).bayResv = s.bayResv := rfl
@[simp] theorem State.modA_copyq (s : State) (h : Nat) (f : ARegs → ARegs) : (s.modA h f).copyq = s.copyq := rfl
@[simp] theorem State.modA_sillq (s : State) (h : Nat) (f : ARegs → ARegs) : (s.modA h f).sillq = s.sillq := rfl
@[simp] theorem State.modA_shards (s : State) (h : Nat) (f : ARegs → ARegs) : (s.modA h f).shards = s.shards := rfl
@[simp] theorem State.modA_rq (s : State) (h : Nat) (f : ARegs → ARegs) : (s.modA h f).rq = s.rq := rfl
@[simp] theorem State.modA_credits (s : State) (h : Nat) (f : ARegs → ARegs) : (s.modA h f).credits = s.credits := rfl
@[simp] theorem State.modA_notices (s : State) (h : Nat) (f : ARegs → ARegs) : (s.modA h f).notices = s.notices := rfl

@[simp] theorem State.modE_agenda (s : State) (h : Nat) (f : ERegs → ERegs) : (s.modE h f).agenda = s.agenda := rfl
@[simp] theorem State.modE_cur (s : State) (h : Nat) (f : ERegs → ERegs) : (s.modE h f).cur = s.cur := rfl
@[simp] theorem State.modE_ev (s : State) (h : Nat) (f : ERegs → ERegs) : (s.modE h f).ev = s.ev := rfl
@[simp] theorem State.modE_rr (s : State) (h : Nat) (f : ERegs → ERegs) : (s.modE h f).rr = s.rr := rfl
@[simp] theorem State.modE_free (s : State) (h : Nat) (f : ERegs → ERegs) : (s.modE h f).free = s.free := rfl
@[simp] theorem State.modE_nextId (s : State) (h : Nat) (f : ERegs → ERegs) : (s.modE h f).nextId = s.nextId := rfl
@[simp] theorem State.modE_limit (s : State) (h : Nat) (f : ERegs → ERegs) : (s.modE h f).limit = s.limit := rfl
@[simp] theorem State.modE_cycle (s : State) (h : Nat) (f : ERegs → ERegs) : (s.modE h f).cycle = s.cycle := rfl
@[simp] theorem State.modE_ticket (s : State) (h : Nat) (f : ERegs → ERegs) : (s.modE h f).ticket = s.ticket := rfl
@[simp] theorem State.modE_record (s : State) (h : Nat) (f : ERegs → ERegs) : (s.modE h f).record = s.record := rfl
@[simp] theorem State.modE_mem (s : State) (h : Nat) (f : ERegs → ERegs) : (s.modE h f).mem = s.mem := rfl
@[simp] theorem State.modE_bad (s : State) (h : Nat) (f : ERegs → ERegs) : (s.modE h f).bad = s.bad := rfl
@[simp] theorem State.modE_div (s : State) (h : Nat) (f : ERegs → ERegs) : (s.modE h f).div = s.div := rfl
@[simp] theorem State.modE_mxBusy (s : State) (h : Nat) (f : ERegs → ERegs) : (s.modE h f).mxBusy = s.mxBusy := rfl
@[simp] theorem State.modE_mxTurn (s : State) (h : Nat) (f : ERegs → ERegs) : (s.modE h f).mxTurn = s.mxTurn := rfl
@[simp] theorem State.modE_l1 (s : State) (h : Nat) (f : ERegs → ERegs) : (s.modE h f).l1 = s.l1 := rfl
@[simp] theorem State.modE_plates (s : State) (h : Nat) (f : ERegs → ERegs) : (s.modE h f).plates = s.plates := rfl
@[simp] theorem State.modE_preg (s : State) (h : Nat) (f : ERegs → ERegs) : (s.modE h f).preg = s.preg := rfl
@[simp] theorem State.modE_mg (s : State) (h : Nat) (f : ERegs → ERegs) : (s.modE h f).mg = s.mg := rfl
@[simp] theorem State.modE_snap (s : State) (h : Nat) (f : ERegs → ERegs) : (s.modE h f).snap = s.snap := rfl
@[simp] theorem State.modE_ridges (s : State) (h : Nat) (f : ERegs → ERegs) : (s.modE h f).ridges = s.ridges := rfl
@[simp] theorem State.modE_seen (s : State) (h : Nat) (f : ERegs → ERegs) : (s.modE h f).seen = s.seen := rfl
@[simp] theorem State.modE_tlbs (s : State) (h : Nat) (f : ERegs → ERegs) : (s.modE h f).tlbs = s.tlbs := rfl
@[simp] theorem State.modE_tlbInv (s : State) (h : Nat) (f : ERegs → ERegs) : (s.modE h f).tlbInv = s.tlbInv := rfl
@[simp] theorem State.modE_vtts (s : State) (h : Nat) (f : ERegs → ERegs) : (s.modE h f).vtts = s.vtts := rfl
@[simp] theorem State.modE_tdc (s : State) (h : Nat) (f : ERegs → ERegs) : (s.modE h f).tdc = s.tdc := rfl
@[simp] theorem State.modE_granOwner (s : State) (h : Nat) (f : ERegs → ERegs) : (s.modE h f).granOwner = s.granOwner := rfl
@[simp] theorem State.modE_qslots (s : State) (h : Nat) (f : ERegs → ERegs) : (s.modE h f).qslots = s.qslots := rfl
@[simp] theorem State.modE_queues (s : State) (h : Nat) (f : ERegs → ERegs) : (s.modE h f).queues = s.queues := rfl
@[simp] theorem State.modE_cmds (s : State) (h : Nat) (f : ERegs → ERegs) : (s.modE h f).cmds = s.cmds := rfl
@[simp] theorem State.modE_insts (s : State) (h : Nat) (f : ERegs → ERegs) : (s.modE h f).insts = s.insts := rfl
@[simp] theorem State.modE_parked (s : State) (h : Nat) (f : ERegs → ERegs) : (s.modE h f).parked = s.parked := rfl
@[simp] theorem State.modE_ages (s : State) (h : Nat) (f : ERegs → ERegs) : (s.modE h f).ages = s.ages := rfl
@[simp] theorem State.modE_trussResv (s : State) (h : Nat) (f : ERegs → ERegs) : (s.modE h f).trussResv = s.trussResv := rfl
@[simp] theorem State.modE_bayResv (s : State) (h : Nat) (f : ERegs → ERegs) : (s.modE h f).bayResv = s.bayResv := rfl
@[simp] theorem State.modE_copyq (s : State) (h : Nat) (f : ERegs → ERegs) : (s.modE h f).copyq = s.copyq := rfl
@[simp] theorem State.modE_sillq (s : State) (h : Nat) (f : ERegs → ERegs) : (s.modE h f).sillq = s.sillq := rfl
@[simp] theorem State.modE_shards (s : State) (h : Nat) (f : ERegs → ERegs) : (s.modE h f).shards = s.shards := rfl
@[simp] theorem State.modE_rq (s : State) (h : Nat) (f : ERegs → ERegs) : (s.modE h f).rq = s.rq := rfl
@[simp] theorem State.modE_credits (s : State) (h : Nat) (f : ERegs → ERegs) : (s.modE h f).credits = s.credits := rfl
@[simp] theorem State.modE_notices (s : State) (h : Nat) (f : ERegs → ERegs) : (s.modE h f).notices = s.notices := rfl

@[simp] theorem State.modM_agenda (s : State) (h : Nat) (f : MRegs → MRegs) : (s.modM h f).agenda = s.agenda := rfl
@[simp] theorem State.modM_cur (s : State) (h : Nat) (f : MRegs → MRegs) : (s.modM h f).cur = s.cur := rfl
@[simp] theorem State.modM_ev (s : State) (h : Nat) (f : MRegs → MRegs) : (s.modM h f).ev = s.ev := rfl
@[simp] theorem State.modM_rr (s : State) (h : Nat) (f : MRegs → MRegs) : (s.modM h f).rr = s.rr := rfl
@[simp] theorem State.modM_free (s : State) (h : Nat) (f : MRegs → MRegs) : (s.modM h f).free = s.free := rfl
@[simp] theorem State.modM_nextId (s : State) (h : Nat) (f : MRegs → MRegs) : (s.modM h f).nextId = s.nextId := rfl
@[simp] theorem State.modM_limit (s : State) (h : Nat) (f : MRegs → MRegs) : (s.modM h f).limit = s.limit := rfl
@[simp] theorem State.modM_cycle (s : State) (h : Nat) (f : MRegs → MRegs) : (s.modM h f).cycle = s.cycle := rfl
@[simp] theorem State.modM_ticket (s : State) (h : Nat) (f : MRegs → MRegs) : (s.modM h f).ticket = s.ticket := rfl
@[simp] theorem State.modM_record (s : State) (h : Nat) (f : MRegs → MRegs) : (s.modM h f).record = s.record := rfl
@[simp] theorem State.modM_mem (s : State) (h : Nat) (f : MRegs → MRegs) : (s.modM h f).mem = s.mem := rfl
@[simp] theorem State.modM_bad (s : State) (h : Nat) (f : MRegs → MRegs) : (s.modM h f).bad = s.bad := rfl
@[simp] theorem State.modM_div (s : State) (h : Nat) (f : MRegs → MRegs) : (s.modM h f).div = s.div := rfl
@[simp] theorem State.modM_mxBusy (s : State) (h : Nat) (f : MRegs → MRegs) : (s.modM h f).mxBusy = s.mxBusy := rfl
@[simp] theorem State.modM_mxTurn (s : State) (h : Nat) (f : MRegs → MRegs) : (s.modM h f).mxTurn = s.mxTurn := rfl
@[simp] theorem State.modM_l1 (s : State) (h : Nat) (f : MRegs → MRegs) : (s.modM h f).l1 = s.l1 := rfl
@[simp] theorem State.modM_plates (s : State) (h : Nat) (f : MRegs → MRegs) : (s.modM h f).plates = s.plates := rfl
@[simp] theorem State.modM_preg (s : State) (h : Nat) (f : MRegs → MRegs) : (s.modM h f).preg = s.preg := rfl
@[simp] theorem State.modM_mg (s : State) (h : Nat) (f : MRegs → MRegs) : (s.modM h f).mg = s.mg := rfl
@[simp] theorem State.modM_snap (s : State) (h : Nat) (f : MRegs → MRegs) : (s.modM h f).snap = s.snap := rfl
@[simp] theorem State.modM_ridges (s : State) (h : Nat) (f : MRegs → MRegs) : (s.modM h f).ridges = s.ridges := rfl
@[simp] theorem State.modM_seen (s : State) (h : Nat) (f : MRegs → MRegs) : (s.modM h f).seen = s.seen := rfl
@[simp] theorem State.modM_tlbs (s : State) (h : Nat) (f : MRegs → MRegs) : (s.modM h f).tlbs = s.tlbs := rfl
@[simp] theorem State.modM_tlbInv (s : State) (h : Nat) (f : MRegs → MRegs) : (s.modM h f).tlbInv = s.tlbInv := rfl
@[simp] theorem State.modM_vtts (s : State) (h : Nat) (f : MRegs → MRegs) : (s.modM h f).vtts = s.vtts := rfl
@[simp] theorem State.modM_tdc (s : State) (h : Nat) (f : MRegs → MRegs) : (s.modM h f).tdc = s.tdc := rfl
@[simp] theorem State.modM_granOwner (s : State) (h : Nat) (f : MRegs → MRegs) : (s.modM h f).granOwner = s.granOwner := rfl
@[simp] theorem State.modM_qslots (s : State) (h : Nat) (f : MRegs → MRegs) : (s.modM h f).qslots = s.qslots := rfl
@[simp] theorem State.modM_queues (s : State) (h : Nat) (f : MRegs → MRegs) : (s.modM h f).queues = s.queues := rfl
@[simp] theorem State.modM_cmds (s : State) (h : Nat) (f : MRegs → MRegs) : (s.modM h f).cmds = s.cmds := rfl
@[simp] theorem State.modM_insts (s : State) (h : Nat) (f : MRegs → MRegs) : (s.modM h f).insts = s.insts := rfl
@[simp] theorem State.modM_parked (s : State) (h : Nat) (f : MRegs → MRegs) : (s.modM h f).parked = s.parked := rfl
@[simp] theorem State.modM_ages (s : State) (h : Nat) (f : MRegs → MRegs) : (s.modM h f).ages = s.ages := rfl
@[simp] theorem State.modM_trussResv (s : State) (h : Nat) (f : MRegs → MRegs) : (s.modM h f).trussResv = s.trussResv := rfl
@[simp] theorem State.modM_bayResv (s : State) (h : Nat) (f : MRegs → MRegs) : (s.modM h f).bayResv = s.bayResv := rfl
@[simp] theorem State.modM_copyq (s : State) (h : Nat) (f : MRegs → MRegs) : (s.modM h f).copyq = s.copyq := rfl
@[simp] theorem State.modM_sillq (s : State) (h : Nat) (f : MRegs → MRegs) : (s.modM h f).sillq = s.sillq := rfl
@[simp] theorem State.modM_shards (s : State) (h : Nat) (f : MRegs → MRegs) : (s.modM h f).shards = s.shards := rfl
@[simp] theorem State.modM_rq (s : State) (h : Nat) (f : MRegs → MRegs) : (s.modM h f).rq = s.rq := rfl
@[simp] theorem State.modM_credits (s : State) (h : Nat) (f : MRegs → MRegs) : (s.modM h f).credits = s.credits := rfl
@[simp] theorem State.modM_notices (s : State) (h : Nat) (f : MRegs → MRegs) : (s.modM h f).notices = s.notices := rfl

@[simp] theorem State.modR_agenda (s : State) (h : Nat) (f : HRes → HRes) : (s.modR h f).agenda = s.agenda := rfl
@[simp] theorem State.modR_cur (s : State) (h : Nat) (f : HRes → HRes) : (s.modR h f).cur = s.cur := rfl
@[simp] theorem State.modR_ev (s : State) (h : Nat) (f : HRes → HRes) : (s.modR h f).ev = s.ev := rfl
@[simp] theorem State.modR_rr (s : State) (h : Nat) (f : HRes → HRes) : (s.modR h f).rr = s.rr := rfl
@[simp] theorem State.modR_free (s : State) (h : Nat) (f : HRes → HRes) : (s.modR h f).free = s.free := rfl
@[simp] theorem State.modR_nextId (s : State) (h : Nat) (f : HRes → HRes) : (s.modR h f).nextId = s.nextId := rfl
@[simp] theorem State.modR_limit (s : State) (h : Nat) (f : HRes → HRes) : (s.modR h f).limit = s.limit := rfl
@[simp] theorem State.modR_cycle (s : State) (h : Nat) (f : HRes → HRes) : (s.modR h f).cycle = s.cycle := rfl
@[simp] theorem State.modR_ticket (s : State) (h : Nat) (f : HRes → HRes) : (s.modR h f).ticket = s.ticket := rfl
@[simp] theorem State.modR_record (s : State) (h : Nat) (f : HRes → HRes) : (s.modR h f).record = s.record := rfl
@[simp] theorem State.modR_mem (s : State) (h : Nat) (f : HRes → HRes) : (s.modR h f).mem = s.mem := rfl
@[simp] theorem State.modR_bad (s : State) (h : Nat) (f : HRes → HRes) : (s.modR h f).bad = s.bad := rfl
@[simp] theorem State.modR_div (s : State) (h : Nat) (f : HRes → HRes) : (s.modR h f).div = s.div := rfl
@[simp] theorem State.modR_mxBusy (s : State) (h : Nat) (f : HRes → HRes) : (s.modR h f).mxBusy = s.mxBusy := rfl
@[simp] theorem State.modR_mxTurn (s : State) (h : Nat) (f : HRes → HRes) : (s.modR h f).mxTurn = s.mxTurn := rfl
@[simp] theorem State.modR_l1 (s : State) (h : Nat) (f : HRes → HRes) : (s.modR h f).l1 = s.l1 := rfl
@[simp] theorem State.modR_plates (s : State) (h : Nat) (f : HRes → HRes) : (s.modR h f).plates = s.plates := rfl
@[simp] theorem State.modR_preg (s : State) (h : Nat) (f : HRes → HRes) : (s.modR h f).preg = s.preg := rfl
@[simp] theorem State.modR_mg (s : State) (h : Nat) (f : HRes → HRes) : (s.modR h f).mg = s.mg := rfl
@[simp] theorem State.modR_snap (s : State) (h : Nat) (f : HRes → HRes) : (s.modR h f).snap = s.snap := rfl
@[simp] theorem State.modR_ridges (s : State) (h : Nat) (f : HRes → HRes) : (s.modR h f).ridges = s.ridges := rfl
@[simp] theorem State.modR_seen (s : State) (h : Nat) (f : HRes → HRes) : (s.modR h f).seen = s.seen := rfl
@[simp] theorem State.modR_tlbs (s : State) (h : Nat) (f : HRes → HRes) : (s.modR h f).tlbs = s.tlbs := rfl
@[simp] theorem State.modR_tlbInv (s : State) (h : Nat) (f : HRes → HRes) : (s.modR h f).tlbInv = s.tlbInv := rfl
@[simp] theorem State.modR_vtts (s : State) (h : Nat) (f : HRes → HRes) : (s.modR h f).vtts = s.vtts := rfl
@[simp] theorem State.modR_tdc (s : State) (h : Nat) (f : HRes → HRes) : (s.modR h f).tdc = s.tdc := rfl
@[simp] theorem State.modR_granOwner (s : State) (h : Nat) (f : HRes → HRes) : (s.modR h f).granOwner = s.granOwner := rfl
@[simp] theorem State.modR_qslots (s : State) (h : Nat) (f : HRes → HRes) : (s.modR h f).qslots = s.qslots := rfl
@[simp] theorem State.modR_queues (s : State) (h : Nat) (f : HRes → HRes) : (s.modR h f).queues = s.queues := rfl
@[simp] theorem State.modR_cmds (s : State) (h : Nat) (f : HRes → HRes) : (s.modR h f).cmds = s.cmds := rfl
@[simp] theorem State.modR_insts (s : State) (h : Nat) (f : HRes → HRes) : (s.modR h f).insts = s.insts := rfl
@[simp] theorem State.modR_parked (s : State) (h : Nat) (f : HRes → HRes) : (s.modR h f).parked = s.parked := rfl
@[simp] theorem State.modR_ages (s : State) (h : Nat) (f : HRes → HRes) : (s.modR h f).ages = s.ages := rfl
@[simp] theorem State.modR_trussResv (s : State) (h : Nat) (f : HRes → HRes) : (s.modR h f).trussResv = s.trussResv := rfl
@[simp] theorem State.modR_bayResv (s : State) (h : Nat) (f : HRes → HRes) : (s.modR h f).bayResv = s.bayResv := rfl
@[simp] theorem State.modR_copyq (s : State) (h : Nat) (f : HRes → HRes) : (s.modR h f).copyq = s.copyq := rfl
@[simp] theorem State.modR_sillq (s : State) (h : Nat) (f : HRes → HRes) : (s.modR h f).sillq = s.sillq := rfl
@[simp] theorem State.modR_shards (s : State) (h : Nat) (f : HRes → HRes) : (s.modR h f).shards = s.shards := rfl
@[simp] theorem State.modR_rq (s : State) (h : Nat) (f : HRes → HRes) : (s.modR h f).rq = s.rq := rfl
@[simp] theorem State.modR_credits (s : State) (h : Nat) (f : HRes → HRes) : (s.modR h f).credits = s.credits := rfl
@[simp] theorem State.modR_notices (s : State) (h : Nat) (f : HRes → HRes) : (s.modR h f).notices = s.notices := rfl

/-! A plate core changes. -/

@[simp] theorem State.modPlate_agenda (s : State) (p : Nat) (f : Plate → Plate) : (s.modPlate p f).agenda = s.agenda := rfl
@[simp] theorem State.modPlate_cur (s : State) (p : Nat) (f : Plate → Plate) : (s.modPlate p f).cur = s.cur := rfl
@[simp] theorem State.modPlate_ev (s : State) (p : Nat) (f : Plate → Plate) : (s.modPlate p f).ev = s.ev := rfl
@[simp] theorem State.modPlate_rr (s : State) (p : Nat) (f : Plate → Plate) : (s.modPlate p f).rr = s.rr := rfl
@[simp] theorem State.modPlate_free (s : State) (p : Nat) (f : Plate → Plate) : (s.modPlate p f).free = s.free := rfl
@[simp] theorem State.modPlate_nextId (s : State) (p : Nat) (f : Plate → Plate) : (s.modPlate p f).nextId = s.nextId := rfl
@[simp] theorem State.modPlate_limit (s : State) (p : Nat) (f : Plate → Plate) : (s.modPlate p f).limit = s.limit := rfl
@[simp] theorem State.modPlate_cycle (s : State) (p : Nat) (f : Plate → Plate) : (s.modPlate p f).cycle = s.cycle := rfl
@[simp] theorem State.modPlate_ticket (s : State) (p : Nat) (f : Plate → Plate) : (s.modPlate p f).ticket = s.ticket := rfl
@[simp] theorem State.modPlate_record (s : State) (p : Nat) (f : Plate → Plate) : (s.modPlate p f).record = s.record := rfl
@[simp] theorem State.modPlate_mem (s : State) (p : Nat) (f : Plate → Plate) : (s.modPlate p f).mem = s.mem := rfl
@[simp] theorem State.modPlate_bad (s : State) (p : Nat) (f : Plate → Plate) : (s.modPlate p f).bad = s.bad := rfl
@[simp] theorem State.modPlate_harts (s : State) (p : Nat) (f : Plate → Plate) : (s.modPlate p f).harts = s.harts := rfl
@[simp] theorem State.modPlate_div (s : State) (p : Nat) (f : Plate → Plate) : (s.modPlate p f).div = s.div := rfl
@[simp] theorem State.modPlate_mxBusy (s : State) (p : Nat) (f : Plate → Plate) : (s.modPlate p f).mxBusy = s.mxBusy := rfl
@[simp] theorem State.modPlate_mxTurn (s : State) (p : Nat) (f : Plate → Plate) : (s.modPlate p f).mxTurn = s.mxTurn := rfl
@[simp] theorem State.modPlate_l1 (s : State) (p : Nat) (f : Plate → Plate) : (s.modPlate p f).l1 = s.l1 := rfl
@[simp] theorem State.modPlate_preg (s : State) (p : Nat) (f : Plate → Plate) : (s.modPlate p f).preg = s.preg := rfl
@[simp] theorem State.modPlate_mg (s : State) (p : Nat) (f : Plate → Plate) : (s.modPlate p f).mg = s.mg := rfl
@[simp] theorem State.modPlate_snap (s : State) (p : Nat) (f : Plate → Plate) : (s.modPlate p f).snap = s.snap := rfl
@[simp] theorem State.modPlate_ridges (s : State) (p : Nat) (f : Plate → Plate) : (s.modPlate p f).ridges = s.ridges := rfl
@[simp] theorem State.modPlate_seen (s : State) (p : Nat) (f : Plate → Plate) : (s.modPlate p f).seen = s.seen := rfl
@[simp] theorem State.modPlate_tlbs (s : State) (p : Nat) (f : Plate → Plate) : (s.modPlate p f).tlbs = s.tlbs := rfl
@[simp] theorem State.modPlate_tlbInv (s : State) (p : Nat) (f : Plate → Plate) : (s.modPlate p f).tlbInv = s.tlbInv := rfl
@[simp] theorem State.modPlate_vtts (s : State) (p : Nat) (f : Plate → Plate) : (s.modPlate p f).vtts = s.vtts := rfl
@[simp] theorem State.modPlate_tdc (s : State) (p : Nat) (f : Plate → Plate) : (s.modPlate p f).tdc = s.tdc := rfl
@[simp] theorem State.modPlate_granOwner (s : State) (p : Nat) (f : Plate → Plate) : (s.modPlate p f).granOwner = s.granOwner := rfl
@[simp] theorem State.modPlate_qslots (s : State) (p : Nat) (f : Plate → Plate) : (s.modPlate p f).qslots = s.qslots := rfl
@[simp] theorem State.modPlate_queues (s : State) (p : Nat) (f : Plate → Plate) : (s.modPlate p f).queues = s.queues := rfl
@[simp] theorem State.modPlate_cmds (s : State) (p : Nat) (f : Plate → Plate) : (s.modPlate p f).cmds = s.cmds := rfl
@[simp] theorem State.modPlate_insts (s : State) (p : Nat) (f : Plate → Plate) : (s.modPlate p f).insts = s.insts := rfl
@[simp] theorem State.modPlate_parked (s : State) (p : Nat) (f : Plate → Plate) : (s.modPlate p f).parked = s.parked := rfl
@[simp] theorem State.modPlate_ages (s : State) (p : Nat) (f : Plate → Plate) : (s.modPlate p f).ages = s.ages := rfl
@[simp] theorem State.modPlate_trussResv (s : State) (p : Nat) (f : Plate → Plate) : (s.modPlate p f).trussResv = s.trussResv := rfl
@[simp] theorem State.modPlate_bayResv (s : State) (p : Nat) (f : Plate → Plate) : (s.modPlate p f).bayResv = s.bayResv := rfl
@[simp] theorem State.modPlate_copyq (s : State) (p : Nat) (f : Plate → Plate) : (s.modPlate p f).copyq = s.copyq := rfl
@[simp] theorem State.modPlate_sillq (s : State) (p : Nat) (f : Plate → Plate) : (s.modPlate p f).sillq = s.sillq := rfl
@[simp] theorem State.modPlate_shards (s : State) (p : Nat) (f : Plate → Plate) : (s.modPlate p f).shards = s.shards := rfl
@[simp] theorem State.modPlate_rq (s : State) (p : Nat) (f : Plate → Plate) : (s.modPlate p f).rq = s.rq := rfl
@[simp] theorem State.modPlate_credits (s : State) (p : Nat) (f : Plate → Plate) : (s.modPlate p f).credits = s.credits := rfl
@[simp] theorem State.modPlate_notices (s : State) (p : Nat) (f : Plate → Plate) : (s.modPlate p f).notices = s.notices := rfl

/-! Bytes are written. -/

@[simp] theorem State.poke_agenda (s : State) (k : Nat) (bs : List Byte) : (s.poke k bs).agenda = s.agenda := rfl
@[simp] theorem State.poke_cur (s : State) (k : Nat) (bs : List Byte) : (s.poke k bs).cur = s.cur := rfl
@[simp] theorem State.poke_ev (s : State) (k : Nat) (bs : List Byte) : (s.poke k bs).ev = s.ev := rfl
@[simp] theorem State.poke_rr (s : State) (k : Nat) (bs : List Byte) : (s.poke k bs).rr = s.rr := rfl
@[simp] theorem State.poke_free (s : State) (k : Nat) (bs : List Byte) : (s.poke k bs).free = s.free := rfl
@[simp] theorem State.poke_nextId (s : State) (k : Nat) (bs : List Byte) : (s.poke k bs).nextId = s.nextId := rfl
@[simp] theorem State.poke_limit (s : State) (k : Nat) (bs : List Byte) : (s.poke k bs).limit = s.limit := rfl
@[simp] theorem State.poke_cycle (s : State) (k : Nat) (bs : List Byte) : (s.poke k bs).cycle = s.cycle := rfl
@[simp] theorem State.poke_ticket (s : State) (k : Nat) (bs : List Byte) : (s.poke k bs).ticket = s.ticket := rfl
@[simp] theorem State.poke_record (s : State) (k : Nat) (bs : List Byte) : (s.poke k bs).record = s.record := rfl
@[simp] theorem State.poke_harts (s : State) (k : Nat) (bs : List Byte) : (s.poke k bs).harts = s.harts := rfl
@[simp] theorem State.poke_div (s : State) (k : Nat) (bs : List Byte) : (s.poke k bs).div = s.div := rfl
@[simp] theorem State.poke_mxBusy (s : State) (k : Nat) (bs : List Byte) : (s.poke k bs).mxBusy = s.mxBusy := rfl
@[simp] theorem State.poke_mxTurn (s : State) (k : Nat) (bs : List Byte) : (s.poke k bs).mxTurn = s.mxTurn := rfl
@[simp] theorem State.poke_l1 (s : State) (k : Nat) (bs : List Byte) : (s.poke k bs).l1 = s.l1 := rfl
@[simp] theorem State.poke_plates (s : State) (k : Nat) (bs : List Byte) : (s.poke k bs).plates = s.plates := rfl
@[simp] theorem State.poke_preg (s : State) (k : Nat) (bs : List Byte) : (s.poke k bs).preg = s.preg := rfl
@[simp] theorem State.poke_mg (s : State) (k : Nat) (bs : List Byte) : (s.poke k bs).mg = s.mg := rfl
@[simp] theorem State.poke_snap (s : State) (k : Nat) (bs : List Byte) : (s.poke k bs).snap = s.snap := rfl
@[simp] theorem State.poke_ridges (s : State) (k : Nat) (bs : List Byte) : (s.poke k bs).ridges = s.ridges := rfl
@[simp] theorem State.poke_seen (s : State) (k : Nat) (bs : List Byte) : (s.poke k bs).seen = s.seen := rfl
@[simp] theorem State.poke_tlbs (s : State) (k : Nat) (bs : List Byte) : (s.poke k bs).tlbs = s.tlbs := rfl
@[simp] theorem State.poke_tlbInv (s : State) (k : Nat) (bs : List Byte) : (s.poke k bs).tlbInv = s.tlbInv := rfl
@[simp] theorem State.poke_vtts (s : State) (k : Nat) (bs : List Byte) : (s.poke k bs).vtts = s.vtts := rfl
@[simp] theorem State.poke_tdc (s : State) (k : Nat) (bs : List Byte) : (s.poke k bs).tdc = s.tdc := rfl
@[simp] theorem State.poke_granOwner (s : State) (k : Nat) (bs : List Byte) : (s.poke k bs).granOwner = s.granOwner := rfl
@[simp] theorem State.poke_qslots (s : State) (k : Nat) (bs : List Byte) : (s.poke k bs).qslots = s.qslots := rfl
@[simp] theorem State.poke_queues (s : State) (k : Nat) (bs : List Byte) : (s.poke k bs).queues = s.queues := rfl
@[simp] theorem State.poke_cmds (s : State) (k : Nat) (bs : List Byte) : (s.poke k bs).cmds = s.cmds := rfl
@[simp] theorem State.poke_insts (s : State) (k : Nat) (bs : List Byte) : (s.poke k bs).insts = s.insts := rfl
@[simp] theorem State.poke_parked (s : State) (k : Nat) (bs : List Byte) : (s.poke k bs).parked = s.parked := rfl
@[simp] theorem State.poke_ages (s : State) (k : Nat) (bs : List Byte) : (s.poke k bs).ages = s.ages := rfl
@[simp] theorem State.poke_trussResv (s : State) (k : Nat) (bs : List Byte) : (s.poke k bs).trussResv = s.trussResv := rfl
@[simp] theorem State.poke_bayResv (s : State) (k : Nat) (bs : List Byte) : (s.poke k bs).bayResv = s.bayResv := rfl
@[simp] theorem State.poke_copyq (s : State) (k : Nat) (bs : List Byte) : (s.poke k bs).copyq = s.copyq := rfl
@[simp] theorem State.poke_sillq (s : State) (k : Nat) (bs : List Byte) : (s.poke k bs).sillq = s.sillq := rfl
@[simp] theorem State.poke_shards (s : State) (k : Nat) (bs : List Byte) : (s.poke k bs).shards = s.shards := rfl
@[simp] theorem State.poke_rq (s : State) (k : Nat) (bs : List Byte) : (s.poke k bs).rq = s.rq := rfl
@[simp] theorem State.poke_credits (s : State) (k : Nat) (bs : List Byte) : (s.poke k bs).credits = s.credits := rfl
@[simp] theorem State.poke_notices (s : State) (k : Nat) (bs : List Byte) : (s.poke k bs).notices = s.notices := rfl

@[simp] theorem State.pokeNat_agenda (s : State) (k n v : Nat) : (s.pokeNat k n v).agenda = s.agenda := rfl
@[simp] theorem State.pokeNat_cur (s : State) (k n v : Nat) : (s.pokeNat k n v).cur = s.cur := rfl
@[simp] theorem State.pokeNat_ev (s : State) (k n v : Nat) : (s.pokeNat k n v).ev = s.ev := rfl
@[simp] theorem State.pokeNat_rr (s : State) (k n v : Nat) : (s.pokeNat k n v).rr = s.rr := rfl
@[simp] theorem State.pokeNat_free (s : State) (k n v : Nat) : (s.pokeNat k n v).free = s.free := rfl
@[simp] theorem State.pokeNat_nextId (s : State) (k n v : Nat) : (s.pokeNat k n v).nextId = s.nextId := rfl
@[simp] theorem State.pokeNat_limit (s : State) (k n v : Nat) : (s.pokeNat k n v).limit = s.limit := rfl
@[simp] theorem State.pokeNat_cycle (s : State) (k n v : Nat) : (s.pokeNat k n v).cycle = s.cycle := rfl
@[simp] theorem State.pokeNat_ticket (s : State) (k n v : Nat) : (s.pokeNat k n v).ticket = s.ticket := rfl
@[simp] theorem State.pokeNat_record (s : State) (k n v : Nat) : (s.pokeNat k n v).record = s.record := rfl
@[simp] theorem State.pokeNat_harts (s : State) (k n v : Nat) : (s.pokeNat k n v).harts = s.harts := rfl
@[simp] theorem State.pokeNat_div (s : State) (k n v : Nat) : (s.pokeNat k n v).div = s.div := rfl
@[simp] theorem State.pokeNat_mxBusy (s : State) (k n v : Nat) : (s.pokeNat k n v).mxBusy = s.mxBusy := rfl
@[simp] theorem State.pokeNat_mxTurn (s : State) (k n v : Nat) : (s.pokeNat k n v).mxTurn = s.mxTurn := rfl
@[simp] theorem State.pokeNat_l1 (s : State) (k n v : Nat) : (s.pokeNat k n v).l1 = s.l1 := rfl
@[simp] theorem State.pokeNat_plates (s : State) (k n v : Nat) : (s.pokeNat k n v).plates = s.plates := rfl
@[simp] theorem State.pokeNat_preg (s : State) (k n v : Nat) : (s.pokeNat k n v).preg = s.preg := rfl
@[simp] theorem State.pokeNat_mg (s : State) (k n v : Nat) : (s.pokeNat k n v).mg = s.mg := rfl
@[simp] theorem State.pokeNat_snap (s : State) (k n v : Nat) : (s.pokeNat k n v).snap = s.snap := rfl
@[simp] theorem State.pokeNat_ridges (s : State) (k n v : Nat) : (s.pokeNat k n v).ridges = s.ridges := rfl
@[simp] theorem State.pokeNat_seen (s : State) (k n v : Nat) : (s.pokeNat k n v).seen = s.seen := rfl
@[simp] theorem State.pokeNat_tlbs (s : State) (k n v : Nat) : (s.pokeNat k n v).tlbs = s.tlbs := rfl
@[simp] theorem State.pokeNat_tlbInv (s : State) (k n v : Nat) : (s.pokeNat k n v).tlbInv = s.tlbInv := rfl
@[simp] theorem State.pokeNat_vtts (s : State) (k n v : Nat) : (s.pokeNat k n v).vtts = s.vtts := rfl
@[simp] theorem State.pokeNat_tdc (s : State) (k n v : Nat) : (s.pokeNat k n v).tdc = s.tdc := rfl
@[simp] theorem State.pokeNat_granOwner (s : State) (k n v : Nat) : (s.pokeNat k n v).granOwner = s.granOwner := rfl
@[simp] theorem State.pokeNat_qslots (s : State) (k n v : Nat) : (s.pokeNat k n v).qslots = s.qslots := rfl
@[simp] theorem State.pokeNat_queues (s : State) (k n v : Nat) : (s.pokeNat k n v).queues = s.queues := rfl
@[simp] theorem State.pokeNat_cmds (s : State) (k n v : Nat) : (s.pokeNat k n v).cmds = s.cmds := rfl
@[simp] theorem State.pokeNat_insts (s : State) (k n v : Nat) : (s.pokeNat k n v).insts = s.insts := rfl
@[simp] theorem State.pokeNat_parked (s : State) (k n v : Nat) : (s.pokeNat k n v).parked = s.parked := rfl
@[simp] theorem State.pokeNat_ages (s : State) (k n v : Nat) : (s.pokeNat k n v).ages = s.ages := rfl
@[simp] theorem State.pokeNat_trussResv (s : State) (k n v : Nat) : (s.pokeNat k n v).trussResv = s.trussResv := rfl
@[simp] theorem State.pokeNat_bayResv (s : State) (k n v : Nat) : (s.pokeNat k n v).bayResv = s.bayResv := rfl
@[simp] theorem State.pokeNat_copyq (s : State) (k n v : Nat) : (s.pokeNat k n v).copyq = s.copyq := rfl
@[simp] theorem State.pokeNat_sillq (s : State) (k n v : Nat) : (s.pokeNat k n v).sillq = s.sillq := rfl
@[simp] theorem State.pokeNat_shards (s : State) (k n v : Nat) : (s.pokeNat k n v).shards = s.shards := rfl
@[simp] theorem State.pokeNat_rq (s : State) (k n v : Nat) : (s.pokeNat k n v).rq = s.rq := rfl
@[simp] theorem State.pokeNat_credits (s : State) (k n v : Nat) : (s.pokeNat k n v).credits = s.credits := rfl
@[simp] theorem State.pokeNat_notices (s : State) (k n v : Nat) : (s.pokeNat k n v).notices = s.notices := rfl

theorem State.poke_mem (s : State) (k : Nat) (bs : List Byte) : (s.poke k bs).mem = memWrite s.mem k bs := rfl
theorem State.pokeNat_mem (s : State) (k n v : Nat) : (s.pokeNat k n v).mem = memWrite s.mem k (toBytes n v) := rfl

/-! Reading back. -/

@[simp] theorem State.hart_setHart_self (s : State) (h : Nat) (v : Hart) : (s.setHart h v).hart h = v := by
  simp [State.hart, State.setHart]

theorem State.hart_setHart_ne (s : State) (h g : Nat) (v : Hart) (hg : g ≠ h) : (s.setHart h v).hart g = s.hart g := by
  simp [State.hart, State.setHart, tgetD_tput_ne _ _ _ _ _ hg]

@[simp] theorem State.hart_modHart_self (s : State) (h : Nat) (f : Hart → Hart) : (s.modHart h f).hart h = f (s.hart h) := by
  simp [State.modHart]

theorem State.hart_modHart_ne (s : State) (h g : Nat) (f : Hart → Hart) (hg : g ≠ h) : (s.modHart h f).hart g = s.hart g :=
  s.hart_setHart_ne h g _ hg

@[simp] theorem State.hart_modA_self (s : State) (h : Nat) (f : ARegs → ARegs) :
    (s.modA h f).hart h = { s.hart h with a := f (s.hart h).a } := by simp [State.modA]
@[simp] theorem State.hart_modE_self (s : State) (h : Nat) (f : ERegs → ERegs) :
    (s.modE h f).hart h = { s.hart h with e := f (s.hart h).e } := by simp [State.modE]
@[simp] theorem State.hart_modM_self (s : State) (h : Nat) (f : MRegs → MRegs) :
    (s.modM h f).hart h = { s.hart h with m := f (s.hart h).m } := by simp [State.modM]
@[simp] theorem State.hart_modR_self (s : State) (h : Nat) (f : HRes → HRes) :
    (s.modR h f).hart h = { s.hart h with r := f (s.hart h).r } := by simp [State.modR]

theorem State.hart_modA_ne (s : State) (h g : Nat) (f : ARegs → ARegs) (hg : g ≠ h) : (s.modA h f).hart g = s.hart g :=
  s.hart_modHart_ne h g _ hg
theorem State.hart_modE_ne (s : State) (h g : Nat) (f : ERegs → ERegs) (hg : g ≠ h) : (s.modE h f).hart g = s.hart g :=
  s.hart_modHart_ne h g _ hg
theorem State.hart_modM_ne (s : State) (h g : Nat) (f : MRegs → MRegs) (hg : g ≠ h) : (s.modM h f).hart g = s.hart g :=
  s.hart_modHart_ne h g _ hg
theorem State.hart_modR_ne (s : State) (h g : Nat) (f : HRes → HRes) (hg : g ≠ h) : (s.modR h f).hart g = s.hart g :=
  s.hart_modHart_ne h g _ hg

@[simp] theorem State.hart_modPlate (s : State) (p h : Nat) (f : Plate → Plate) : (s.modPlate p f).hart h = s.hart h := rfl
@[simp] theorem State.hart_poke (s : State) (k h : Nat) (bs : List Byte) : (s.poke k bs).hart h = s.hart h := rfl

@[simp] theorem State.plate_modPlate_self (s : State) (p : Nat) (f : Plate → Plate) :
    (s.modPlate p f).plate p = f (s.plate p) := by simp [State.plate, State.modPlate]

theorem State.plate_modPlate_ne (s : State) (p q : Nat) (f : Plate → Plate) (hq : q ≠ p) :
    (s.modPlate p f).plate q = s.plate q := by simp [State.plate, State.modPlate, tgetD_tput_ne _ _ _ _ _ hq]

@[simp] theorem State.plate_setHart (s : State) (h p : Nat) (v : Hart) : (s.setHart h v).plate p = s.plate p := rfl
@[simp] theorem State.plate_modHart (s : State) (h p : Nat) (f : Hart → Hart) : (s.modHart h f).plate p = s.plate p := rfl

/-! Two changes of one record are one. -/

@[simp] theorem State.setHart_setHart (s : State) (h : Nat) (v w : Hart) : (s.setHart h v).setHart h w = s.setHart h w := by
  simp [State.setHart]

theorem State.modHart_modHart (s : State) (h : Nat) (f g : Hart → Hart) :
    (s.modHart h f).modHart h g = s.modHart h fun v => g (f v) := by simp [State.modHart]

theorem State.modPlate_modPlate (s : State) (p : Nat) (f g : Plate → Plate) :
    (s.modPlate p f).modPlate p g = s.modPlate p fun v => g (f v) := by
  have h : tgetD (tput s.plates p (f (s.plate p))) p Plate.zero = f (s.plate p) := tgetD_tput_self _ _ _ _
  simp only [State.modPlate, State.plate] at h ⊢
  simp [h]

end Sys2Proof.Machine
end

