-- ==== Sys2Proof/Laws/Access.lean ====
section
/-! SUPPORT. What translations, loads and stores change, said once: a translation touches only the tables' bits, the
translation caches and the error count; a store only its bytes and the dirty granules. -/

namespace Sys2Proof.Machine

/-- The two states differ at most in memory, its errors, the translation caches, the clean copies of the L1 caches and the free values
drawn. -/
def State.XlatFrame (s t : State) : Prop :=
  t = { s with mem := t.mem, bad := t.bad, l1 := t.l1, tlbs := t.tlbs, free := t.free }

theorem State.XlatFrame.refl (s : State) : s.XlatFrame s := rfl

theorem State.XlatFrame.trans {s t u : State} (h : s.XlatFrame t) (k : t.XlatFrame u) : s.XlatFrame u := by
  unfold State.XlatFrame at *
  rw [k, h]

theorem xlatFrame_poke (s : State) (k : Nat) (bs : List Byte) : s.XlatFrame (s.poke k bs) := rfl
theorem xlatFrame_pokeNat (s : State) (k n v : Nat) : s.XlatFrame (s.pokeNat k n v) := rfl
theorem xlatFrame_countUncorr (s : State) : s.XlatFrame s.countUncorr := rfl
theorem xlatFrame_orPte (s : State) (a b : Nat) : s.XlatFrame (s.orPte a b) := by
  unfold State.orPte
  simp only
  split <;> rfl

theorem xlatFrame_l1Drop (s : State) (bay : Nat) (p : Nat → Bool) : s.XlatFrame (s.l1Drop bay p) := by
  unfold State.l1Drop
  simp only
  split <;> rfl

theorem State.XlatFrame.caches (s : State) (t : Tab (List TlbEntry)) (f : Nat) : s.XlatFrame { s with tlbs := t, free := f } := rfl

theorem xlatFrame_tlbLookup (s : State) (id asid pt va : Nat) : s.XlatFrame (s.tlbLookup id asid pt va).2 := by
  unfold State.tlbLookup
  split
  · exact .refl s
  · split
    · exact .refl s
    · exact xlatFrame_countUncorr s
    · exact ((xlatFrame_orPte s _ _).trans (xlatFrame_l1Drop _ _ _)).trans (State.XlatFrame.caches _ _ _)

theorem xlatFrame_tlbDirty (s : State) (id pt : Nat) (plate : Bool) (k : Acc) (va : Nat) (e : TlbEntry) :
    s.XlatFrame (s.tlbDirty id pt plate k va e).2 := by
  unfold State.tlbDirty
  split
  · exact .refl s
  · split
    · rfl
    · rfl
    · exact ((xlatFrame_orPte s _ _).trans (xlatFrame_l1Drop _ _ _)).trans (State.XlatFrame.caches _ _ _)

theorem xlatFrame_xlat (s : State) (id asid pt : Nat) (plate : Bool) (k : Acc) (va : Nat) :
    s.XlatFrame (s.xlat id asid pt plate k va).2 := by
  unfold State.xlat
  have h := xlatFrame_tlbLookup s id asid pt va
  split
  · rename_i c s1 e
    rw [e] at h
    exact h
  · rename_i e s1 he
    rw [he] at h
    have h2 := xlatFrame_tlbDirty s1 id pt plate k va e
    split
    · rename_i c s2 e2
      rw [e2] at h2
      exact h.trans h2
    · rename_i e' s2 e2
      rw [e2] at h2
      split <;> exact h.trans h2

theorem xlatFrame_xlatPlate (s : State) (p : Nat) (k : Acc) (va : Nat) : s.XlatFrame (s.xlatPlate p k va).2 := by
  unfold State.xlatPlate
  split
  · split <;> exact .refl s
  · exact xlatFrame_xlat ..

theorem xlatFrame_paged (s : State) (ag : Agent) (k : Acc) (va : Nat) : s.XlatFrame (s.paged ag k va).2 := by
  unfold State.paged
  split
  · exact xlatFrame_xlatPlate ..
  · exact xlatFrame_xlat ..
  · exact xlatFrame_xlat ..

/-- The address checks and the translation of an access. -/
theorem xlatFrame_aXlat (s : State) (ag : Agent) (k : Acc) (va n : Nat) : s.XlatFrame (s.aXlat ag k va n).2 := by
  unfold State.aXlat
  split
  · exact .refl s
  · split <;> exact .refl s
  · split
    · exact xlatFrame_paged ..
    · exact .refl s

theorem State.XlatFrame.cur {s t : State} (h : s.XlatFrame t) : t.cur = s.cur := by rw [h]
theorem State.XlatFrame.harts {s t : State} (h : s.XlatFrame t) : t.harts = s.harts := by rw [h]
theorem State.XlatFrame.plates {s t : State} (h : s.XlatFrame t) : t.plates = s.plates := by rw [h]

theorem ofBytes_lt (l : List Byte) : ofBytes l < 256 ^ l.length := by
  induction l with
  | nil => simp [ofBytes]
  | cons b l ih =>
    simp only [ofBytes, List.length_cons, pow_succ]
    have := b.isLt
    omega

theorem length_memRead (m : List Host.Cell) (k n : Nat) : (memRead m k n).length = n := by
  induction n generalizing k with
  | zero => rfl
  | succ n ih => simp [memRead, ih]

theorem memRead_get (m : List Host.Cell) (k n i : Nat) (h : i < n) : (memRead m k n)[i]? = some (memGet m (k + i)) := by
  induction n generalizing k i with
  | zero => omega
  | succ n ih =>
    cases i with
    | zero => rfl
    | succ i =>
      simp only [memRead, List.getElem?_cons_succ]
      rw [ih _ _ (by omega), show k + 1 + i = k + (i + 1) by omega]

theorem ofBytes_byte (l : List Byte) (i : Nat) : BitVec.ofNat 8 (ofBytes l / 256 ^ i) = l.getD i 0 := by
  induction l generalizing i with
  | nil => simp [ofBytes]
  | cons b l ih =>
    cases i with
    | zero =>
      apply BitVec.eq_of_toNat_eq
      simp only [ofBytes, pow_zero, Nat.div_one, BitVec.toNat_ofNat, List.getD_cons_zero]
      have := b.isLt
      omega
    | succ i =>
      rw [List.getD_cons_succ, ← ih]
      congr 1
      rw [pow_succ', ← Nat.div_div_eq_div_mul]
      congr 1
      have := b.isLt
      simp only [ofBytes]
      omega

/-- Byte i of the value of n bytes of memory. -/
theorem nat_byte (s : State) (k n i : Nat) (h : i < n) : BitVec.ofNat 8 (s.nat k n / 256 ^ i) = s.byteOf (k + i) := by
  rw [State.nat, ofBytes_byte, List.getD_eq_getElem?_getD, memRead_get _ _ _ _ h]
  rfl

theorem nat_lt (s : State) (k n : Nat) : s.nat k n < 256 ^ n := by
  have := ofBytes_lt (memRead s.mem k n)
  rwa [length_memRead] at this

theorem length_toBytes (n v : Nat) : (toBytes n v).length = n := by
  induction n generalizing v with
  | zero => rfl
  | succ n ih => simp [toBytes, ih]

theorem toBytes_get (n v i : Nat) (h : i < n) : (toBytes n v)[i]? = some (BitVec.ofNat 8 (v / 256 ^ i)) := by
  induction n generalizing v i with
  | zero => omega
  | succ n ih =>
    cases i with
    | zero => simp [toBytes]
    | succ i =>
      simp only [toBytes, List.getElem?_cons_succ]
      rw [ih _ _ (by omega), pow_succ', Nat.div_div_eq_div_mul]

/-- A byte of memory after bytes have been put. -/
theorem byteOf_poke (s : State) (k : Nat) (bs : List Byte) (j : Nat) :
    (s.poke k bs).byteOf j = if k ≤ j ∧ j < k + bs.length then bs.getD (j - k) 0 else s.byteOf j := by
  unfold State.byteOf State.poke
  simp only
  split
  · rename_i h
    obtain ⟨i, rfl⟩ : ∃ i, j = k + i := ⟨j - k, by omega⟩
    rw [memGet_memWrite_in bs s.mem k i (by omega), Nat.add_sub_cancel_left, List.getD_eq_getElem _ _ (by omega)]
  · rename_i h
    exact memGet_memWrite_out bs s.mem k j (by omega)

theorem tget_map {α : Type} (t : Tab α) (f : Nat × α → Nat × α) (hf : ∀ p, (f p).1 = p.1) (k : Nat) :
    tget (t.map f) k = (tget t k).map fun v => (f (k, v)).2 := by
  induction t with
  | nil => rfl
  | cons p t ih =>
    obtain ⟨a, v⟩ := p
    have e := hf (a, v)
    have hb : f (a, v) = (a, (f (a, v)).2) := Prod.ext e rfl
    rw [List.map_cons, hb]
    simp only [tget]
    split
    · rename_i h
      subst h
      rfl
    · exact ih

/-- Marking granules dirty changes only the lists of dirty granules of harts. -/
theorem markDirty_eq (s : State) (k n : Nat) : s.markDirty k n = { s with harts := (s.markDirty k n).harts } := by
  unfold State.markDirty
  split <;> rfl

theorem markDirty_hart (s : State) (k n h : Nat) : (s.markDirty k n).hart h =
    { s.hart h with r := { (s.hart h).r with dirty := ((s.markDirty k n).hart h).r.dirty } } := by
  unfold State.markDirty
  split
  · simp only [State.hart, tgetD]
    rw [tget_map _ _ (by intro p; split <;> rfl)]
    cases tget s.harts h with
    | none => rfl
    | some v =>
      simp only [Option.map_some, Option.getD_some]
      split <;> rfl
  · rfl

theorem markDirty_not_scratch (s : State) (k n : Nat) (h : isScratch k = false) : s.markDirty k n = s := by
  rw [State.markDirty, h]; rfl

end Sys2Proof.Machine
end

