-- ==== Sys2Proof/Laws/Complete.lean ====
section
/-! SUPPORT. What the completion of an A-stream or plate instruction does, said once: State.aPop, State.aPut, State.goto,
State.advance and their composition State.aDone. -/

namespace Sys2Proof.Machine

/-! The pops. -/

/-- The queues after k n entries have left queue n, for each of the four. -/
theorem tgetD_popAll {α : Type} (t : Tab (List α)) (k : Nat → Nat) (q : Nat) (hq : q < 4) :
    tgetD ((List.range 4).foldl (fun t n => if k n = 0 then t else tput t n ((tgetD t n []).drop (k n))) t) q [] =
      (tgetD t q []).drop (k q) := by
  have h4 : List.range 4 = [0, 1, 2, 3] := rfl
  have key : ∀ (t : Tab (List α)) (n : Nat),
      tgetD (if k n = 0 then t else tput t n ((tgetD t n []).drop (k n))) q [] =
        if q = n then (tgetD t q []).drop (k q) else tgetD t q [] := by
    intro t n
    split
    · split
      · subst_vars; simp [*]
      · rfl
    · rw [tgetD_tput]
      split
      · subst_vars; rfl
      · rfl
  rw [h4]
  simp only [List.foldl_cons, List.foldl_nil, key]
  obtain rfl | rfl | rfl | rfl : q = 0 ∨ q = 1 ∨ q = 2 ∨ q = 3 := by omega
  all_goals simp

theorem portCount_of_not_any (q : Nat) (l : List RCode) (hq : q < 4) (h : l.any isPort = false) : portCount q l = 0 := by
  simp only [portCount, List.length_eq_zero_iff, List.filter_eq_nil_iff]
  intro c hc
  have := List.any_eq_false.1 h c hc
  simp only [isPort, Bool.and_eq_true, decide_eq_true_eq, not_and, Nat.not_le] at this
  simp only [beq_iff_eq]
  omega

/-- t is s with at most the record of hart h replaced. -/
def State.Local (s : State) (h : Nat) (t : State) : Prop := t = s ∨ ∃ v, t = s.setHart h v

theorem State.Local.setHart {s t : State} {h : Nat} (ht : s.Local h t) (w : Hart) : t.setHart h w = s.setHart h w := by
  obtain rfl | ⟨v, rfl⟩ := ht
  · rfl
  · simp

theorem State.Local.cur {s t : State} {h : Nat} (ht : s.Local h t) : t.cur = s.cur := by
  obtain rfl | ⟨v, rfl⟩ := ht <;> rfl

theorem State.Local.trans {s t u : State} {h : Nat} (ht : s.Local h t) (hu : t.Local h u) : s.Local h u := by
  obtain rfl | ⟨w, rfl⟩ := hu
  · exact ht
  · exact .inr ⟨w, ht.setHart w⟩

theorem State.local_modHart (s : State) (h : Nat) (f : Hart → Hart) : s.Local h (s.modHart h f) := .inr ⟨_, rfl⟩

/-- Popping changes only the EA queues of the executing hart. -/
theorem aPop_aStream (s : State) (srcs : List RCode) (h : Nat) (hc : s.cur = .aStream h) :
    s.Local h (s.aPop srcs) ∧ ∃ ea, (s.aPop srcs).hart h = { s.hart h with r := { (s.hart h).r with ea := ea } } ∧
      ∀ q, q < 4 → tgetD ea q [] = (s.eaOf h q).drop (portCount q srcs) := by
  unfold State.aPop
  split
  · simp only [hc]
    exact ⟨s.local_modHart h _, _, s.hart_modR_self h _, fun q hq => tgetD_popAll _ _ _ hq⟩
  · refine ⟨.inl rfl, (s.hart h).r.ea, rfl, fun q hq => ?_⟩
    rw [portCount_of_not_any _ _ hq (Bool.not_eq_true _ ▸ ‹¬ _›)]
    rfl

/-- Writing a result changes only an x register or an AE queue of the executing hart. -/
theorem aPut_aStream (s : State) (a : RCode) (v : W64) (h : Nat) (hc : s.cur = .aStream h)
    (ha : a = 0 ∨ 4 ≤ a.toNat) :
    s.Local h (s.aPut a v) ∧ ∃ x ae,
      (s.aPut a v).hart h = { s.hart h with a := { (s.hart h).a with x := x }, r := { (s.hart h).r with ae := ae } } ∧
      (∀ n, tgetD x n 0 = if 8 ≤ n ∧ a.toNat = n then v else tgetD (s.hart h).a.x n 0) ∧
      ∀ q, q < 4 → tgetD ae q [] = s.aeOf h q ++ if a.toNat = q + 4 then [AEntry.full (v.setWidth 1024)] else [] := by
  unfold State.aPut
  split
  · subst_vars
    refine ⟨.inl rfl, (s.hart h).a.x, (s.hart h).r.ae, rfl, fun n => ?_, fun q _ => ?_⟩
    · rw [if_neg (by simp; omega)]
    · simp [State.aeOf]
  · split
    · rename_i h0 hp
      simp only [isPort, Bool.and_eq_true, decide_eq_true_eq] at hp
      simp only [hc]
      refine ⟨s.local_modHart h _, (s.hart h).a.x, _, s.hart_modR_self h _, fun n => ?_, fun q _ => ?_⟩
      · rw [if_neg (by omega)]
      · rw [tgetD_tput]
        by_cases hq : q = a.toNat - 4
        · subst hq
          rw [if_pos rfl, if_pos (by omega)]
          rfl
        · rw [if_neg hq, if_neg (by omega)]
          simp [State.aeOf]
    · rename_i h0 hp
      simp only [isPort, Bool.and_eq_true, decide_eq_true_eq] at hp
      have h4 := ha.resolve_left h0
      simp only [hc]
      refine ⟨s.local_modHart h _, _, (s.hart h).r.ae, s.hart_modA_self h _, fun n => ?_, fun q _ => ?_⟩
      · rw [tgetD_tput]
        by_cases hn : n = a.toNat
        · rw [if_pos hn, if_pos (by omega)]
        · rw [if_neg hn, if_neg (by omega)]
      · rw [if_neg (by omega)]
        simp [State.aeOf]

/-- Completing at an address changes the pc, the wait and INSTRET of the executing stream. -/
theorem goto_aStream (s : State) (pc : W64) (h : Nat) (hc : s.cur = .aStream h) :
    s.goto pc = s.setHart h { s.hart h with
      a := { (s.hart h).a with pc := pc, wait := .none, instret := (s.hart h).a.instret + 1 } } := by
  simp only [State.goto, hc]
  rfl

/-- The same on a plate core. -/
theorem goto_plate (s : State) (pc : W64) (p : Nat) (hc : s.cur = .plate p) :
    s.goto pc = s.modPlate p fun c => { c with pc := pc, instret := c.instret + 1 } := by
  simp only [State.goto, hc]

theorem sameElsewhere_setHart (s : State) (h : Nat) (v : Hart) (hc : s.cur.hart? = some h) : s.SameElsewhere (s.setHart h v) where
  device := rfl
  harts g hg := s.hart_setHart_ne h g v (by rintro rfl; exact hg hc)
  plates _ _ := rfl

theorem sameElsewhere_modPlate (s : State) (p : Nat) (f : Plate → Plate) (hc : s.cur = .plate p) :
    s.SameElsewhere (s.modPlate p f) where
  device := rfl
  harts _ _ := rfl
  plates q hq := s.plate_modPlate_ne p q f (by rintro rfl; exact hq hc)

/-- The effect of completing at pc in an A-stream. -/
theorem doneAt_aStream (s : State) (srcs : List RCode) (a : RCode) (v pc : W64) (h : Nat) (hc : s.cur = .aStream h)
    (ha : a = 0 ∨ 4 ≤ a.toNat) : DoneAt s (((s.aPop srcs).aPut a v).goto pc) srcs a v pc := by
  obtain ⟨l1, ea, e1, q1⟩ := aPop_aStream s srcs h hc
  have c1 : (s.aPop srcs).cur = .aStream h := l1.cur.trans hc
  obtain ⟨l2, x, ae, e2, r2, q2⟩ := aPut_aStream (s.aPop srcs) a v h c1 ha
  have l := l1.trans l2
  have c2 : ((s.aPop srcs).aPut a v).cur = .aStream h := l.cur.trans hc
  rw [goto_aStream _ pc h c2, l.setHart]
  have hh : s.cur.hart? = some h := by rw [hc]; rfl
  have hv : ((s.aPop srcs).aPut a v).hart h = { s.hart h with
      a := { (s.hart h).a with x := x }, r := { (s.hart h).r with ea := ea, ae := ae } } := by rw [e2, e1]
  rw [hv]
  refine ⟨?_, ?_, fun n => ?_, fun g q hg hq => ?_, fun g q hg hq => ?_, ⟨fun g hg => ?_, fun p hp => ?_⟩, ?_⟩
  · simp [State.pcOf, hc]
  · simp [State.instretOf, hc]
  · have := r2 n
    rw [e1] at this
    simpa [State.regOf, hc] using this
  · obtain rfl : h = g := by simpa [hc] using hg
    simpa [State.eaOf] using q1 q hq
  · obtain rfl : h = g := by simpa [hc] using hg
    have := q2 q hq
    simp only [State.aeOf, e1] at this
    simpa [State.aeOf] using this
  · obtain rfl : h = g := by simpa [hh] using hg
    simp
  · simp [hc] at hp
  · exact sameElsewhere_setHart s h _ hh

/-- The effect of completing at pc on a plate core, which has no queue. -/
theorem doneAt_plate (s : State) (srcs : List RCode) (a : RCode) (v pc : W64) (p : Nat) (hc : s.cur = .plate p)
    (ha : a = 0 ∨ 8 ≤ a.toNat) : DoneAt s (((s.aPop srcs).aPut a v).goto pc) srcs a v pc := by
  have e1 : s.aPop srcs = s := by
    unfold State.aPop
    split
    · simp [hc]
    · rfl
  rw [e1]
  have e2 : ∃ x, (s.aPut a v).goto pc =
        s.modPlate p (fun c => { c with x := x, pc := pc, instret := c.instret + 1 }) ∧
      ∀ n, tgetD x n 0 = if 8 ≤ n ∧ a.toNat = n then v else tgetD (s.plate p).x n 0 := by
    obtain rfl | ha := ha
    · refine ⟨(s.plate p).x, ?_, fun n => ?_⟩
      · rw [State.aPut, if_pos rfl, goto_plate _ _ _ hc]
        rfl
      · rw [if_neg (by simp; omega)]
    · refine ⟨tput (s.plate p).x a.toNat v, ?_, fun n => ?_⟩
      · have hp : isPort a = false := by simp [isPort]; omega
        have h0 : a ≠ 0 := by rintro rfl; simp at ha
        rw [State.aPut, if_neg h0, hp]
        simp only [hc, Bool.false_eq_true, if_false]
        rw [goto_plate _ pc p (by simpa using hc), State.modPlate_modPlate]
        rfl
      · rw [tgetD_tput]
        by_cases hn : n = a.toNat
        · rw [if_pos hn, if_pos (by omega)]
        · rw [if_neg hn, if_neg (by omega)]
  obtain ⟨x, e2, r2⟩ := e2
  rw [e2]
  refine ⟨?_, ?_, fun n => ?_, fun g q hg hq => ?_, fun g q hg hq => ?_, ⟨fun g hg => ?_, fun q hq => ?_⟩, ?_⟩
  · simp [State.pcOf, hc]
  · simp [State.instretOf, hc]
  · simpa [State.regOf, hc] using r2 n
  · simp [hc] at hg
  · simp [hc] at hg
  · simp [hc, Agent.hart?] at hg
  · obtain rfl : p = q := by simpa [hc] using hq
    simp
  · exact sameElsewhere_modPlate s p _ hc

/-- The effect of completing at pc, for the agents that have an A-stream's instructions. -/
theorem doneAt (s : State) (srcs dsts : List RCode) (a : RCode) (v pc : W64) (he : s.cur.isE = false)
    (ha : a = 0 ∨ 4 ≤ a.toNat) (hr : s.aReady srcs dsts = true) (hd : a ∈ dsts ∨ a = 0) :
    DoneAt s (((s.aPop srcs).aPut a v).goto pc) srcs a v pc := by
  cases hc : s.cur with
  | aStream h => exact doneAt_aStream s srcs a v pc h hc ha
  | eStream h => simp [hc, Agent.isE] at he
  | plate p =>
    refine doneAt_plate s srcs a v pc p hc ?_
    obtain rfl | ha := ha
    · exact .inl rfl
    · obtain hd | hd := hd
      · simp only [State.aReady, hc, Bool.and_eq_true, Bool.not_eq_true'] at hr
        have := List.any_eq_false.1 hr.2 a hd
        simp only [isPort, Bool.and_eq_true, decide_eq_true_eq, not_and, Nat.not_le] at this
        exact .inr (by omega)
      · exact .inl hd

theorem pcOf_aPop (s : State) (srcs : List RCode) : (s.aPop srcs).pcOf s.cur = s.pcOf s.cur := by
  cases hc : s.cur with
  | aStream h =>
    obtain ⟨_, ea, e1, _⟩ := aPop_aStream s srcs h hc
    simp [State.pcOf, e1]
  | eStream h => unfold State.aPop; split <;> simp [hc]
  | plate p => unfold State.aPop; split <;> simp [hc]

theorem cur_aPop (s : State) (srcs : List RCode) : (s.aPop srcs).cur = s.cur := by
  unfold State.aPop
  split
  · split <;> simp [*]
  · rfl

theorem cur_aPut (s : State) (a : RCode) (v : W64) : (s.aPut a v).cur = s.cur := by
  unfold State.aPut
  split
  · rfl
  · split <;> split <;> simp [*]

theorem pcOf_aPut (s : State) (a : RCode) (v : W64) : (s.aPut a v).pcOf s.cur = s.pcOf s.cur := by
  unfold State.aPut
  split
  · rfl
  · split <;> cases hc : s.cur <;> simp [State.pcOf]

/-- The effect of State.aDone. -/
theorem aDone_done (s : State) (srcs dsts : List RCode) (a : RCode) (v : W64) (he : s.cur.isE = false)
    (ha : a = 0 ∨ 4 ≤ a.toNat) (hr : s.aReady srcs dsts = true) (hd : a ∈ dsts ∨ a = 0) :
    Done s (s.aDone srcs a v) srcs a v := by
  have h := doneAt s srcs dsts a v (s.pcOf s.cur + 4) he ha hr hd
  have e : s.aDone srcs a v = ((s.aPop srcs).aPut a v).goto (s.pcOf s.cur + 4) := by
    rw [State.aDone, State.advance, cur_aPut, cur_aPop]
    congr 2
    have := pcOf_aPut (s.aPop srcs) a v
    rw [cur_aPop] at this
    rw [this, pcOf_aPop]
  rw [Done, e]
  exact h

theorem aDone0_done (s : State) (srcs dsts : List RCode) (v : W64) (he : s.cur.isE = false)
    (hr : s.aReady srcs dsts = true) : Done s (s.aDone0 srcs) srcs 0 v := by
  have h := aDone_done s srcs dsts 0 v he (.inl rfl) hr (.inr rfl)
  rwa [State.aDone, State.aPut, if_pos rfl] at h

end Sys2Proof.Machine
end

