-- ==== Sys2Proof/Laws/EComplete.lean ====
section
/-! SUPPORT. What the completion of an E-stream instruction does, said once: State.eDone, and the element writes of
eMap and eWhole. -/

namespace Sys2Proof.Machine

/-! Element writes bit by bit. -/

@[simp] theorem lastWrite_nil (k : Nat) : lastWrite [] k = none := rfl

theorem lastWrite_append_single (ws : List (Nat × Nat)) (p : Nat × Nat) (k : Nat) :
    lastWrite (ws ++ [p]) k = if p.1 = k then some p.2 else lastWrite ws k := by
  simp only [lastWrite, List.reverse_append, List.reverse_cons, List.reverse_nil, List.nil_append, List.singleton_append,
    List.find?_cons]
  by_cases h : p.1 = k
  · simp [h]
  · have : (p.1 == k) = false := by simpa using h
    simp [this, h]

theorem applyWrites_append (w v : Nat) (ws us : List (Nat × Nat)) :
    applyWrites w v (ws ++ us) = applyWrites w (applyWrites w v ws) us := by simp [applyWrites]

theorem testBit_setElem (w v k x i : Nat) (hw : 0 < w) :
    (setElem w v k x).testBit i = if i / w = k then x.testBit (i % w) else v.testBit i := by
  rw [setElem, testBit_setFld]
  have hd := Nat.div_add_mod i w
  have hm := Nat.mod_lt i hw
  by_cases h : i / w = k
  · rw [if_pos h, if_pos (by subst h; omega)]
    congr 1
    subst h
    omega
  · rw [if_neg h, if_neg]
    rintro ⟨h1, h2⟩
    apply h
    apply Nat.div_eq_of_lt_le
    · rw [Nat.mul_comm]; exact h1
    · rw [Nat.add_mul, Nat.one_mul, Nat.mul_comm]; exact h2

theorem testBit_applyWrites (w v : Nat) (ws : List (Nat × Nat)) (i : Nat) (hw : 0 < w) :
    (applyWrites w v ws).testBit i = match lastWrite ws (i / w) with
      | some x => x.testBit (i % w)
      | none => v.testBit i := by
  induction ws using List.reverseRecOn with
  | nil => simp [applyWrites]
  | append_singleton ws p ih =>
    rw [applyWrites_append, lastWrite_append_single]
    simp only [applyWrites, List.foldl_cons, List.foldl_nil] at ih ⊢
    rw [testBit_setElem _ _ _ _ _ hw]
    by_cases h : p.1 = i / w
    · rw [if_pos h.symm, if_pos h]
    · rw [if_neg (fun e => h e.symm), if_neg h, ih]

/-- Writes give the image that their last values describe. -/
theorem imageIs_applyWrites (w n v : Nat) (ws : List (Nat × Nat)) (hw : 0 < w) :
    ImageIs w n (applyWrites w v ws) v (lastWrite ws) := fun i _ => testBit_applyWrites w v ws i hw

theorem ImageIs.mono {w n m new old new' old' : Nat} {val : Nat → Option Nat} (h : ImageIs w n new old val) (hm : m ≤ n)
    (hn : ∀ i, i < m → new'.testBit i = new.testBit i) (ho : ∀ i, i < m → old'.testBit i = old.testBit i) :
    ImageIs w m new' old' val := by
  intro i hi
  rw [hn i hi, h i (by omega)]
  split
  · rfl
  · rw [ho i hi]

theorem testBit_cutV (vlen v i : Nat) : (cutV vlen v).testBit i = (decide (i < vlen) && v.testBit i) := by
  rw [cutV, Nat.testBit_mod_two_pow]

/-! Registers. -/

theorem putReg_cases (e : ERegs) (c : RCode) (v : Nat) : e.putReg c v =
    if c.toNat < 8 then e
    else if c.toNat < 16 then { e with o := tput e.o (c.toNat - 8) (BitVec.ofNat 1024 v) }
    else { e with main := tput e.main (e.wb + (c.toNat - 16)) (BitVec.ofNat 1024 v) } := rfl

@[simp] theorem reg_putReg_self (e : ERegs) (c : RCode) (v : Nat) (hc : 8 ≤ c.toNat) :
    (e.putReg c v).reg c = BitVec.ofNat 1024 v := by
  have h4 : ¬ c.toNat < 4 := by omega
  have h8 : ¬ c.toNat < 8 := by omega
  by_cases h16 : c.toNat < 16
  · simp [ERegs.putReg, ERegs.reg, h4, h8, h16]
  · simp [ERegs.putReg, ERegs.reg, h4, h8, h16]

theorem main_putReg (e : ERegs) (c : RCode) (v n : Nat) (h : n ∉ touches e c 1) :
    tgetD (e.putReg c v).main n 0 = tgetD e.main n 0 := by
  rw [putReg_cases]
  simp only [touches] at h
  split
  · rfl
  · split
    · rfl
    · rename_i h16
      simp only [h16, if_false, span, List.range_one, List.map_cons, List.map_nil, List.mem_singleton, Nat.add_zero,
        max_self] at h
      simp only [tgetD_tput, h, if_false]

theorem o_putReg (e : ERegs) (c : RCode) (v n : Nat) (h : c.toNat ≠ n + 8) (_ : n < 8) :
    tgetD (e.putReg c v).o n 0 = tgetD e.o n 0 := by
  rw [putReg_cases]
  split
  · rfl
  · split
    · rw [tgetD_tput, if_neg (by omega)]
    · rfl

@[simp] theorem putReg_l (e : ERegs) (c : RCode) (v : Nat) : (e.putReg c v).l = e.l := by
  rw [putReg_cases]; split <;> [rfl; split <;> rfl]
@[simp] theorem putReg_mask (e : ERegs) (c : RCode) (v : Nat) : (e.putReg c v).mask = e.mask := by
  rw [putReg_cases]; split <;> [rfl; split <;> rfl]
@[simp] theorem putReg_fflags (e : ERegs) (c : RCode) (v : Nat) : (e.putReg c v).fflags = e.fflags := by
  rw [putReg_cases]; split <;> [rfl; split <;> rfl]

/-- Putting registers changes only those two tables. -/
theorem putReg_eq (e : ERegs) (c : RCode) (v : Nat) :
    e.putReg c v = { e with o := (e.putReg c v).o, main := (e.putReg c v).main } := by
  rw [putReg_cases]; split <;> [rfl; split <;> rfl]

/-- The table of main registers after a group has been put. -/
theorem tgetD_putMany (f : Nat → VReg) (b : Nat) (n : Nat) (g : Nat) (m : Tab VReg) :
    tgetD ((List.range g).foldl (fun m j => tput m (b + j) (f j)) m) n 0 =
      if b ≤ n ∧ n < b + g then f (n - b) else tgetD m n 0 := by
  induction g with
  | zero => simp
  | succ g ih =>
    rw [List.range_succ, List.foldl_append]
    simp only [List.foldl_cons, List.foldl_nil, tgetD_tput]
    rw [ih]
    by_cases h : n = b + g
    · subst h
      rw [if_pos rfl, if_pos (by omega)]
      congr 1
      omega
    · rw [if_neg h]
      by_cases h2 : b ≤ n ∧ n < b + g
      · rw [if_pos h2, if_pos (by omega)]
      · rw [if_neg h2, if_neg (by omega)]

theorem testBit_groupVal_aux (vlen : Nat) (f : Nat → Nat) (hf : ∀ j, f j < 2 ^ vlen) (g b i : Nat) :
    ((List.range' b g).foldr (fun j acc => f j + 2 ^ vlen * acc) 0).testBit i =
      (decide (i < vlen * g) && (f (b + i / vlen)).testBit (i % vlen)) := by
  induction g generalizing b i with
  | zero => simp
  | succ g ih =>
    rw [List.range'_succ, List.foldr_cons]
    rw [Nat.add_comm (f b), Nat.testBit_two_pow_mul_add _ (hf b)]
    by_cases h : i < vlen
    · rw [if_pos h, Nat.div_eq_of_lt h, Nat.mod_eq_of_lt h]
      have : i < vlen * (g + 1) := by rw [Nat.mul_succ]; omega
      simp [this]
    · rw [if_neg h, ih]
      obtain rfl | hv := Nat.eq_zero_or_pos vlen
      · simp
      · have e1 : (i - vlen) / vlen = i / vlen - 1 := by
          have := Nat.add_div_right (i - vlen) hv
          rw [Nat.sub_add_cancel (by omega)] at this
          rw [this, Nat.add_sub_cancel]
        have e2 : (i - vlen) % vlen = i % vlen := by
          have := Nat.add_mod_right (i - vlen) vlen
          rw [Nat.sub_add_cancel (by omega)] at this
          exact this.symm
        have e3 : 1 ≤ i / vlen := (Nat.one_le_div_iff hv).2 (by omega)
        rw [e1, e2]
        have e4 : b + 1 + (i / vlen - 1) = b + i / vlen := by omega
        rw [e4]
        congr 1
        simp only [decide_eq_decide]
        rw [Nat.mul_succ]
        omega

/-- A group bit by bit. -/
theorem testBit_groupVal (e : ERegs) (vlen : Nat) (c : RCode) (g i : Nat) (hg : 1 < g) :
    (e.groupVal vlen c g).testBit i = (decide (i < vlen * g) &&
      (cutV vlen (tgetD e.main (e.wb + (c.toNat - 16) + i / vlen) 0).toNat).testBit (i % vlen)) := by
  rw [ERegs.groupVal, if_neg (by omega), List.range_eq_range',
    testBit_groupVal_aux vlen (fun j => cutV vlen (tgetD e.main (e.wb + (c.toNat - 16) + j) 0).toNat)
      (fun j => Nat.mod_lt _ (by positivity)) g 0 i, Nat.zero_add]

theorem vlen_le (s : State) (h : Nat) : s.vlen h ≤ 1024 := by
  unfold State.vlen
  omega

/-- A group put and read back. -/
theorem testBit_groupVal_putGroup (e : ERegs) (vlen : Nat) (c : RCode) (g v i : Nat) (hg : 1 < g) (hv : vlen ≤ 1024) :
    ((e.putGroup vlen c g v).groupVal vlen c g).testBit i = (decide (i < vlen * g) && v.testBit i) := by
  rw [testBit_groupVal _ _ _ _ _ hg]
  by_cases h : i < vlen * g
  · have hp : 0 < vlen := by
      rcases Nat.eq_zero_or_pos vlen with h0 | h0
      · simp [h0] at h
      · exact h0
    have hd : i / vlen < g := Nat.div_lt_of_lt_mul h
    have hm := Nat.mod_lt i hp
    simp only [ERegs.putGroup, tgetD_putMany]
    rw [if_pos ⟨Nat.le_add_right _ _, Nat.add_lt_add_left hd _⟩, Nat.add_sub_cancel_left, testBit_cutV, BitVec.toNat_ofNat, Nat.testBit_mod_two_pow, testBit_fld]
    have : vlen * (i / vlen) + i % vlen = i := Nat.div_add_mod i vlen
    rw [this]
    have h2 : i % vlen < 1024 := by omega
    simp [h, hm, h2]
  · simp [h]

/-! The completion. -/

/-- What writeOut and the push do to a hart's registers and queues. -/
theorem dstDone (vlen : Nat) (hv : vlen ≤ 1024) (d : EDst) (ws : List (Nat × Nat)) (e : ERegs) (r : HRes)
    (hk : e.inside = false) (hw : ∀ c g w, d = .vec c g w → 0 < w ∨ vlen = 0)
    (hg : ∀ c g w, d = .vec c g w → 1 < g → 16 ≤ c.toNat) (e' : ERegs) (r' : HRes)
    (he : ∃ st, (st = (e.writeOut vlen d ws).2) ∧
      e'.main = (e.writeOut vlen d ws).1.main ∧ e'.o = (e.writeOut vlen d ws).1.o ∧
      e'.mask = (e.writeOut vlen d ws).1.mask ∧ e'.wb = e.wb ∧
      e'.l = (match st, d.port? with
        | some x, none => ((e.writeOut vlen d ws).1.pushL x).l
        | _, _ => (e.writeOut vlen d ws).1.l) ∧
      r'.ea = (match st, d.port? with
        | some x, some q => tput r.ea q (tgetD r.ea q [] ++ [w64 x])
        | _, _ => r.ea)) :
    DstDone vlen d e e' r r' (lastWrite ws) := by
  obtain ⟨st, hst, hmain, ho, hmask, hwb, hl, hea⟩ := he
  cases d with
  | none =>
    simp only [ERegs.writeOut] at hst hmain ho hmask hl hea
    subst hst
    refine ⟨by simp, fun n _ => by rw [hmask], by simp, fun _ => hea, by simp, fun _ => hl, by simp, fun n _ _ => by rw [ho],
      fun n _ => by rw [hmain]⟩
  | mask m =>
    simp only [ERegs.writeOut] at hst hmain ho hmask hl hea
    subst hst
    refine ⟨?_, ?_, by simp, fun _ => hea, by simp, fun _ => hl, by simp, fun n _ _ => by rw [ho], fun n _ => by rw [hmain]⟩
    · rintro m' hm
      obtain rfl : m = m' := by simpa using hm
      rw [hmask, tgetD_tput, if_pos rfl]
      refine (imageIs_applyWrites 1 2048 _ ws (by omega)).mono le_rfl (fun i hi => ?_) (fun i _ => rfl)
      rw [BitVec.toNat_ofNat, Nat.testBit_mod_two_pow]
      simp [hi]
    · intro n hn
      rw [hmask, tgetD_tput, if_neg (by rintro rfl; exact hn rfl)]
  | vec c g w =>
    have hw := hw c g w rfl
    have hg := hg c g w rfl
    by_cases hp : isPort c = true
    · have hc : 4 ≤ c.toNat ∧ c.toNat ≤ 7 := by simpa [isPort] using hp
      have hg1 : g ≤ 1 := by
        by_contra h
        have := hg (by omega)
        omega
      have hport : (EDst.vec c g w).port? = some (c.toNat - 4) := by simp [EDst.port?, hp]
      have hpr : ∀ v, e.putReg c v = e := fun v => by
        rw [putReg_cases, if_pos (by omega)]
      simp only [ERegs.writeOut, if_pos hg1, hport, hpr] at hst hmain ho hmask hl hea
      subst hst
      refine ⟨by simp, fun n _ => by rw [hmask], ?_, by simp [hport], ?_, fun _ => hl, ?_, fun n _ _ => by rw [ho],
        fun n _ => by rw [hmain]⟩
      · intro c' g' w' hd _
        simp only [EDst.vec.injEq] at hd
        obtain ⟨rfl, rfl, rfl⟩ := hd
        refine ⟨w64 (cutV vlen (applyWrites w (e.staged vlen c) ws)), fun q => ?_, ?_⟩
        · rw [hea, tgetD_tput]
          split
          · subst_vars; rfl
          · simp
        · obtain hw | hw := hw
          · refine (imageIs_applyWrites w _ 0 ws hw).mono le_rfl (fun i hi => ?_) (fun i _ => rfl)
            rw [w64, BitVec.toNat_ofNat, Nat.testBit_mod_two_pow, testBit_cutV]
            have h1 : i < 64 := by omega
            have h2 : i < vlen := by omega
            simp [h1, h2, ERegs.staged, hk, show c.toNat < 8 by omega]
          · intro i hi; omega
      · intro c' g' w' hd hp'
        simp only [EDst.vec.injEq] at hd
        obtain ⟨rfl, rfl, rfl⟩ := hd
        simp [hp] at hp'
      · intro c' g' w' hd hp'
        simp only [EDst.vec.injEq] at hd
        obtain ⟨rfl, rfl, rfl⟩ := hd
        simp [hp] at hp'
    · have hp : isPort c = false := by simpa using hp
      have hport : (EDst.vec c g w).port? = none := by simp [EDst.port?, hp]
      have hnp : ¬ (4 ≤ c.toNat ∧ c.toNat ≤ 7) := by simpa [isPort] using hp
      by_cases hg1 : g ≤ 1
      · simp only [ERegs.writeOut, if_pos hg1, hport] at hst hmain ho hmask hl hea
        subst hst
        refine ⟨by simp, fun n _ => by rw [hmask, putReg_mask], ?_, fun _ => hea, ?_, ?_, ?_, ?_, ?_⟩
        · intro c' g' w' hd hp'
          simp only [EDst.vec.injEq] at hd
          obtain ⟨rfl, rfl, rfl⟩ := hd
          simp [hp] at hp'
        · intro c' g' w' hd _ _
          simp only [EDst.vec.injEq] at hd
          obtain ⟨rfl, rfl, rfl⟩ := hd
          have hlt : ∀ x, cutV vlen x < 2 ^ vlen := fun x => Nat.mod_lt _ (by positivity)
          have hle : 2 ^ vlen ≤ 2 ^ 1024 := Nat.pow_le_pow_right (by omega) hv
          refine ⟨cutV vlen (applyWrites w (e.staged vlen c) ws), hlt _, ⟨?_, ?_, ?_, ?_⟩, ?_, fun h8 => ?_⟩
          · rw [hl]
            simp only [ERegs.pushL, tgetD, tget, if_true, Option.getD_some, BitVec.toNat_ofNat]
            exact Nat.mod_eq_of_lt (lt_of_lt_of_le (hlt _) hle)
          · rw [hl]; simp [ERegs.pushL, tgetD, tget]
          · rw [hl]; simp [ERegs.pushL, tgetD, tget]
          · rw [hl]; simp [ERegs.pushL, tgetD, tget]
          · obtain hw | hw := hw
            · refine (imageIs_applyWrites w _ (e.staged vlen c) ws hw).mono le_rfl (fun i hi => ?_) (fun i hi => ?_)
              · rw [testBit_cutV]; simp [hi]
              · simp only [ERegs.staged, hk, Bool.false_eq_true, if_false]
                split
                · rfl
                · rw [testBit_cutV]; simp [hi]
            · intro i hi; omega
          · have hr : e'.reg c = (e.putReg c (applyWrites w (cutV vlen (e.reg c).toNat) ws % 2 ^ vlen)).reg c := by
              simp only [ERegs.reg, hmain, ho, hwb]
              have h4 : ¬ c.toNat < 4 := by omega
              have hwb' : ∀ v, (e.putReg c v).wb = e.wb := fun v => by rw [putReg_eq]
              simp only [h4, if_false, hwb']
            rw [hr, reg_putReg_self _ _ _ h8, BitVec.toNat_ofNat]
            simp only [ERegs.staged, hk, Bool.false_eq_true, if_false, if_neg (show ¬ c.toNat < 8 by omega), cutV]
            exact Nat.mod_eq_of_lt (lt_of_lt_of_le (hlt _) hle)
        · intro h
          have := h c g w rfl
          simp [hp] at this
          omega
        · intro c' g' w' hd _ h1
          simp only [EDst.vec.injEq] at hd
          obtain ⟨rfl, rfl, rfl⟩ := hd
          omega
        · intro n h hn
          have := (h c g w rfl).resolve_left (by omega)
          rw [ho, o_putReg _ _ _ _ this hn]
        · intro n h
          have h := h c g w rfl
          rw [hmain, main_putReg]
          simpa only [touches, Nat.max_eq_left hg1, max_self] using h
      · simp only [ERegs.writeOut, if_neg hg1, hport] at hst hmain ho hmask hl hea
        subst hst
        have h16 := hg (by omega)
        refine ⟨by simp, fun n _ => by rw [hmask]; rfl, ?_, fun _ => hea, ?_, fun _ => hl, ?_, ?_, ?_⟩
        · intro c' g' w' hd hp'
          simp only [EDst.vec.injEq] at hd
          obtain ⟨rfl, rfl, rfl⟩ := hd
          simp [hp] at hp'
        · intro c' g' w' hd _ h1
          simp only [EDst.vec.injEq] at hd
          obtain ⟨rfl, rfl, rfl⟩ := hd
          omega
        · intro c' g' w' hd _ h1
          simp only [EDst.vec.injEq] at hd
          obtain ⟨rfl, rfl, rfl⟩ := hd
          have hgv : e'.groupVal vlen c g =
              (e.putGroup vlen c g (applyWrites w (e.groupVal vlen c g) ws)).groupVal vlen c g := by
            simp only [ERegs.groupVal, if_neg hg1, hmain, hwb]
            rfl
          rw [hgv]
          obtain hw | hw := hw
          · refine (imageIs_applyWrites w _ (e.groupVal vlen c g) ws hw).mono le_rfl (fun i hi => ?_) (fun i _ => rfl)
            rw [testBit_groupVal_putGroup _ _ _ _ _ _ h1 hv]
            simp [hi]
          · intro i hi
            simp [hw] at hi
        · intro n _ _
          rw [ho]; rfl
        · intro n h
          have h := h c g w rfl
          rw [hmain]
          simp only [ERegs.putGroup, tgetD_putMany]
          rw [if_neg]
          rintro ⟨h1, h2⟩
          apply h
          simp only [touches, if_neg (show ¬ c.toNat < 16 by omega), span, List.mem_map, List.mem_range]
          exact ⟨n - (e.wb + (c.toNat - 16)), by omega, by omega⟩

theorem groupCheck_16 (e : ERegs) (rsize : Nat) (c : RCode) (g : Nat) (h : groupCheck e rsize c g = none) (hg : 1 < g) :
    16 ≤ c.toNat := by
  by_contra hc
  simp only [groupCheck] at h
  rw [if_pos ⟨hg, by omega⟩] at h
  simp at h

theorem firstFail_none {l : List (Option Cause)} (h : firstFail l = none) : ∀ c ∈ l, c = none := by
  induction l with
  | nil => simp
  | cons c t ih =>
    cases c with
    | some c => simp [firstFail] at h
    | none =>
      simp only [firstFail] at h
      simpa using ih h

/-- What the checks of R267 admit of the destination: a group stands in main registers. -/
theorem dst_16_of_checks (s : State) (h : Nat) (op : EOp) (hc : s.eChecks h op = none) (c : RCode) (g w : Nat)
    (hd : op.dst = .vec c g w) (hg : 1 < g) : 16 ≤ c.toNat := by
  refine groupCheck_16 (s.hart h).e (s.hart h).id.rsize c g ?_ hg
  refine firstFail_none hc _ ?_
  simp only [List.mem_cons, List.mem_map, EOp.groups, hd]
  exact .inr (.inr ⟨(c, g), by simp, rfl⟩)

/-- The registers after the push, if there is one. -/
def ERegs.push? (e : ERegs) (st : Option Nat) (port : Option Nat) : ERegs :=
  match st, port with
  | some x, none => e.pushL x
  | _, _ => e

/-- The queues after the entry a port takes, if there is one. -/
def HRes.push? (r : HRes) (st : Option Nat) (port : Option Nat) : HRes :=
  match st, port with
  | some x, some q => { r with ea := tput r.ea q (tgetD r.ea q [] ++ [w64 x]) }
  | _, _ => r

theorem push?_eq (e : ERegs) (st port : Option Nat) : e.push? st port = { e with l := (e.push? st port).l } := by
  unfold ERegs.push?; split <;> rfl

theorem rpush?_eq (r : HRes) (st port : Option Nat) : r.push? st port = { r with ea := (r.push? st port).ea } := by
  unfold HRes.push?; split <;> rfl

theorem writeOut_eq (e : ERegs) (vlen : Nat) (d : EDst) (ws : List (Nat × Nat)) : (e.writeOut vlen d ws).1 =
    { e with o := (e.writeOut vlen d ws).1.o, main := (e.writeOut vlen d ws).1.main,
             mask := (e.writeOut vlen d ws).1.mask, bad := (e.writeOut vlen d ws).1.bad } := by
  unfold ERegs.writeOut
  split
  · rfl
  · rfl
  · split
    · simp only
      rw [putReg_eq]
    · rfl

/-- Registers without an uncorrectable error have none after writes (R128). -/
theorem writeOut_bad (e : ERegs) (vlen : Nat) (d : EDst) (ws : List (Nat × Nat)) (h : e.bad = []) :
    (e.writeOut vlen d ws).1.bad = [] := by
  unfold ERegs.writeOut
  split
  · exact h
  · exact h
  · split <;> simp [ERegs.badLeft, h]

/-- The next instruction of an E-stream whose hart has just been replaced. -/
theorem advance_eStream (s : State) (h : Nat) (v : Hart) (hc : s.cur = .eStream h) :
    (s.setHart h v).advance = s.setHart h { v with
      e := { v.e with pc := v.e.pc + 4, wait := .none }, a := { v.a with instret := v.a.instret + 1 } } := by
  have hc' : (s.setHart h v).cur = .eStream h := hc
  simp only [State.advance, State.goto, hc', State.pcOf, State.hart_setHart_self, State.modHart, State.setHart_setHart]

/-- The hart after State.eDone. -/
theorem hart_eDone (s : State) (h : Nat) (op : EOp) (o : EOut) (hc : s.cur = .eStream h) (hf : (s.hart h).e.Fresh) :
    s.eDone h op o = s.setHart h { s.hart h with
      a := { (s.hart h).a with instret := (s.hart h).a.instret + 1 }
      r := ((s.hart h).r.popE op.srcs).push? ((s.hart h).e.writeOut (s.vlen h) op.dst o.writes).2 op.dst.port?
      e := { (((s.hart h).e.writeOut (s.vlen h) op.dst o.writes).1.push?
          ((s.hart h).e.writeOut (s.vlen h) op.dst o.writes).2 op.dst.port?) with
        vstart := 0, kept := false, latch := [], latchQ := [], reserved := none, staging := none, prog := none, vsw := none,
        fflags := accrue (s.hart h).e.fflags o.flags, pc := (s.hart h).e.pc + 4, wait := .none } } := by
  have hin : (s.hart h).e.inside = false := by simp [ERegs.inside, hf.kept, hf.prog]
  have hv : (((s.hart h).e.writeOut (s.vlen h) op.dst o.writes).1.push?
      ((s.hart h).e.writeOut (s.vlen h) op.dst o.writes).2 op.dst.port?).vsw = none := by
    rw [push?_eq, writeOut_eq]
    exact hf.vsw
  have key : s.eDone h op o = (s.setHart h { s.hart h with
      r := ((s.hart h).r.popE op.srcs).push? ((s.hart h).e.writeOut (s.vlen h) op.dst o.writes).2 op.dst.port?
      e := { (((s.hart h).e.writeOut (s.vlen h) op.dst o.writes).1.push?
          ((s.hart h).e.writeOut (s.vlen h) op.dst o.writes).2 op.dst.port?).atBoundary 0 with
        fflags := accrue (((s.hart h).e.writeOut (s.vlen h) op.dst o.writes).1.push?
          ((s.hart h).e.writeOut (s.vlen h) op.dst o.writes).2 op.dst.port?).fflags o.flags } }).advance := by
    unfold State.eDone State.modHart
    simp only [Hart.popOnce, hin, Bool.false_eq_true, if_false]
    generalize (s.hart h).e.writeOut (s.vlen h) op.dst o.writes = x
    generalize op.dst.port? = y
    obtain ⟨e, st⟩ := x
    cases st <;> cases y <;> rfl
  rw [key, advance_eStream _ _ _ hc]
  simp only [ERegs.atBoundary, ERegs.unkeep, hv, vstartAfter]
  have hp : (((s.hart h).e.writeOut (s.vlen h) op.dst o.writes).1.push?
          ((s.hart h).e.writeOut (s.vlen h) op.dst o.writes).2 op.dst.port?).fflags = (s.hart h).e.fflags := by
    rw [push?_eq, writeOut_eq]
  have hq : (((s.hart h).e.writeOut (s.vlen h) op.dst o.writes).1.push?
          ((s.hart h).e.writeOut (s.vlen h) op.dst o.writes).2 op.dst.port?).pc = (s.hart h).e.pc := by
    rw [push?_eq, writeOut_eq]
  rw [hp, hq]

/-- The effect of State.eDone. -/
theorem eDone_done (s : State) (h : Nat) (op : EOp) (o : EOut) (hc : s.cur = .eStream h)
    (hf : (s.hart h).e.Fresh) (hx : s.eChecks h op = none)
    (hw : ∀ c g w, op.dst = .vec c g w → 0 < w ∨ s.vlen h = 0) :
    EDone s (s.eDone h op o) h op o.flags (lastWrite o.writes) := by
  have hv := vlen_le s h
  have hh : s.cur.hart? = some h := by rw [hc]; rfl
  have hin : (s.hart h).e.inside = false := by simp [ERegs.inside, hf.kept, hf.prog]
  have hpo : ∀ q, q < 4 → tgetD ((s.hart h).r.popE op.srcs).ae q [] = (tgetD (s.hart h).r.ae q []).drop (portCount q op.srcs) :=
    fun q hq => tgetD_popAll _ (fun n => portCount n op.srcs) _ hq
  rw [hart_eDone s h op o hc hf]
  refine ⟨?_, ?_, ?_, ?_, ?_, ?_, fun q hq => ?_, ?_, ?_, sameElsewhere_setHart s h _ hh⟩
  all_goals simp only [State.hart_setHart_self, State.aeOf]
  · exact ⟨trivial, trivial, trivial, trivial, trivial, trivial, trivial⟩
  · rfl
  · rw [rpush?_eq]
    exact hpo q hq
  · refine dstDone _ hv op.dst o.writes _ _ hin hw (fun c g w => dst_16_of_checks s h op hx c g w) _ _
      ⟨_, rfl, ?_, ?_, ?_, ?_, ?_, ?_⟩
    · simp only; rw [push?_eq]
    · simp only; rw [push?_eq]
    · simp only; rw [push?_eq]
    · simp only; rw [push?_eq, writeOut_eq]
    · simp only [ERegs.push?]; split <;> rfl
    · simp only [HRes.push?, HRes.popE]; split <;> rfl
  · unfold SameE
    simp only
    rw [rpush?_eq, push?_eq, writeOut_eq, writeOut_bad _ _ _ _ hf.bad, ← hf.bad]
    rfl

/-! The writes of a whole commit and of an element-wise computation. -/

/-- What the common frame does with an instruction that may complete (R149, R267). -/
theorem eRun_ready (i : Instr) (s : State) (h : Nat) (op : EOp) (vals : List VReg)
    (body : EIn → State → EBody) (hr : s.EReady h i op vals) (s' : State) (o : EOut)
    (hb : body (s.sees h op vals) s = .ok (s', o)) (ho : o.stop = none) (hp : o.pause = none) :
    eRun i s op noPre body = .next (s'.eDone h op o) := by
  have hh : s.curHart = h := by simp [State.curHart, hr.cur, Agent.hart?]
  have hin : (s.hart h).e.inside = false := by simp [ERegs.inside, hr.fresh.kept, hr.fresh.prog]
  have hbi : ∀ l, (s.hart h).e.badIn l = false := fun l => by simp [ERegs.badIn, hr.fresh.bad]
  have hbp : (s.hart h).e.badPart (s.vlen h) op.dst o.writes = false := by
    unfold ERegs.badPart
    split <;> simp [hr.fresh.bad]
  have hps : (s.hart h).pops op.srcs = .ready vals := by simp [Hart.pops, hin, hr.pops]
  have hbody : s.eBody (evalOf i) op body (.ready vals) = s'.eDone h op o := by
    unfold State.eBody
    simp only [hh, hbi, Bool.false_eq_true, if_false]
    rw [show body (s.eIn h op vals) s = .ok (s', o) from hb]
    simp only [hbp, Bool.false_eq_true, if_false, ho, hp]
  unfold eRun gate State.eFrame
  simp only [hr.gate, hh, hr.checks, noPre, hr.noTrap, hr.noRow, hps, hin, Bool.not_false, Bool.true_and, Bool.false_eq_true,
    if_false, hbody]
  have hroom := hr.room
  simp only [State.eaOf] at hroom
  cases hq : op.dst.port? with
  | none => simp
  | some q =>
    have := hroom q hq
    simp only [decide_eq_true_eq, if_neg (show ¬ 8 ≤ (tgetD (s.hart h).r.ea q []).length by omega)]

theorem enabled_zero (p : BitVec 5) : enabled p 0 = 0 := by simp [enabled]

/-- A whole commit without an enabled flag. -/
theorem eWhole_eq (x : EIn) (ws : List (Nat × Nat)) (fl : BitVec 5) (h : enabled x.e.fpen fl = 0) :
    eWhole x ws fl = { writes := ws, flags := fl, stop := none } := by
  rw [eWhole, if_neg (by simp [h])]

/-- The elements that the groups of ks compute, in order. -/
def groupElems (E vstart n : Nat) (active : Nat → Bool) (ks : List Nat) : List Nat :=
  (ks.flatMap fun k => span (k * E) E).filter fun i => decide (vstart ≤ i) && decide (i < n) && active i

theorem or_and (a b c : BitVec 5) : (a ||| b) &&& c = (a &&& c) ||| (b &&& c) := by
  ext i hi
  simp [Bool.and_or_distrib_right]

theorem zero_or5 (a : BitVec 5) : (0 : BitVec 5) ||| a = a := BitVec.zero_or

/-- Groups none of whose elements raises an enabled flag all commit. -/
theorem eGroups_eq (E vstart n : Nat) (fpen : BitVec 5) (active : Nat → Bool) (f : Nat → Nat × BitVec 5) (ks : List Nat)
    (o : EOut) (h : ∀ i ∈ groupElems E vstart n active ks, enabled fpen (f i).2 = 0) :
    eGroups E vstart n fpen active f ks o =
      { o with writes := o.writes ++ (groupElems E vstart n active ks).map fun i => (i, (f i).1)
               flags := o.flags ||| (groupElems E vstart n active ks).foldl (fun a i => a ||| (f i).2) 0 } := by
  induction ks generalizing o with
  | nil => simp [eGroups, groupElems]
  | cons k ks ih =>
    have hsplit : groupElems E vstart n active (k :: ks) =
        ((span (k * E) E).filter fun i => decide (vstart ≤ i) && decide (i < n) && active i) ++
          groupElems E vstart n active ks := by simp [groupElems]
    rw [hsplit] at h ⊢
    set is := (span (k * E) E).filter fun i => decide (vstart ≤ i) && decide (i < n) && active i with his
    have h1 : ∀ i ∈ is, enabled fpen (f i).2 = 0 := fun i hi => h i (List.mem_append_left _ hi)
    have h2 := fun i hi => h i (List.mem_append_right _ hi)
    have hfl : ∀ (l : List Nat) (a : BitVec 5), (∀ i ∈ l, enabled fpen (f i).2 = 0) → enabled fpen a = 0 →
        enabled fpen (l.foldl (fun a i => a ||| (f i).2) a) = 0 := by
      intro l
      induction l with
      | nil => intro a _ ha; exact ha
      | cons i l ih2 =>
        intro a hl ha
        refine ih2 _ (fun j hj => hl j (List.mem_cons_of_mem _ hj)) ?_
        have hi := hl i List.mem_cons_self
        simp only [enabled] at ha hi ⊢
        rw [or_and, ha, hi]
        rfl
    have hz := hfl is 0 h1 (enabled_zero _)
    have hm : (is.map fun i => (i, f i)).foldl (fun (a : BitVec 5) r => a ||| r.2.2) 0 =
        is.foldl (fun a i => a ||| (f i).2) 0 := by rw [List.foldl_map]
    rw [eGroups]
    simp only [← his]
    rw [hm, hz]
    simp only [ne_eq, not_true_eq_false, if_false]
    rw [ih _ h2]
    simp only [List.map_append, List.map_map, List.foldl_append, EOut.mk.injEq, and_true]
    constructor
    · rw [List.append_assoc]
      rfl
    · rw [BitVec.or_assoc]
      congr 1
      have : ∀ (l : List Nat) (a : BitVec 5), l.foldl (fun a i => a ||| (f i).2) a = a ||| l.foldl (fun a i => a ||| (f i).2) 0 := by
        intro l
        induction l with
        | nil => simp
        | cons i l ih3 =>
          intro a
          simp only [List.foldl_cons]
          rw [zero_or5, ih3, ih3 (f i).2, BitVec.or_assoc]
      exact (this _ _).symm

theorem mem_groupElems (E vstart n : Nat) (active : Nat → Bool) (hE : 0 < E) (i : Nat) :
    i ∈ groupElems E vstart n active (groupNos E vstart n) ↔ vstart ≤ i ∧ i < n ∧ active i = true := by
  simp only [groupElems, groupNos, span, List.mem_filter, List.mem_flatMap, List.mem_map, List.mem_range,
    Bool.and_eq_true, decide_eq_true_eq, and_assoc]
  constructor
  · rintro ⟨-, h⟩
    exact h
  · rintro ⟨h1, h2, h3⟩
    refine ⟨⟨i / E, ⟨i / E - vstart / E, ?_, ?_⟩, i % E, Nat.mod_lt _ hE, ?_⟩, h1, h2, h3⟩
    · have hle := Nat.div_le_div_right (c := E) h1
      have : i / E < ceilDiv n E := by
        rw [ceilDiv, Nat.div_lt_iff_lt_mul hE]
        have := Nat.div_add_mod (n + E - 1) E
        have := Nat.mod_lt (n + E - 1) hE
        have hc : (n + E - 1) / E * E = E * ((n + E - 1) / E) := Nat.mul_comm _ _
        omega
      omega
    · have hle := Nat.div_le_div_right (c := E) h1
      omega
    · have := Nat.div_add_mod i E
      rw [Nat.mul_comm] at this
      exact this

theorem lastWrite_map (l : List Nat) (g : Nat → Nat) (k : Nat) :
    lastWrite (l.map fun i => (i, g i)) k = if k ∈ l then some (g k) else none := by
  induction l using List.reverseRecOn with
  | nil => simp
  | append_singleton l i ih =>
    rw [List.map_append, List.map_singleton, lastWrite_append_single, ih]
    by_cases h : i = k
    · subst h; simp
    · have h' : k ≠ i := fun e => h e.symm
      simp [h, h']

theorem getLsbD_foldl_or (f : Nat → BitVec 5) (b : Nat) (l : List Nat) (a : BitVec 5) :
    (l.foldl (fun a i => a ||| f i) a).getLsbD b = true ↔ a.getLsbD b = true ∨ ∃ k ∈ l, (f k).getLsbD b = true := by
  induction l generalizing a with
  | nil => simp
  | cons i l ih =>
    rw [List.foldl_cons, ih]
    simp only [BitVec.getLsbD_or, Bool.or_eq_true, List.mem_cons, exists_eq_or_imp, or_assoc]

/-- The flags of two lists of the same elements are the same. -/
theorem foldl_or_congr (f : Nat → BitVec 5) (l l' : List Nat) (h : ∀ k, k ∈ l ↔ k ∈ l') :
    l.foldl (fun a i => a ||| f i) 0 = l'.foldl (fun a i => a ||| f i) 0 := by
  apply BitVec.eq_of_getLsbD_eq
  intro b _
  rw [Bool.eq_iff_iff, getLsbD_foldl_or, getLsbD_foldl_or]
  simp only [h]

/-- An element-wise computation, made whole, none of whose elements raises an enabled flag. -/
theorem eMap_ok (x : EIn) (E : Nat) (mk : BitVec 2) (f : Nat → Nat × BitVec 5) (hE : 0 < E)
    (hl : ∀ n, x.lim = some n → (groupNos E x.e.vstart x.e.vl).length ≤ n)
    (h : x.quiet mk fun k => (f k).2) :
    (eMap x E mk f).stop = none ∧ (eMap x E mk f).pause = none ∧ lastWrite (eMap x E mk f).writes = x.map mk (fun k => (f k).1) ∧
      (eMap x E mk f).flags = x.flags mk fun k => (f k).2 := by
  have hm := mem_groupElems E x.e.vstart x.e.vl (x.active mk) hE
  have hcut : x.cut (groupNos E x.e.vstart x.e.vl) = groupNos E x.e.vstart x.e.vl := by
    unfold EIn.cut; split
    · rename_i n hn; exact List.take_of_length_le (hl n hn)
    · rfl
  have hover : (x.lim.bind fun n => (groupNos E x.e.vstart x.e.vl)[n]?) = none := by
    cases hn : x.lim with
    | none => rfl
    | some n => exact List.getElem?_eq_none (hl n hn)
  simp only [eMap, hcut]
  rw [eGroups_eq _ _ _ _ _ _ _ _ fun i hi => h i ((hm i).1 hi)]
  simp only [EIn.over, hover, EOut.none, Option.isSome_none, Bool.false_eq_true, if_false, Option.map_none]
  refine ⟨trivial, trivial, ?_, ?_⟩
  · simp only [List.nil_append]
    funext k
    rw [lastWrite_map _ (fun i => (f i).1)]
    simp only [hm, EIn.map]
  · rw [zero_or5, EIn.flags]
    refine foldl_or_congr (fun k => (f k).2) _ _ fun k => ?_
    rw [hm, List.mem_filter, List.mem_range]
    simp only [Bool.and_eq_true, decide_eq_true_eq]
    tauto

theorem fmtWidth_pos {f : Nat} (h : f ≤ 13) : 0 < fmtWidth f := by
  interval_cases f <;> decide

theorem fmtWidth_le (f : Nat) : fmtWidth f ≤ 32 := by
  unfold fmtWidth; split <;> omega

theorem eSize_pos {w : Nat} (h : w ≤ 128) : 0 < eSize w := by
  unfold eSize
  apply Nat.div_pos <;> omega

/-- The checks of R267 admit the format of VTYPE. -/
theorem cls_of_checks (s : State) (h : Nat) (op : EOp) (cls : Nat → Bool) (hc : op.cls = some cls)
    (hx : s.eChecks h op = none) : (s.hart h).e.vill = false ∧ cls (s.hart h).e.fmt.toNat = true := by
  have := firstFail_none hx
  simp only [hc, List.mem_cons, forall_eq_or_imp] at this
  have h1 := this.1
  split at h1
  · simp at h1
  · rename_i hn
    simpa using hn

theorem w_pos_of_checks (s : State) (h : Nat) (op : EOp) (cls : Nat → Bool) (hc : op.cls = some cls)
    (hcls : ∀ f, cls f = true → f ≤ 13) (hx : s.eChecks h op = none) : 0 < (s.hart h).e.w :=
  fmtWidth_pos (hcls _ (cls_of_checks s h op cls hc hx).2)

/-- An instruction no group of which reads what an earlier one wrote executes all its groups in one turn. -/
theorem sees_lim {i : Instr} {s : State} {h : Nat} {op : EOp} {vals : List VReg} (hr : s.EReady h i op vals)
    (hc : op.clash = false) : (s.sees h op vals).lim = none := by
  simp [State.sees, State.eIn, EOp.groupLimit, hc, hr.whole]

/-- It does so too where it has no more than one group. -/
theorem sees_groups {i : Instr} {s : State} {h : Nat} {op : EOp} {vals : List VReg} (hr : s.EReady h i op vals)
    (E : Nat) (hE : 0 < E)
    (hc : op.clash = true → (s.hart h).e.vl ≤ ((s.hart h).e.vstart / E + 1) * E) (n : Nat)
    (hn : (s.sees h op vals).lim = some n) :
    (groupNos E (s.sees h op vals).e.vstart (s.sees h op vals).e.vl).length ≤ n := by
  have hv : (s.sees h op vals).e = (s.hart h).e := by
    simp only [State.sees, State.eIn, ERegs.view, hr.fresh.prog]
  cases hx : op.clash with
  | false => rw [sees_lim hr hx] at hn; cases hn
  | true =>
    have h1 : n = 1 := by
      simp [State.sees, State.eIn, EOp.groupLimit, hx, hr.whole] at hn; omega
    have h2 := hc hx
    subst h1
    rw [hv]
    simp only [groupNos, span, List.length_map, List.length_range, ceilDiv]
    have h3 : ((s.hart h).e.vl + E - 1) / E ≤ (s.hart h).e.vstart / E + 1 := by
      rw [Nat.div_le_iff_le_mul_add_pred hE]
      have : E * ((s.hart h).e.vstart / E + 1) = ((s.hart h).e.vstart / E + 1) * E := Nat.mul_comm _ _
      omega
    omega

/-- Groups of one size that the checks admit do not overlap unless they are the same (R214). -/
theorem clash_same (s : State) (h : Nat) (op : EOp) (a : RCode) (g w : Nat) (hd : op.dst = .vec a g w)
    (hv : ∀ p ∈ op.vecs, p.2 = g) (hs : op.scal = []) (hx : s.eChecks h op = none) : op.clash = false := by
  have hck : ∀ p ∈ op.groups, groupCheck (s.hart h).e (s.hart h).id.rsize p.1 p.2 = none := by
    intro p hp
    refine firstFail_none hx _ ?_
    simp only [List.mem_cons, List.mem_map]
    exact .inr (.inr ⟨p, hp, rfl⟩)
  have hal : ∀ c : RCode, groupCheck (s.hart h).e (s.hart h).id.rsize c g = none → 1 < g → 16 ≤ c.toNat ∧ (c.toNat - 16) % g = 0 := by
    intro c hc hg
    unfold groupCheck at hc
    simp only at hc
    split at hc <;> [cases hc; skip]
    split at hc <;> [cases hc; skip]
    rename_i h1 h2
    exact ⟨by omega, by_contra fun h => h2 ⟨hg, h⟩⟩
  simp only [EOp.groups, hd] at hck
  have ha := hck (a, g) (by simp)
  simp only [EOp.clash, hd, Bool.and_eq_false_iff, List.any_eq_false, hs, List.contains_nil, Bool.not_false, Bool.and_true,
    Bool.and_eq_true, decide_eq_true_eq, Bool.not_eq_true']
  refine .inr fun p hp hh => ?_
  obtain ⟨⟨⟨h1, h2⟩, h3⟩, h4⟩ := hh
  have hg := hv p hp
  have hb := hck p (List.mem_cons_of_mem _ hp)
  rw [hg] at h3 h4 hb
  have hne : p.1 ≠ a := by simpa using h4
  apply hne
  apply BitVec.eq_of_toNat_eq
  by_cases h5 : 1 < g
  · obtain ⟨a1, a2⟩ := hal a ha h5
    obtain ⟨b1, b2⟩ := hal p.1 hb h5
    rw [Nat.max_eq_right (by omega)] at h2 h3
    obtain ⟨x, hx⟩ := Nat.dvd_of_mod_eq_zero a2
    obtain ⟨y, hy⟩ := Nat.dvd_of_mod_eq_zero b2
    have e1 : y < x + 1 := by
      by_contra hc
      have := Nat.mul_le_mul_left g (show x + 1 ≤ y by omega)
      rw [Nat.mul_add] at this; omega
    have e2 : x < y + 1 := by
      by_contra hc
      have := Nat.mul_le_mul_left g (show y + 1 ≤ x by omega)
      rw [Nat.mul_add] at this; omega
    have : x = y := by omega
    subst this; omega
  · have : max 1 g = 1 := by omega
    rw [this] at h2 h3; omega

/-- An element-wise instruction completes: the effect of eRun over eMap. -/
theorem eMap_done (i : Instr) (s : State) (h : Nat) (op : EOp) (vals : List VReg)
    (body : EIn → State → EBody) (hr : s.EReady h i op vals) (E : Nat) (m : BitVec 2)
    (f : Nat → Nat × BitVec 5) (hE : 0 < E) (hb : body (s.sees h op vals) s = .ok (s, eMap (s.sees h op vals) E m f))
    (hq : (s.sees h op vals).quiet m fun k => (f k).2) (hw : ∀ c g w, op.dst = .vec c g w → 0 < w ∨ s.vlen h = 0)
    (hc : op.clash = true → (s.hart h).e.vl ≤ ((s.hart h).e.vstart / E + 1) * E) :
    ∃ t, eRun i s op noPre body = .next t ∧
      EDone s t h op ((s.sees h op vals).flags m fun k => (f k).2) ((s.sees h op vals).map m fun k => (f k).1) := by
  obtain ⟨h1, h2, h3, h4⟩ := eMap_ok (s.sees h op vals) E m f hE (sees_groups hr E hE hc) hq
  refine ⟨_, eRun_ready i s h op vals body hr s _ hb h1 h2, ?_⟩
  have := eDone_done s h op (eMap (s.sees h op vals) E m f) hr.cur hr.fresh hr.checks hw
  rwa [h3, h4] at this

/-- A whole commit completes. -/
theorem eWhole_done (i : Instr) (s s' : State) (h : Nat) (op : EOp) (vals : List VReg)
    (body : EIn → State → EBody) (hr : s.EReady h i op vals) (ws : List (Nat × Nat))
    (fl : BitVec 5) (hb : body (s.sees h op vals) s = .ok (s', ⟨ws, fl, none, none⟩)) (hs : s'.cur = s.cur)
    (hk : (s'.hart h).e.Fresh) (hx : s'.eChecks h op = none)
    (hw : ∀ c g w, op.dst = .vec c g w → 0 < w ∨ s'.vlen h = 0) :
    ∃ t, eRun i s op noPre body = .next t ∧ EDone s' t h op fl (lastWrite ws) :=
  ⟨_, eRun_ready i s h op vals body hr s' _ hb rfl rfl, eDone_done s' h op _ (hs.trans hr.cur) hk hx hw⟩

theorem flags_zero (x : EIn) (m : BitVec 2) : x.flags m (fun _ => 0) = 0 := by
  apply BitVec.eq_of_getLsbD_eq
  intro b _
  rw [EIn.flags, Bool.eq_iff_iff, getLsbD_foldl_or]
  simp

theorem quiet_zero (x : EIn) (m : BitVec 2) : x.quiet m fun _ => 0 := fun _ _ => BitVec.zero_and

end Sys2Proof.Machine
end

