-- ==== Sys2Proof/Laws/Exec.lean ====
section
/-! SUPPORT. The meaning that exec gives each constructor, one equation per constructor, so that no proof unfolds the
dispatch. -/

namespace Sys2Proof.Machine

theorem exec_add (s : State) {a} {b} {c} : exec (.add a b c) s = execAdd a b c s := rfl
theorem exec_sub (s : State) {a} {b} {c} : exec (.sub a b c) s = execSub a b c s := rfl
theorem exec_and (s : State) {a} {b} {c} : exec (.and a b c) s = execAnd a b c s := rfl
theorem exec_or (s : State) {a} {b} {c} : exec (.or a b c) s = execOr a b c s := rfl
theorem exec_xor (s : State) {a} {b} {c} : exec (.xor a b c) s = execXor a b c s := rfl
theorem exec_andn (s : State) {a} {b} {c} : exec (.andn a b c) s = execAndn a b c s := rfl
theorem exec_orn (s : State) {a} {b} {c} : exec (.orn a b c) s = execOrn a b c s := rfl
theorem exec_xnor (s : State) {a} {b} {c} : exec (.xnor a b c) s = execXnor a b c s := rfl
theorem exec_sll (s : State) {a} {b} {c} : exec (.sll a b c) s = execSll a b c s := rfl
theorem exec_srl (s : State) {a} {b} {c} : exec (.srl a b c) s = execSrl a b c s := rfl
theorem exec_sra (s : State) {a} {b} {c} : exec (.sra a b c) s = execSra a b c s := rfl
theorem exec_rol (s : State) {a} {b} {c} : exec (.rol a b c) s = execRol a b c s := rfl
theorem exec_ror (s : State) {a} {b} {c} : exec (.ror a b c) s = execRor a b c s := rfl
theorem exec_slt (s : State) {a} {b} {c} : exec (.slt a b c) s = execSlt a b c s := rfl
theorem exec_sltu (s : State) {a} {b} {c} : exec (.sltu a b c) s = execSltu a b c s := rfl
theorem exec_min (s : State) {a} {b} {c} : exec (.min a b c) s = execMin a b c s := rfl
theorem exec_max (s : State) {a} {b} {c} : exec (.max a b c) s = execMax a b c s := rfl
theorem exec_minu (s : State) {a} {b} {c} : exec (.minu a b c) s = execMinu a b c s := rfl
theorem exec_maxu (s : State) {a} {b} {c} : exec (.maxu a b c) s = execMaxu a b c s := rfl
theorem exec_mul (s : State) {a} {b} {c} : exec (.mul a b c) s = execMul a b c s := rfl
theorem exec_mulh (s : State) {a} {b} {c} : exec (.mulh a b c) s = execMulh a b c s := rfl
theorem exec_mulhu (s : State) {a} {b} {c} : exec (.mulhu a b c) s = execMulhu a b c s := rfl
theorem exec_div (s : State) {a} {b} {c} : exec (.div a b c) s = execDiv a b c s := rfl
theorem exec_divu (s : State) {a} {b} {c} : exec (.divu a b c) s = execDivu a b c s := rfl
theorem exec_rem (s : State) {a} {b} {c} : exec (.rem a b c) s = execRem a b c s := rfl
theorem exec_remu (s : State) {a} {b} {c} : exec (.remu a b c) s = execRemu a b c s := rfl
theorem exec_clz (s : State) {a} {b} : exec (.clz a b) s = execClz a b s := rfl
theorem exec_ctz (s : State) {a} {b} : exec (.ctz a b) s = execCtz a b s := rfl
theorem exec_popc (s : State) {a} {b} : exec (.popc a b) s = execPopc a b s := rfl
theorem exec_clmul (s : State) {a} {b} {c} : exec (.clmul a b c) s = execClmul a b c s := rfl
theorem exec_clmulh (s : State) {a} {b} {c} : exec (.clmulh a b c) s = execClmulh a b c s := rfl
theorem exec_addi (s : State) {a} {b} {i} : exec (.addi a b i) s = execAddi a b i s := rfl
theorem exec_andi (s : State) {a} {b} {i} : exec (.andi a b i) s = execAndi a b i s := rfl
theorem exec_ori (s : State) {a} {b} {i} : exec (.ori a b i) s = execOri a b i s := rfl
theorem exec_xori (s : State) {a} {b} {i} : exec (.xori a b i) s = execXori a b i s := rfl
theorem exec_slti (s : State) {a} {b} {i} : exec (.slti a b i) s = execSlti a b i s := rfl
theorem exec_sltiu (s : State) {a} {b} {i} : exec (.sltiu a b i) s = execSltiu a b i s := rfl
theorem exec_slli (s : State) {a} {b} {n} : exec (.slli a b n) s = execSlli a b n s := rfl
theorem exec_srli (s : State) {a} {b} {n} : exec (.srli a b n) s = execSrli a b n s := rfl
theorem exec_srai (s : State) {a} {b} {n} : exec (.srai a b n) s = execSrai a b n s := rfl
theorem exec_roli (s : State) {a} {b} {n} : exec (.roli a b n) s = execRoli a b n s := rfl
theorem exec_rori (s : State) {a} {b} {n} : exec (.rori a b n) s = execRori a b n s := rfl
theorem exec_lih (s : State) {a} {i} : exec (.lih a i) s = execLih a i s := rfl
theorem exec_ldB (s : State) {a} {b} {o} : exec (.ldB a b o) s = execLdB a b o s := rfl
theorem exec_ldBu (s : State) {a} {b} {o} : exec (.ldBu a b o) s = execLdBu a b o s := rfl
theorem exec_ldH (s : State) {a} {b} {o} : exec (.ldH a b o) s = execLdH a b o s := rfl
theorem exec_ldHu (s : State) {a} {b} {o} : exec (.ldHu a b o) s = execLdHu a b o s := rfl
theorem exec_ldW (s : State) {a} {b} {o} : exec (.ldW a b o) s = execLdW a b o s := rfl
theorem exec_ldWu (s : State) {a} {b} {o} : exec (.ldWu a b o) s = execLdWu a b o s := rfl
theorem exec_ldD (s : State) {a} {b} {o} : exec (.ldD a b o) s = execLdD a b o s := rfl
theorem exec_stB (s : State) {a} {b} {o} : exec (.stB a b o) s = execStB a b o s := rfl
theorem exec_stH (s : State) {a} {b} {o} : exec (.stH a b o) s = execStH a b o s := rfl
theorem exec_stW (s : State) {a} {b} {o} : exec (.stW a b o) s = execStW a b o s := rfl
theorem exec_stD (s : State) {a} {b} {o} : exec (.stD a b o) s = execStD a b o s := rfl
theorem exec_amoSwap (s : State) {a} {b} {c} {r} : exec (.amoSwap a b c r) s = execAmoSwap a b c r s := rfl
theorem exec_amoAdd (s : State) {a} {b} {c} {r} : exec (.amoAdd a b c r) s = execAmoAdd a b c r s := rfl
theorem exec_amoAnd (s : State) {a} {b} {c} {r} : exec (.amoAnd a b c r) s = execAmoAnd a b c r s := rfl
theorem exec_amoOr (s : State) {a} {b} {c} {r} : exec (.amoOr a b c r) s = execAmoOr a b c r s := rfl
theorem exec_amoXor (s : State) {a} {b} {c} {r} : exec (.amoXor a b c r) s = execAmoXor a b c r s := rfl
theorem exec_amoMin (s : State) {a} {b} {c} {r} : exec (.amoMin a b c r) s = execAmoMin a b c r s := rfl
theorem exec_amoMax (s : State) {a} {b} {c} {r} : exec (.amoMax a b c r) s = execAmoMax a b c r s := rfl
theorem exec_amoMinu (s : State) {a} {b} {c} {r} : exec (.amoMinu a b c r) s = execAmoMinu a b c r s := rfl
theorem exec_amoMaxu (s : State) {a} {b} {c} {r} : exec (.amoMaxu a b c r) s = execAmoMaxu a b c r s := rfl
theorem exec_amoCas (s : State) {a} {b} {c} {r} : exec (.amoCas a b c r) s = execAmoCas a b c r s := rfl
theorem exec_beq (s : State) {b} {c} {o} : exec (.beq b c o) s = execBeq b c o s := rfl
theorem exec_bne (s : State) {b} {c} {o} : exec (.bne b c o) s = execBne b c o s := rfl
theorem exec_blt (s : State) {b} {c} {o} : exec (.blt b c o) s = execBlt b c o s := rfl
theorem exec_bge (s : State) {b} {c} {o} : exec (.bge b c o) s = execBge b c o s := rfl
theorem exec_bltu (s : State) {b} {c} {o} : exec (.bltu b c o) s = execBltu b c o s := rfl
theorem exec_bgeu (s : State) {b} {c} {o} : exec (.bgeu b c o) s = execBgeu b c o s := rfl
theorem exec_j (s : State) {a} {o} : exec (.j a o) s = execJ a o s := rfl
theorem exec_jr (s : State) {a} {b} {i} : exec (.jr a b i) s = execJr a b i s := rfl
theorem exec_csrrd (s : State) {a} {n} : exec (.csrrd a n) s = execCsrrd a n s := rfl
theorem exec_csrwr (s : State) {b} {n} : exec (.csrwr b n) s = execCsrwr b n s := rfl
theorem exec_csrset (s : State) {b} {n} : exec (.csrset b n) s = execCsrset b n s := rfl
theorem exec_csrclr (s : State) {b} {n} : exec (.csrclr b n) s = execCsrclr b n s := rfl
theorem exec_cplaunch (s : State) {a} : exec (.cplaunch a) s = execCplaunch a s := rfl
theorem exec_featack (s : State) {b} : exec (.featack b) s = execFeatack b s := rfl
theorem exec_fenceSv (s : State) {sc} : exec (.fenceSv sc) s = execFenceSv sc s := rfl
theorem exec_fenceVs (s : State) {sc} : exec (.fenceVs sc) s = execFenceVs sc s := rfl
theorem exec_fenceVv (s : State) {sc} : exec (.fenceVv sc) s = execFenceVv sc s := rfl
theorem exec_fenceAll (s : State) {sc} : exec (.fenceAll sc) s = execFenceAll sc s := rfl
theorem exec_post (s : State) {b} : exec (.post b) s = execPost b s := rfl
theorem exec_killck (s : State) {b} {c} : exec (.killck b c) s = execKillck b c s := rfl
theorem exec_scopeof (s : State) {a} {b} {c} : exec (.scopeof a b c) s = execScopeof a b c s := rfl
theorem exec_setscope (s : State) {b} : exec (.setscope b) s = execSetscope b s := rfl
theorem exec_glaunch (s : State) {a} {b} {c} : exec (.glaunch a b c) s = execGlaunch a b c s := rfl
theorem exec_cpwait (s : State) {b} {c} : exec (.cpwait b c) s = execCpwait b c s := rfl
theorem exec_cptest (s : State) {a} {b} {sc} : exec (.cptest a b sc) s = execCptest a b sc s := rfl
theorem exec_cpcancel (s : State) {b} : exec (.cpcancel b) s = execCpcancel b s := rfl
theorem exec_bgather (s : State) {a} {b} {t} : exec (.bgather a b t) s = execBgather a b t s := rfl
theorem exec_remq (s : State) {b} {c} : exec (.remq b c) s = execRemq b c s := rfl
theorem exec_remqa (s : State) {a} {b} {c} : exec (.remqa a b c) s = execRemqa a b c s := rfl
theorem exec_ppush (s : State) {a} {b} : exec (.ppush a b) s = execPpush a b s := rfl
theorem exec_sld (s : State) {a} {b} : exec (.sld a b) s = execSld a b s := rfl
theorem exec_slds (s : State) {a} {b} {c} : exec (.slds a b c) s = execSlds a b c s := rfl
theorem exec_sldz (s : State) {a} {b} {c} : exec (.sldz a b c) s = execSldz a b c s := rfl
theorem exec_binit (s : State) {b} {c} : exec (.binit b c) s = execBinit b c s := rfl
theorem exec_bexpect (s : State) {b} {c} : exec (.bexpect b c) s = execBexpect b c s := rfl
theorem exec_barrive (s : State) {b} : exec (.barrive b) s = execBarrive b s := rfl
theorem exec_bwait (s : State) {b} {c} : exec (.bwait b c) s = execBwait b c s := rfl
theorem exec_btest (s : State) {a} {b} : exec (.btest a b) s = execBtest a b s := rfl
theorem exec_rrot (s : State) {a} {b} {c} : exec (.rrot a b c) s = execRrot a b c s := rfl
theorem exec_smv (s : State) {a} {t} {c} : exec (.smv a t c) s = execSmv a t c s := rfl
theorem exec_ssub (s : State) {a} {t} {c} : exec (.ssub a t c) s = execSsub a t c s := rfl
theorem exec_spull (s : State) {b} {t} : exec (.spull b t) s = execSpull b t s := rfl
theorem exec_sstop (s : State) {b} : exec (.sstop b) s = execSstop b s := rfl
theorem exec_tdset (s : State) {t} {b} : exec (.tdset t b) s = execTdset t b s := rfl
theorem exec_tdget (s : State) {a} {t} {c} : exec (.tdget a t c) s = execTdget a t c s := rfl
theorem exec_tdsync (s : State) {t} {sc} : exec (.tdsync t sc) s = execTdsync t sc s := rfl
theorem exec_tdchk (s : State) {a} {t} : exec (.tdchk a t) s = execTdchk a t s := rfl
theorem exec_rird (s : State) {a} {b} : exec (.rird a b) s = execRird a b s := rfl
theorem exec_ritag (s : State) {a} {b} : exec (.ritag a b) s = execRitag a b s := rfl
theorem exec_rimin (s : State) {a} {b} {c} : exec (.rimin a b c) s = execRimin a b c s := rfl
theorem exec_rimax (s : State) {a} {b} {c} : exec (.rimax a b c) s = execRimax a b c s := rfl
theorem exec_rireset (s : State) {a} {b} {c} : exec (.rireset a b c) s = execRireset a b c s := rfl
theorem exec_qmap (s : State) {a} {b} {c} : exec (.qmap a b c) s = execQmap a b c s := rfl
theorem exec_qunmap (s : State) {a} {b} : exec (.qunmap a b) s = execQunmap a b s := rfl
theorem exec_qsave (s : State) {a} {b} : exec (.qsave a b) s = execQsave a b s := rfl
theorem exec_qload (s : State) {a} {b} : exec (.qload a b) s = execQload a b s := rfl
theorem exec_tlbir (s : State) {b} {c} : exec (.tlbir b c) s = execTlbir b c s := rfl
theorem exec_vttset (s : State) {a} {b} {c} : exec (.vttset a b c) s = execVttset a b c s := rfl
theorem exec_preset (s : State) {a} {b} : exec (.preset a b) s = execPreset a b s := rfl
theorem exec_presume (s : State) {b} {c} : exec (.presume b c) s = execPresume b c s := rfl
theorem exec_kickclr (s : State) {b} {c} : exec (.kickclr b c) s = execKickclr b c s := rfl
theorem exec_vsetvl (s : State) {a} {b} {g} {t} : exec (.vsetvl a b g t) s = execVsetvl a b g t s := rfl
theorem exec_vadd (s : State) {a} {b} {c} {m} : exec (.vadd a b c m) s = execVadd a b c m s := rfl
theorem exec_vsub (s : State) {a} {b} {c} {m} : exec (.vsub a b c m) s = execVsub a b c m s := rfl
theorem exec_vmul (s : State) {a} {b} {c} {m} : exec (.vmul a b c m) s = execVmul a b c m s := rfl
theorem exec_vmulh (s : State) {a} {b} {c} {m} : exec (.vmulh a b c m) s = execVmulh a b c m s := rfl
theorem exec_vand (s : State) {a} {b} {c} {m} : exec (.vand a b c m) s = execVand a b c m s := rfl
theorem exec_vor (s : State) {a} {b} {c} {m} : exec (.vor a b c m) s = execVor a b c m s := rfl
theorem exec_vxor (s : State) {a} {b} {c} {m} : exec (.vxor a b c m) s = execVxor a b c m s := rfl
theorem exec_vsll (s : State) {a} {b} {c} {m} : exec (.vsll a b c m) s = execVsll a b c m s := rfl
theorem exec_vsrl (s : State) {a} {b} {c} {m} : exec (.vsrl a b c m) s = execVsrl a b c m s := rfl
theorem exec_vsra (s : State) {a} {b} {c} {m} : exec (.vsra a b c m) s = execVsra a b c m s := rfl
theorem exec_vmin (s : State) {a} {b} {c} {m} : exec (.vmin a b c m) s = execVmin a b c m s := rfl
theorem exec_vmax (s : State) {a} {b} {c} {m} : exec (.vmax a b c m) s = execVmax a b c m s := rfl
theorem exec_vminu (s : State) {a} {b} {c} {m} : exec (.vminu a b c m) s = execVminu a b c m s := rfl
theorem exec_vmaxu (s : State) {a} {b} {c} {m} : exec (.vmaxu a b c m) s = execVmaxu a b c m s := rfl
theorem exec_vsadd (s : State) {a} {b} {c} {m} : exec (.vsadd a b c m) s = execVsadd a b c m s := rfl
theorem exec_vssub (s : State) {a} {b} {c} {m} : exec (.vssub a b c m) s = execVssub a b c m s := rfl
theorem exec_vfadd (s : State) {a} {b} {c} {m} : exec (.vfadd a b c m) s = execVfadd a b c m s := rfl
theorem exec_vfsub (s : State) {a} {b} {c} {m} : exec (.vfsub a b c m) s = execVfsub a b c m s := rfl
theorem exec_vfmul (s : State) {a} {b} {c} {m} : exec (.vfmul a b c m) s = execVfmul a b c m s := rfl
theorem exec_vfdiv (s : State) {a} {b} {c} {m} : exec (.vfdiv a b c m) s = execVfdiv a b c m s := rfl
theorem exec_vfmin (s : State) {a} {b} {c} {m} : exec (.vfmin a b c m) s = execVfmin a b c m s := rfl
theorem exec_vfmax (s : State) {a} {b} {c} {m} : exec (.vfmax a b c m) s = execVfmax a b c m s := rfl
theorem exec_vfsqrt (s : State) {a} {b} {m} : exec (.vfsqrt a b m) s = execVfsqrt a b m s := rfl
theorem exec_vfsgn (s : State) {a} {b} {c} {m} : exec (.vfsgn a b c m) s = execVfsgn a b c m s := rfl
theorem exec_vfma (s : State) {a} {b} {c} {m} : exec (.vfma a b c m) s = execVfma a b c m s := rfl
theorem exec_vfms (s : State) {a} {b} {c} {m} : exec (.vfms a b c m) s = execVfms a b c m s := rfl
theorem exec_vfnma (s : State) {a} {b} {c} {m} : exec (.vfnma a b c m) s = execVfnma a b c m s := rfl
theorem exec_vfnms (s : State) {a} {b} {c} {m} : exec (.vfnms a b c m) s = execVfnms a b c m s := rfl
theorem exec_vfmaw (s : State) {a} {b} {c} {m} : exec (.vfmaw a b c m) s = execVfmaw a b c m s := rfl
theorem exec_vcvtRne (s : State) {a} {b} {t} {m} : exec (.vcvtRne a b t m) s = execVcvtRne a b t m s := rfl
theorem exec_vcvtRtz (s : State) {a} {b} {t} {m} : exec (.vcvtRtz a b t m) s = execVcvtRtz a b t m s := rfl
theorem exec_vcvtRdn (s : State) {a} {b} {t} {m} : exec (.vcvtRdn a b t m) s = execVcvtRdn a b t m s := rfl
theorem exec_vcvtRup (s : State) {a} {b} {t} {m} : exec (.vcvtRup a b t m) s = execVcvtRup a b t m s := rfl
theorem exec_vcvtRneSat (s : State) {a} {b} {t} {m} : exec (.vcvtRneSat a b t m) s = execVcvtRneSat a b t m s := rfl
theorem exec_vcvtRtzSat (s : State) {a} {b} {t} {m} : exec (.vcvtRtzSat a b t m) s = execVcvtRtzSat a b t m s := rfl
theorem exec_vceq (s : State) {a} {b} {c} {m} : exec (.vceq a b c m) s = execVceq a b c m s := rfl
theorem exec_vcne (s : State) {a} {b} {c} {m} : exec (.vcne a b c m) s = execVcne a b c m s := rfl
theorem exec_vclt (s : State) {a} {b} {c} {m} : exec (.vclt a b c m) s = execVclt a b c m s := rfl
theorem exec_vcle (s : State) {a} {b} {c} {m} : exec (.vcle a b c m) s = execVcle a b c m s := rfl
theorem exec_vcltu (s : State) {a} {b} {c} {m} : exec (.vcltu a b c m) s = execVcltu a b c m s := rfl
theorem exec_vfceq (s : State) {a} {b} {c} {m} : exec (.vfceq a b c m) s = execVfceq a b c m s := rfl
theorem exec_vfclt (s : State) {a} {b} {c} {m} : exec (.vfclt a b c m) s = execVfclt a b c m s := rfl
theorem exec_vfcle (s : State) {a} {b} {c} {m} : exec (.vfcle a b c m) s = execVfcle a b c m s := rfl
theorem exec_mand (s : State) {a} {b} {c} : exec (.mand a b c) s = execMand a b c s := rfl
theorem exec_mor (s : State) {a} {b} {c} : exec (.mor a b c) s = execMor a b c s := rfl
theorem exec_mxor (s : State) {a} {b} {c} : exec (.mxor a b c) s = execMxor a b c s := rfl
theorem exec_mandn (s : State) {a} {b} {c} : exec (.mandn a b c) s = execMandn a b c s := rfl
theorem exec_mpopc (s : State) {a} {b} : exec (.mpopc a b) s = execMpopc a b s := rfl
theorem exec_mfirst (s : State) {a} {b} : exec (.mfirst a b) s = execMfirst a b s := rfl
theorem exec_mtoq (s : State) {a} {b} : exec (.mtoq a b) s = execMtoq a b s := rfl
theorem exec_vckm (s : State) {a} {b} : exec (.vckm a b) s = execVckm a b s := rfl
theorem exec_vslideup (s : State) {a} {b} {c} {m} : exec (.vslideup a b c m) s = execVslideup a b c m s := rfl
theorem exec_vslidedn (s : State) {a} {b} {c} {m} : exec (.vslidedn a b c m) s = execVslidedn a b c m s := rfl
theorem exec_vrgather (s : State) {a} {b} {c} {m} : exec (.vrgather a b c m) s = execVrgather a b c m s := rfl
theorem exec_vcompress (s : State) {a} {b} {c} : exec (.vcompress a b c) s = execVcompress a b c s := rfl
theorem exec_vexpand (s : State) {a} {b} {c} : exec (.vexpand a b c) s = execVexpand a b c s := rfl
theorem exec_vsplat (s : State) {a} {b} {m} : exec (.vsplat a b m) s = execVsplat a b m s := rfl
theorem exec_vmerge (s : State) {a} {b} {c} {m} : exec (.vmerge a b c m) s = execVmerge a b c m s := rfl
theorem exec_vid (s : State) {a} {m} : exec (.vid a m) s = execVid a m s := rfl
theorem exec_vredsum (s : State) {a} {b} {m} : exec (.vredsum a b m) s = execVredsum a b m s := rfl
theorem exec_vredmin (s : State) {a} {b} {m} : exec (.vredmin a b m) s = execVredmin a b m s := rfl
theorem exec_vredmax (s : State) {a} {b} {m} : exec (.vredmax a b m) s = execVredmax a b m s := rfl
theorem exec_vfredosum (s : State) {a} {b} {m} : exec (.vfredosum a b m) s = execVfredosum a b m s := rfl
theorem exec_vfredtsum (s : State) {a} {b} {m} : exec (.vfredtsum a b m) s = execVfredtsum a b m s := rfl
theorem exec_vfredmin (s : State) {a} {b} {m} : exec (.vfredmin a b m) s = execVfredmin a b m s := rfl
theorem exec_vfredmax (s : State) {a} {b} {m} : exec (.vfredmax a b m) s = execVfredmax a b m s := rfl
theorem exec_vscan (s : State) {a} {b} {m} : exec (.vscan a b m) s = execVscan a b m s := rfl
theorem exec_vaddi (s : State) {a} {b} {i} {m} : exec (.vaddi a b i m) s = execVaddi a b i m s := rfl
theorem exec_vandi (s : State) {a} {b} {i} {m} : exec (.vandi a b i m) s = execVandi a b i m s := rfl
theorem exec_vori (s : State) {a} {b} {i} {m} : exec (.vori a b i m) s = execVori a b i m s := rfl
theorem exec_vxori (s : State) {a} {b} {i} {m} : exec (.vxori a b i m) s = execVxori a b i m s := rfl
theorem exec_vslli (s : State) {a} {b} {i} {m} : exec (.vslli a b i m) s = execVslli a b i m s := rfl
theorem exec_vsrli (s : State) {a} {b} {i} {m} : exec (.vsrli a b i m) s = execVsrli a b i m s := rfl
theorem exec_vsrai (s : State) {a} {b} {i} {m} : exec (.vsrai a b i m) s = execVsrai a b i m s := rfl
theorem exec_vmvi (s : State) {a} {i} {m} : exec (.vmvi a i m) s = execVmvi a i m s := rfl
theorem exec_vlt (s : State) {a} {t} {c} {m} : exec (.vlt a t c m) s = execVlt a t c m s := rfl
theorem exec_vltck (s : State) {a} {t} {c} {m} : exec (.vltck a t c m) s = execVltck a t c m s := rfl
theorem exec_vlr (s : State) {a} {b} {m} : exec (.vlr a b m) s = execVlr a b m s := rfl
theorem exec_vlrs (s : State) {a} {b} {c} {m} : exec (.vlrs a b c m) s = execVlrs a b c m s := rfl
theorem exec_vlrx (s : State) {a} {b} {c} {m} : exec (.vlrx a b c m) s = execVlrx a b c m s := rfl
theorem exec_vlrff (s : State) {a} {b} {m} : exec (.vlrff a b m) s = execVlrff a b m s := rfl
theorem exec_vlrsc (s : State) {a} {b} {m} : exec (.vlrsc a b m) s = execVlrsc a b m s := rfl
theorem exec_vstt (s : State) {t} {b} {c} {m} : exec (.vstt t b c m) s = execVstt t b c m s := rfl
theorem exec_vstr (s : State) {a} {b} {m} : exec (.vstr a b m) s = execVstr a b m s := rfl
theorem exec_vstrs (s : State) {a} {b} {c} {m} : exec (.vstrs a b c m) s = execVstrs a b c m s := rfl
theorem exec_vstrx (s : State) {a} {b} {c} {m} : exec (.vstrx a b c m) s = execVstrx a b c m s := rfl
theorem exec_vstrsc (s : State) {a} {b} {m} : exec (.vstrsc a b m) s = execVstrsc a b m s := rfl
theorem exec_vamoadd (s : State) {a} {b} {c} {m} : exec (.vamoadd a b c m) s = execVamoadd a b c m s := rfl
theorem exec_vamomin (s : State) {a} {b} {c} {m} : exec (.vamomin a b c m) s = execVamomin a b c m s := rfl
theorem exec_vamomax (s : State) {a} {b} {c} {m} : exec (.vamomax a b c m) s = execVamomax a b c m s := rfl
theorem exec_vamoswap (s : State) {a} {b} {c} {m} : exec (.vamoswap a b c m) s = execVamoswap a b c m s := rfl
theorem exec_vamoor (s : State) {a} {b} {c} {m} : exec (.vamoor a b c m) s = execVamoor a b c m s := rfl
theorem exec_vmv (s : State) {a} {b} {m} : exec (.vmv a b m) s = execVmv a b m s := rfl
theorem exec_vclmul (s : State) {a} {b} {c} {m} : exec (.vclmul a b c m) s = execVclmul a b c m s := rfl
theorem exec_vclmulh (s : State) {a} {b} {c} {m} : exec (.vclmulh a b c m) s = execVclmulh a b c m s := rfl
theorem exec_vpopc (s : State) {a} {b} {m} : exec (.vpopc a b m) s = execVpopc a b m s := rfl
theorem exec_vclz (s : State) {a} {b} {m} : exec (.vclz a b m) s = execVclz a b m s := rfl
theorem exec_vctz (s : State) {a} {b} {m} : exec (.vctz a b m) s = execVctz a b m s := rfl
theorem exec_vsel (s : State) {a} {b} {c} {m} : exec (.vsel a b c m) s = execVsel a b c m s := rfl
theorem exec_vnot (s : State) {a} {b} {m} : exec (.vnot a b m) s = execVnot a b m s := rfl
theorem exec_wbase (s : State) {i} : exec (.wbase i) s = execWbase i s := rfl
theorem exec_mbeam (s : State) {t} {b} : exec (.mbeam t b) s = execMbeam t b s := rfl
theorem exec_mseta (s : State) {t} {b} : exec (.mseta t b) s = execMseta t b s := rfl
theorem exec_mrow (s : State) {a} {b} : exec (.mrow a b) s = execMrow a b s := rfl
theorem exec_mrowt (s : State) {a} {b} : exec (.mrowt a b) s = execMrowt a b s := rfl
theorem exec_mzero (s : State) {a} : exec (.mzero a) s = execMzero a s := rfl
theorem exec_xcfg (s : State) {i} {b} {c} : exec (.xcfg i b c) s = execXcfg i b c s := rfl
theorem exec_xclr (s : State) {c} : exec (.xclr c) s = execXclr c s := rfl
theorem exec_xchk (s : State) {b} {c} : exec (.xchk b c) s = execXchk b c s := rfl
theorem exec_xeps (s : State) {a} {c} : exec (.xeps a c) s = execXeps a c s := rfl
theorem exec_xlsq (s : State) {a} {c} : exec (.xlsq a c) s = execXlsq a c s := rfl
theorem exec_xtest (s : State) {a} {b} {c} : exec (.xtest a b c) s = execXtest a b c s := rfl
theorem exec_xstat (s : State) {a} {c} : exec (.xstat a c) s = execXstat a c s := rfl
theorem exec_ecall (s : State) : exec .ecall s = execEcall s := rfl
theorem exec_ebreak (s : State) : exec .ebreak s = execEbreak s := rfl
theorem exec_eret (s : State) : exec .eret s = execEret s := rfl
theorem exec_wfi (s : State) : exec .wfi s = execWfi s := rfl
theorem exec_halt (s : State) : exec .halt s = execHalt s := rfl
theorem exec_stepend (s : State) : exec .stepend s = execStepend s := rfl
theorem exec_snap (s : State) : exec .snap s = execSnap s := rfl
theorem exec_tbar (s : State) : exec .tbar s = execTbar s := rfl
theorem exec_tlbsync (s : State) : exec .tlbsync s = execTlbsync s := rfl
theorem exec_mswap (s : State) : exec .mswap s = execMswap s := rfl
theorem exec_mzeroBare (s : State) : exec .mzeroBare s = execMzeroBare s := rfl
theorem exec_fencePairComplete (s : State) : exec .fencePairComplete s = execFencePairComplete s := rfl
theorem exec_streamLoadFill (s : State) : exec .streamLoadFill s = execStreamLoadFill s := rfl
theorem exec_smvChunk (s : State) : exec .smvChunk s = execSmvChunk s := rfl
theorem exec_sillTileFill (s : State) : exec .sillTileFill s = execSillTileFill s := rfl
theorem exec_sillSlotPull (s : State) : exec .sillSlotPull s = execSillSlotPull s := rfl
theorem exec_subscriptionEnd (s : State) : exec .subscriptionEnd s = execSubscriptionEnd s := rfl
theorem exec_ridgeForward (s : State) : exec .ridgeForward s = execRidgeForward s := rfl
theorem exec_ridgeCopyUpdate (s : State) : exec .ridgeCopyUpdate s = execRidgeCopyUpdate s := rfl
theorem exec_tlbAck (s : State) : exec .tlbAck s = execTlbAck s := rfl
theorem exec_beamLoadDone (s : State) : exec .beamLoadDone s = execBeamLoadDone s := rfl
theorem exec_rowComplete (s : State) : exec .rowComplete s = execRowComplete s := rfl
theorem exec_kick (s : State) : exec .kick s = execKick s := rfl
theorem exec_recordRead (s : State) : exec .recordRead s = execRecordRead s := rfl
theorem exec_run (s : State) : exec .run s = execRun s := rfl
theorem exec_copy (s : State) : exec .copy s = execCopy s := rfl
theorem exec_graph (s : State) : exec .graph s = execGraph s := rfl
theorem exec_select (s : State) : exec .select s = execSelect s := rfl
theorem exec_fence (s : State) : exec .fence s = execFence s := rfl
theorem exec_signal (s : State) : exec .signal s = execSignal s := rfl
theorem exec_wait (s : State) : exec .wait s = execWait s := rfl
theorem exec_waitReread (s : State) : exec .waitReread s = execWaitReread s := rfl
theorem exec_nop (s : State) : exec .nop s = execNop s := rfl
theorem exec_placeStep (s : State) : exec .placeStep s = execPlaceStep s := rfl
theorem exec_regionAgeing (s : State) : exec .regionAgeing s = execRegionAgeing s := rfl
theorem exec_preempt (s : State) : exec .preempt s = execPreempt s := rfl
theorem exec_stepRetire (s : State) : exec .stepRetire s = execStepRetire s := rfl
theorem exec_spliceBoundary (s : State) : exec .spliceBoundary s = execSpliceBoundary s := rfl
theorem exec_timeout (s : State) : exec .timeout s = execTimeout s := rfl
theorem exec_qdeadlock (s : State) : exec .qdeadlock s = execQdeadlock s := rfl
theorem exec_domainReset (s : State) : exec .domainReset s = execDomainReset s := rfl
theorem exec_park (s : State) : exec .park s = execPark s := rfl
theorem exec_parkNoticeRetry (s : State) : exec .parkNoticeRetry s = execParkNoticeRetry s := rfl
theorem exec_steal (s : State) : exec .steal s = execSteal s := rfl
theorem exec_recordDelivery (s : State) : exec .recordDelivery s = execRecordDelivery s := rfl
theorem exec_lentTimeout (s : State) : exec .lentTimeout s = execLentTimeout s := rfl
theorem exec_chunkStart (s : State) : exec .chunkStart s = execChunkStart s := rfl
theorem exec_chunkLanding (s : State) : exec .chunkLanding s = execChunkLanding s := rfl
theorem exec_powerInputChange (s : State) : exec .powerInputChange s = execPowerInputChange s := rfl
theorem exec_powerGoodTimer (s : State) : exec .powerGoodTimer s = execPowerGoodTimer s := rfl
theorem exec_powerSample (s : State) : exec .powerSample s = execPowerSample s := rfl
theorem exec_thermalTrip (s : State) : exec .thermalTrip s = execThermalTrip s := rfl
theorem exec_boot (s : State) : exec .boot s = execBoot s := rfl
theorem exec_bootctl (s : State) : exec .bootctl s = execBootctl s := rfl
theorem exec_restart (s : State) : exec .restart s = execRestart s := rfl
theorem exec_mailbox (s : State) : exec .mailbox s = execMailbox s := rfl
theorem exec_pfBar2Access (s : State) : exec .pfBar2Access s = execPfBar2Access s := rfl
theorem exec_apertureAccess (s : State) : exec .apertureAccess s = execApertureAccess s := rfl
theorem exec_functionLevelReset (s : State) : exec .functionLevelReset s = execFunctionLevelReset s := rfl
theorem exec_flrClear (s : State) : exec .flrClear s = execFlrClear s := rfl
theorem exec_flrTimeout (s : State) : exec .flrTimeout s = execFlrTimeout s := rfl
theorem exec_spdmRequest (s : State) : exec .spdmRequest s = execSpdmRequest s := rfl
theorem exec_podFormed (s : State) : exec .podFormed s = execPodFormed s := rfl
theorem exec_linkReplay (s : State) : exec .linkReplay s = execLinkReplay s := rfl
theorem exec_linkDown (s : State) : exec .linkDown s = execLinkDown s := rfl
theorem exec_snapPin (s : State) : exec .snapPin s = execSnapPin s := rfl
theorem exec_trussBarrierRelease (s : State) : exec .trussBarrierRelease s = execTrussBarrierRelease s := rfl
theorem exec_linkUp (s : State) : exec .linkUp s = execLinkUp s := rfl
theorem exec_debuggerHalt (s : State) : exec .debuggerHalt s = execDebuggerHalt s := rfl

end Sys2Proof.Machine
end

