-- ==== Sys2Proof/Laws/Memory.lean ====
section
/-! SUPPORT. Every operation that writes memory keeps its canonical form, and with it what flash holds: the build record, the least
image version and the boot configuration. The operations of Mem.lean, Access.lean, Report.lean and L1.lean, the engines' writes and a
package reset. -/

namespace Sys2Proof.Machine

/-- From s to t the canonical form of memory, the build record, the least image version and the boot configuration are kept. -/
structure State.Keeps (s t : State) : Prop where
  mem : s.MemOk → t.MemOk
  record : t.record = s.record
  minsvn : t.mg.minsvn = s.mg.minsvn
  bootCfg : t.mg.bootCfg = s.mg.bootCfg

theorem State.Keeps.refl (s : State) : s.Keeps s := ⟨id, rfl, rfl, rfl⟩

theorem State.Keeps.trans {s t u : State} (h : s.Keeps t) (k : t.Keeps u) : s.Keeps u :=
  ⟨fun m => k.mem (h.mem m), k.record.trans h.record, k.minsvn.trans h.minsvn, k.bootCfg.trans h.bootCfg⟩

/-- A change that leaves memory, the record and the version alone. -/
theorem State.Keeps.of_eq {s t : State} (hm : t.mem = s.mem) (hr : t.record = s.record) (hv : t.mg.minsvn = s.mg.minsvn)
    (hb : t.mg.bootCfg = s.mg.bootCfg) : s.Keeps t := ⟨fun h => by rw [State.MemOk, hm]; exact h, hr, hv, hb⟩

theorem memOk_reset : State.reset.MemOk := rfl

theorem keeps_poke (s : State) (k : Nat) (bs : List Byte) : s.Keeps (s.poke k bs) :=
  ⟨fun h => memWf_memWrite _ _ _ h, rfl, rfl, rfl⟩

theorem keeps_pokeNat (s : State) (k n v : Nat) : s.Keeps (s.pokeNat k n v) := keeps_poke _ _ _

theorem keeps_countUp (s : State) (k n d : Nat) : s.Keeps (s.countUp k n d) := keeps_poke _ _ _

theorem keeps_countUncorr (s : State) : s.Keeps s.countUncorr := keeps_poke _ _ _

theorem keeps_orPte (s : State) (a b : Nat) : s.Keeps (s.orPte a b) := by
  unfold State.orPte
  simp only
  split
  · exact .refl s
  · exact keeps_poke _ _ _

theorem keeps_setL1 (s : State) (bay : Nat) (c : L1) : s.Keeps (s.setL1 bay c) := .of_eq rfl rfl rfl rfl

theorem keeps_l1Drop (s : State) (bay : Nat) (p : Nat → Bool) : s.Keeps (s.l1Drop bay p) := by
  unfold State.l1Drop
  dsimp only
  split
  · exact .refl s
  · exact keeps_setL1 _ _ _

/-- A walk of a translation cache: bits of the leaf, an acquire, the cache's entries. -/
theorem keeps_walked (s : State) (a b id : Nat) (l : Tab (List TlbEntry)) (f : Nat) :
    s.Keeps { (s.orPte a b).walkAcquire id with tlbs := l, free := f } :=
  ((keeps_orPte s a b).trans (keeps_l1Drop _ id _)).trans (.of_eq rfl rfl rfl rfl)

/-- What a translation changes keeps the record; a lookup and a dirty bit are such changes. -/
theorem keeps_of_xlatFrame {s t : State} (h : s.XlatFrame t) (hm : s.MemOk → t.MemOk) : s.Keeps t :=
  ⟨hm, by rw [h], by rw [h], by rw [h]⟩

theorem keeps_tlbLookup (s : State) (id asid pt va : Nat) : s.Keeps (s.tlbLookup id asid pt va).2 := by
  unfold State.tlbLookup
  split
  · exact .refl s
  · split
    · exact .refl s
    · exact keeps_countUncorr s
    · exact keeps_walked s _ _ _ _ _

theorem keeps_tlbDirty (s : State) (id pt : Nat) (plate : Bool) (k : Acc) (va : Nat) (e : TlbEntry) :
    s.Keeps (s.tlbDirty id pt plate k va e).2 := by
  unfold State.tlbDirty
  split
  · exact .refl s
  · split
    · exact .of_eq rfl rfl rfl rfl
    · exact keeps_countUncorr s
    · exact keeps_walked s _ _ _ _ _

theorem keeps_xlat (s : State) (id asid pt : Nat) (plate : Bool) (k : Acc) (va : Nat) :
    s.Keeps (s.xlat id asid pt plate k va).2 := by
  unfold State.xlat
  have h := keeps_tlbLookup s id asid pt va
  split <;> (rename_i h1; rw [h1] at h)
  · exact h
  · rename_i e s1
    have h2 := keeps_tlbDirty s1 id pt plate k va e
    split <;> (rename_i h3; rw [h3] at h2)
    · exact h.trans h2
    · split <;> exact h.trans h2

theorem keeps_markDirty (s : State) (k n : Nat) : s.Keeps (s.markDirty k n) := by
  rw [markDirty_eq]; exact .of_eq rfl rfl rfl rfl

theorem keeps_raiseIp (s : State) (b : Nat) : s.Keeps (s.raiseIp b) := .of_eq rfl rfl rfl rfl

theorem keeps_ioByte (s : State) (a : Nat) (b : Byte) : s.Keeps (s.ioByte a b) := by
  unfold State.ioByte
  dsimp only
  split <;> exact keeps_poke _ _ _

theorem keeps_ioBytes (bs : List Byte) (s : State) (a : Nat) : s.Keeps (s.ioBytes a bs) := by
  induction bs generalizing s a with
  | nil => exact State.Keeps.refl s
  | cons b bs ih =>
    unfold State.ioBytes
    exact (keeps_ioByte s a b).trans (ih _ _)

theorem keeps_ioTables (s : State) (a : Nat) (bs : List Byte) : s.Keeps (s.ioTables a bs) := by
  unfold State.ioTables
  dsimp only
  have h := keeps_ioBytes bs s a
  split <;> exact ⟨h.mem, h.record, h.minsvn, h.bootCfg⟩

theorem keeps_storeMem (s : State) (k : Nat) (bs : List Byte) : s.Keeps (s.storeMem k bs) := by
  unfold State.storeMem
  split
  · exact keeps_raiseIp _ _
  · exact (keeps_poke _ _ _).trans (keeps_markDirty _ _ _)

theorem keeps_storeLow (s : State) (k : Nat) (bs : List Byte) : s.Keeps (s.storeLow k bs) := by
  unfold State.storeLow
  split
  · split
    · exact .refl s
    · exact keeps_ioTables _ _ _
  · exact keeps_storeMem _ _ _

theorem keeps_putPieces {put : State → Nat → List Byte → State} (hp : ∀ (s : State) k bs, s.Keeps (put s k bs)) (l : List (Nat × Nat))
    (s : State) (bs : List Byte) : s.Keeps (State.putPieces put s l bs) := by
  induction l generalizing s bs with
  | nil => exact State.Keeps.refl s
  | cons p t ih => exact (hp _ _ _).trans (ih _ _)

theorem keeps_walkTo (s : State) (pt : Nat) (plate : Bool) (k : Acc) (va : Nat) : s.Keeps (s.walkTo pt plate k va).2 := by
  unfold State.walkTo
  split
  · exact .refl s
  · exact keeps_countUncorr s
  · dsimp only
    split
    · exact keeps_orPte _ _ _
    · exact keeps_orPte _ _ _

theorem keeps_xlatPieces (l : List (Nat × Nat)) (s : State) (pt : Nat) (plate : Bool) (k : Acc) :
    s.Keeps (s.xlatPieces pt plate k l).2 := by
  induction l generalizing s with
  | nil => exact .refl s
  | cons p t ih =>
    unfold State.xlatPieces
    have hw := keeps_walkTo s pt plate k p.1
    split
    · rename_i h; rw [h] at hw; exact hw
    · rename_i s1 h
      rw [h] at hw
      have h2 := ih s1
      split <;> (rename_i h3; rw [h3] at h2; exact hw.trans h2)

theorem keeps_ctlXlat (s : State) (pt : Nat) (plate : Bool) (k : Acc) (va n : Nat) :
    s.Keeps (s.ctlXlat pt plate k va n).2 := by
  unfold State.ctlXlat
  split
  · exact keeps_xlatPieces _ _ _ _ _
  · exact .refl s

theorem keeps_ctlRead (s : State) (pt va n : Nat) : s.Keeps (s.ctlRead pt va n).2 := by
  unfold State.ctlRead
  have h := keeps_ctlXlat s pt true .read va n
  split <;> (rename_i h1; rw [h1] at h)
  · exact h
  · split
    · exact h
    · split
      · exact h.trans (keeps_countUncorr _)
      · exact h

theorem keeps_ctlPut {put : State → Nat → List Byte → State} (hp : ∀ (s : State) k bs, s.Keeps (put s k bs)) (s : State) (pt : Nat)
    (plate : Bool) (va : Nat) (bs : List Byte) : s.Keeps (State.ctlPut put s pt plate va bs).2 := by
  unfold State.ctlPut
  have h := keeps_ctlXlat s pt plate .write va bs.length
  split <;> (rename_i h1; rw [h1] at h)
  · exact h
  · split
    · exact h.trans (keeps_countUncorr _)
    · exact h.trans (keeps_putPieces hp _ _ _)

theorem keeps_devPoke (s : State) (k : Nat) (bs : List Byte) : s.Keeps (s.devPoke k bs) := by
  unfold State.devPoke
  split
  · exact keeps_countUncorr s
  · exact keeps_poke _ _ _

theorem keeps_kick (s : State) (rcb n widx : Nat) : s.Keeps (s.kick rcb n widx) := by
  have hf (u : State) (b : Nat) : u.Keeps ((u.setKickBit rcb n).raiseIp b) := (keeps_devPoke _ _ _).trans (keeps_raiseIp _ _)
  unfold State.kick
  dsimp only
  split
  · exact (keeps_countUncorr s).trans (hf _ _)
  have h := keeps_ctlRead s (s.ctxOf rcb).ptbase (s.qcbAt rcb n) 64
  split <;> (rename_i h1; rw [h1] at h)
  · exact h.trans (hf _ _)
  · split
    · exact h.trans (hf _ _)
    · rename_i _ u _ _ _
      have h2 := keeps_ctlPut keeps_storeLow u (s.ctxOf rcb).ptbase false (s.qcbAt rcb n + 0x18) (toBytes 4 widx)
      split <;> (rename_i h3; rw [h3] at h2)
      · exact h.trans (h2.trans (hf _ _))
      · split
        · exact h.trans h2
        · exact h.trans (h2.trans (hf _ _))

theorem keeps_ioStore (s : State) (a : Nat) (bs : List Byte) : s.Keeps (s.ioStore a bs) := by
  unfold State.ioStore
  split
  · unfold State.doorbellStore
    split
    · split
      · exact keeps_kick _ _ _ _
      · exact .refl s
    · exact .refl s
  · exact keeps_ioTables _ _ _

/-- A store at a cell, whatever the cell. -/
theorem keeps_storeAt (s : State) (k : Nat) (bs : List Byte) : s.Keeps (s.storeAt k bs).2 := by
  unfold State.storeAt
  split
  · exact keeps_ioStore _ _ _
  · split
    · exact keeps_countUncorr _
    · exact keeps_storeMem _ _ _

theorem keeps_ctlWriteAs (s : State) (pt : Nat) (plate : Bool) (va : Nat) (bs : List Byte) :
    s.Keeps (s.ctlWriteAs pt plate va bs).2 := keeps_ctlPut (fun _ _ _ => keeps_storeAt _ _ _) _ _ _ _ _

theorem keeps_ctlWrite (s : State) (pt va : Nat) (bs : List Byte) : s.Keeps (s.ctlWrite pt va bs).2 :=
  keeps_ctlWriteAs _ _ _ _ _

theorem keeps_ctlWriteD (s : State) (pt va : Nat) (bs : List Byte) : s.Keeps (s.ctlWriteD pt va bs) := keeps_ctlWrite _ _ _ _

theorem keeps_loadAt (s : State) (k n : Nat) : s.Keeps (s.loadAt k n).2 := by
  unfold State.loadAt
  split
  · exact .refl s
  · split
    · exact keeps_countUncorr _
    · exact .refl s

/-- A fold of steps each of which keeps them. -/
theorem keeps_foldl {α : Type} {f : State → α → State} (hf : ∀ (s : State) x, s.Keeps (f s x)) (l : List α) (s : State) :
    s.Keeps (l.foldl f s) := by
  induction l generalizing s with
  | nil => exact State.Keeps.refl s
  | cons x l ih => exact (hf s x).trans (ih _)

/-! The L1 data caches. -/

theorem keeps_l1Load (s : State) (bay k n : Nat) : s.Keeps (s.l1Load bay k n).2 := by
  unfold State.l1Load
  dsimp only
  split
  · exact keeps_countUncorr _
  · exact keeps_setL1 _ _ _

theorem keeps_lostWrite (s : State) : s.Keeps s.lostWrite := (keeps_countUncorr s).trans (keeps_raiseIp _ _)

theorem keeps_l1WriteBack (s : State) (bay : Nat) (p : Nat → Bool) : s.Keeps (s.l1WriteBack bay p) := by
  unfold State.l1WriteBack
  dsimp only
  split
  · exact .refl s
  · refine State.Keeps.trans ?_ (keeps_foldl (fun s _ => keeps_lostWrite s) _ _)
    exact ⟨fun m => memWf_memWriteCells _ _ m, rfl, rfl, rfl⟩

theorem keeps_l1Room (s : State) (bay k n : Nat) : s.Keeps (s.l1Room bay k n) := by
  unfold State.l1Room
  split
  · exact keeps_l1WriteBack _ _ _
  · exact .refl s

theorem keeps_l1Store (s : State) (bay k : Nat) (bs : List Byte) : s.Keeps (s.l1Store bay k bs).2 := by
  unfold State.l1Store
  dsimp only
  split
  · exact keeps_countUncorr _
  · exact (keeps_l1Room _ _ _ _).trans (keeps_setL1 _ _ _)

theorem keeps_l1Flush (s : State) (bay k n : Nat) : s.Keeps (s.l1Flush bay k n) :=
  (keeps_l1WriteBack _ _ _).trans (keeps_l1Drop _ _ _)

theorem keeps_releaseBy (s : State) (ag : Agent) (scope : Nat) : s.Keeps (s.releaseBy ag scope) := by
  unfold State.releaseBy
  split
  · split
    · exact keeps_l1WriteBack _ _ _
    · exact .refl s
  · exact .refl s

theorem keeps_acquireBy (s : State) (ag : Agent) (scope : Nat) : s.Keeps (s.acquireBy ag scope) := by
  unfold State.acquireBy
  split
  · split
    · exact keeps_l1Drop _ _ _
    · exact .refl s
  · exact .refl s

/-! Engines and a reset. -/

/-- The cells an engine writes. -/
theorem keeps_storeCells (s : State) (cs : List Host.Cell) : s.Keeps (s.storeCells cs) := by
  unfold State.storeCells
  dsimp only
  have h1 : s.Keeps (if cs.any fun c => s.cutKey c.1 then s.raiseIp ipUncorr else s) := by
    split
    · exact keeps_raiseIp _ _
    · exact .refl s
  refine (h1.trans ?_).trans (keeps_foldl (fun s r => keeps_ioStore _ _ _) _ _)
  refine State.Keeps.trans ?_ (keeps_foldl (fun u c => ?_) _ _)
  · exact .of_eq rfl rfl rfl rfl
  · have hp : u.Keeps { u with mem := memPut u.mem c.1 c.2 } := ⟨fun m => memWf_memPut _ _ _ m, rfl, rfl, rfl⟩
    exact hp.trans (keeps_markDirty _ _ _)

/-- A package reset. -/
theorem keeps_packageReset (s : State) : s.Keeps s.packageReset := by
  unfold State.packageReset
  dsimp only
  split
  · refine State.Keeps.trans ?_ (keeps_pokeNat _ _ _ _)
    exact ⟨fun m => memWf_filter _ _ m, rfl, rfl, rfl⟩
  · exact ⟨fun m => memWf_filter _ _ m, rfl, rfl, rfl⟩

end Sys2Proof.Machine
end

