-- ==== Sys2Proof/Laws/Shapes.lean ====
section
/-! SUPPORT. The shapes of A-stream and plate instructions: what passing the checks of R219 gives, and the completion of an
instruction that is ready. -/

namespace Sys2Proof.Machine

theorem isE_of_gate (s : State) (i : Instr) (h : s.gateFail i = none) (hc : i.streamClass = .aAll) : s.cur.isE = false := by
  unfold State.gateFail State.gate345 at h
  rw [hc] at h
  cases hh : s.cur <;> simp_all [classVerdict, Agent.isE]

theorem fields_of_gate (s : State) (i : Instr) (h : s.gateFail i = none) : i.fieldsOk s.cur.isE = true := by
  unfold State.gateFail at h
  split at h
  · cases h
  · split at h
    · assumption
    · cases h

theorem dst_ok (s : State) (i : Instr) (a : RCode) (h : s.gateFail i = none) (he : s.cur.isE = false) (hm : (FieldKind.aDst, a.toNat) ∈ i.fields) : a = 0 ∨ 4 ≤ a.toNat := by
  have := fields_of_gate s i h
  rw [he, Instr.fieldsOk, List.all_eq_true] at this
  have := this _ hm
  simp [FieldKind.accepts] at this
  rcases this with h | h
  · left; exact BitVec.eq_of_toNat_eq (by simpa using h)
  · right; exact h


theorem withA_next (i : Instr) (srcs dsts : List RCode) (s : State) (body : List W64 → State → State)
    (hr : s.Ready i srcs dsts) : withA i srcs dsts s body = .next (body (s.aVals [] srcs) s) := by
  simp [withA, gate, hr.1, State.aWhen, hr.2]

/-- A two-source instruction of major 0x01 completes with the value of any function equal to its own. -/
theorem alu2_done (i : Instr) (a b c : RCode) (s : State) (g f : W64 → W64 → W64) (hr : s.Ready i [b, c] [a])
    (hc : i.streamClass = .aAll) (hm : (FieldKind.aDst, a.toNat) ∈ i.fields) (hg : ∀ x y, g x y = f x y) :
    ∃ t, alu2 i a b c s g = .next t ∧ Done s t [b, c] a (f (s.src [b, c] 0) (s.src [b, c] 1)) := by
  obtain rfl : g = f := funext₂ hg
  have he := isE_of_gate s i hr.1 hc
  exact ⟨_, withA_next i _ _ s _ hr, aDone_done s _ _ _ _ he (dst_ok s i a hr.1 he hm) hr.2 (.inl (List.mem_singleton.2 rfl))⟩

/-- A one-source instruction completes. -/
theorem alu1_done (i : Instr) (a b : RCode) (s : State) (g f : W64 → W64) (hr : s.Ready i [b] [a])
    (hc : i.streamClass = .aAll) (hm : (FieldKind.aDst, a.toNat) ∈ i.fields) (hg : ∀ x, g x = f x) :
    ∃ t, alu1 i a b s g = .next t ∧ Done s t [b] a (f (s.src [b] 0)) := by
  obtain rfl : g = f := funext hg
  have he := isE_of_gate s i hr.1 hc
  exact ⟨_, withA_next i _ _ s _ hr, aDone_done s _ _ _ _ he (dst_ok s i a hr.1 he hm) hr.2 (.inl (List.mem_singleton.2 rfl))⟩

/-! Loads, stores and atomics. -/

theorem lsAddr_eq (s : State) (srcs : List RCode) (o : BitVec 9) (n : Nat) (hn : n < 2 ^ 32) : lsAddr ((s.aVals [] srcs).getD 0 0) o n = s.lsVa srcs o n := by
  unfold lsAddr State.lsVa State.src
  congr 2
  rw [BitVec.ofInt_mul]
  rfl

theorem hart_eq {s t : State} (h : t.harts = s.harts) (n : Nat) : t.hart n = s.hart n := by unfold State.hart; rw [h]
theorem plate_eq {s t : State} (h : t.plates = s.plates) (n : Nat) : t.plate n = s.plate n := by unfold State.plate; rw [h]

theorem aReady_xlat {s t : State} (h : s.XlatFrame t) (a b) : t.aReady a b = s.aReady a b := by
  rw [h]; rfl

theorem extend_eq (n : Nat) (sg : Bool) (v : Nat) (hn : n = 1 ∨ n = 2 ∨ n = 4 ∨ n = 8) (hv : v < 256 ^ n) : extend n sg v = if sg then sx (8 * n) v else w64 v := by
  unfold extend
  cases sg
  · rfl
  · simp only [if_true, sx, w64i, sext]
    congr 1
    have : (256 : Nat) ^ n = 2 ^ (8 * n) := by rw [pow_mul]; norm_num
    rw [this] at hv
    rw [Nat.mod_eq_of_lt hv]
    have h2 : (2 : Nat) ^ (8 * n) = 2 * 2 ^ (8 * n - 1) := by rw [← pow_succ']; congr 1; omega
    have h3 : ((2 ^ (8 * n) : Nat) : Int) = 2 ^ (8 * n) := by push_cast; rfl
    rw [h3]
    by_cases hh : v < 2 ^ (8 * n - 1)
    · rw [if_pos hh, if_pos (by omega)]
    · rw [if_neg hh, if_neg (by omega)]

theorem mem_aPut (s : State) (a v) : (s.aPut a v).mem = s.mem := by
  unfold State.aPut; split <;> [rfl; (split <;> (split <;> rfl))]
theorem mem_aPop (s : State) (l) : (s.aPop l).mem = s.mem := by
  unfold State.aPop; split <;> [(split <;> rfl); rfl]
theorem mem_goto (s : State) (pc) : (s.goto pc).mem = s.mem := by
  unfold State.goto; split <;> rfl
theorem mem_aDone0 (s : State) (l) : (s.aDone0 l).mem = s.mem := by
  rw [State.aDone0, State.advance, mem_goto, mem_aPop]
theorem mem_aDone (s : State) (l a v) : (s.aDone l a v).mem = s.mem := by
  rw [State.aDone, State.advance, mem_goto, mem_aPut, mem_aPop]

theorem store_eff (s1 : State) (k n v : Nat) :
   let s2 := (s1.poke k (toBytes n v)).markDirty k n
   s2 = { s1 with mem := s2.mem, bad := s2.bad, harts := s2.harts } ∧ (isScratch k = false → s2.harts = s1.harts) ∧
   (∀ h, s2.hart h = { s1.hart h with r := { (s1.hart h).r with dirty := (s2.hart h).r.dirty } }) ∧
   ∀ j, s2.byteOf j = if k ≤ j ∧ j < k + n then BitVec.ofNat 8 (v / 256 ^ (j - k)) else s1.byteOf j := by
  intro s2
  refine ⟨?_, fun h => ?_, fun h => ?_, fun j => ?_⟩
  · simp only [s2]; rw [markDirty_eq]; rfl
  · simp only [s2]; rw [markDirty_not_scratch _ _ _ h]; rfl
  · simp only [s2]; rw [markDirty_hart]; rfl
  · have : s2.byteOf j = (s1.poke k (toBytes n v)).byteOf j := by
      unfold State.byteOf; simp only [s2]; rw [markDirty_eq]
    rw [this, byteOf_poke, length_toBytes]
    split
    · rw [List.getD_eq_getElem?_getD, toBytes_get _ _ _ (by omega)]; rfl
    · rfl

theorem bv_min (x y : W64) : (if x.slt y then x else y) = BitVec.ofInt 64 (min x.toInt y.toInt) := by
  simp only [BitVec.slt, decide_eq_true_eq]; split <;> rename_i h <;> [rw [min_eq_left (by omega)]; rw [min_eq_right (by omega)]] <;> simp
theorem bv_max (x y : W64) : (if x.slt y then y else x) = BitVec.ofInt 64 (max x.toInt y.toInt) := by
  simp only [BitVec.slt, decide_eq_true_eq]; split <;> rename_i h <;> [rw [max_eq_right (by omega)]; rw [max_eq_left (by omega)]] <;> simp
theorem bv_minu (x y : W64) : (if x.ult y then x else y) = BitVec.ofNat 64 (min x.toNat y.toNat) := by
  simp only [BitVec.ult, decide_eq_true_eq]; split <;> rename_i h <;> [rw [min_eq_left (by omega)]; rw [min_eq_right (by omega)]] <;> simp
theorem bv_maxu (x y : W64) : (if x.ult y then y else x) = BitVec.ofNat 64 (max x.toNat y.toNat) := by
  simp only [BitVec.ult, decide_eq_true_eq]; split <;> rename_i h <;> [rw [max_eq_right (by omega)]; rw [max_eq_left (by omega)]] <;> simp

end Sys2Proof.Machine
end

