-- ==== Sys2Proof/Laws/Vector.lean ====
section
/-! SUPPORT. The shapes of element-wise vector instructions (vBin, vUn, vGen, vCmp) and the arithmetic of wrapping,
signs, clamping, bit counts and carry-less products that their results rest on. -/

namespace Sys2Proof.Machine

theorem el_lt (x : EIn) (j k : Nat) : x.el j k < 2 ^ x.e.w := fld_lt ..

theorem clsI_le (f : Nat) (h : clsI f = true) : f ≤ 13 := by simp [clsI] at h; omega
theorem clsA_le (f : Nat) (h : clsA f = true) : f ≤ 13 := by simpa [clsA] using h

theorem opV_w (s : State) (h : Nat) (cls) (l : List RCode) (a : RCode) (hw : 0 < (s.hart h).e.w) :
  ∀ c g w, (s.opV h cls l a).dst = .vec c g w → 0 < w ∨ s.vlen h = 0 := by
  rintro c g w hd; simp only [State.opV, EDst.vec.injEq] at hd; obtain ⟨-, -, rfl⟩ := hd; exact .inl hw

/-- Operands of VTYPE's group do not clash. -/
theorem opV_clash {s : State} {h : Nat} {cls} {l : List RCode} {a : RCode} (hx : s.eChecks h (s.opV h cls l a) = none) (p : Prop) :
    (s.opV h cls l a).clash = true → p := by
  rw [clash_same s h _ a (s.hart h).e.g (s.hart h).e.w rfl (by simp [State.opV]) rfl hx]
  simp

theorem eSize_e (e : ERegs) : 0 < eSize e.w := eSize_pos (by have := fmtWidth_le e.fmt.toNat; simp only [ERegs.w]; omega)

/-- An element-wise instruction that raises no flag completes. -/
theorem exact_done (i : Instr) (s : State) (h : Nat) (op : EOp) (vals) (E : Nat) (m : BitVec 2)
    (body) (g : Nat → Nat × BitVec 5) (f : Nat → Nat)
    (hr : s.EReady h i op vals) (hE : 0 < E) (hb : body (s.sees h op vals) s = .ok (s, eMap (s.sees h op vals) E m g))
    (hg : ∀ k, g k = (f k, 0)) (hw : ∀ c g w, op.dst = .vec c g w → 0 < w ∨ s.vlen h = 0)
    (hc : op.clash = true → (s.hart h).e.vl ≤ ((s.hart h).e.vstart / E + 1) * E) :
    ∃ t, eRun i s op noPre body = .next t ∧ EDone s t h op 0 ((s.sees h op vals).map m f) := by
  obtain rfl : g = fun k => (f k, 0) := funext hg
  obtain ⟨t, h1, h2⟩ := eMap_done i s h op vals body hr E m _ hE hb (quiet_zero _ _) hw hc
  rw [flags_zero] at h2
  exact ⟨t, h1, h2⟩

theorem view_fresh (e : ERegs) (h : e.prog = none) : e.view = e := by rw [ERegs.view, h]

theorem curE_ready {s : State} {h : Nat} {i op vals} (hr : s.EReady h i op vals) :
    s.curE = (s.hart h).e ∧ (s.sees h op vals).e = (s.hart h).e := by
  have hh : s.curHart = h := by simp [State.curHart, hr.cur, Agent.hart?]
  exact ⟨by rw [State.curE, hh]; exact view_fresh _ hr.fresh.prog, view_fresh _ hr.fresh.prog⟩

theorem vBin_done (i : Instr) (a b c : RCode) (m : BitVec 2)
    (s : State) (h : Nat) (vals) (g : Nat → Nat → Nat → Nat → Nat → Nat × BitVec 5) (f : Nat → Nat → Nat → Nat → Nat)
    (hg : ∀ fmt w frm x y, w = fmtWidth fmt → x < 2 ^ w → y < 2 ^ w → fmt ≤ 5 → g fmt w frm x y = (f fmt w x y, 0))
    (hr : s.EReady h i (s.opV h clsI [b, c] a) vals) :
  ∃ t, vBin i clsI a b c m s g = .next t ∧ 
      let x := s.sees h (s.opV h clsI [b, c] a) vals
      EDone s t h (s.opV h clsI [b, c] a) 0 (x.map m fun k => f x.e.fmt.toNat x.e.w (x.el 0 k) (x.el 1 k)) := by
  have hh : s.curHart = h := by simp [State.curHart, hr.cur, Agent.hart?]
  have hw := w_pos_of_checks s h _ clsI rfl clsI_le hr.checks
  have hc := (cls_of_checks s h _ clsI rfl hr.checks).2
  subst hh
  have he := curE_ready hr
  simp only [vBin, he.1]
  refine exact_done i s _ _ vals (eSize (s.hart s.curHart).e.w) m _ _ _ hr (eSize_e _) rfl (fun k => ?_) (opV_w _ _ _ _ _ hw)
    (opV_clash hr.checks _)
  simp only [EIn.el, he.2]
  exact hg _ _ _ _ _ rfl (fld_lt ..) (fld_lt ..) (by simpa [clsI] using hc)

theorem vUn_done (i : Instr) (cls) (hcls : ∀ f, cls f = true → f ≤ 13) (a b : RCode) (m : BitVec 2)
    (s : State) (h : Nat) (vals) (g : Nat → Nat → Nat → Nat → Nat × BitVec 5) (f : Nat → Nat → Nat)
    (hg : ∀ fmt w frm x, w = fmtWidth fmt → x < 2 ^ w → cls fmt = true → g fmt w frm x = (f w x, 0))
    (hr : s.EReady h i (s.opV h cls [b] a) vals) :
  ∃ t, vUn i cls a b m s g = .next t ∧ 
      let x := s.sees h (s.opV h cls [b] a) vals
      EDone s t h (s.opV h cls [b] a) 0 (x.map m fun k => f x.e.w (x.el 0 k)) := by
  have hh : s.curHart = h := by simp [State.curHart, hr.cur, Agent.hart?]
  have hw := w_pos_of_checks s h _ cls rfl hcls hr.checks
  have hc := (cls_of_checks s h _ cls rfl hr.checks).2
  subst hh
  have he := curE_ready hr
  simp only [vUn, he.1]
  refine exact_done i s _ _ vals (eSize (s.hart s.curHart).e.w) m _ _ _ hr (eSize_e _) rfl (fun k => ?_) (opV_w _ _ _ _ _ hw)
    (opV_clash hr.checks _)
  simp only [EIn.el, he.2]
  exact hg _ _ _ _ rfl (fld_lt ..) hc

theorem vGen_done (i : Instr) (a : RCode) (m : BitVec 2)
    (s : State) (h : Nat) (vals) (g : Nat → Nat → Nat) (f : Nat → Nat → Nat)
    (hg : ∀ w k, g w k % 2 ^ w = f w k)
    (hr : s.EReady h i (s.opV h clsI [] a) vals) :
  ∃ t, vGen i clsI a m s g = .next t ∧ 
      let x := s.sees h (s.opV h clsI [] a) vals
      EDone s t h (s.opV h clsI [] a) 0 (x.map m fun k => f x.e.w k) := by
  have hh : s.curHart = h := by simp [State.curHart, hr.cur, Agent.hart?]
  have hw := w_pos_of_checks s h _ clsI rfl clsI_le hr.checks
  subst hh
  have he := curE_ready hr
  simp only [vGen, he.1]
  refine exact_done i s _ _ vals (eSize (s.hart s.curHart).e.w) m _ _ _ hr (eSize_e _) rfl (fun k => ?_) (opV_w _ _ _ _ _ hw)
    (opV_clash hr.checks _)
  simp only [exact, hg, he.2]

theorem wrap_natCast (w x : Nat) : wrap w (x : Int) = x % 2 ^ w := by
  unfold wrap
  rw [← Int.natCast_emod]; rfl

theorem wrap_lt (w : Nat) (x : Int) : wrap w x < 2 ^ w := by
  unfold wrap
  have h1 := Int.emod_lt_of_pos x (show (0 : Int) < ((2 ^ w : Nat) : Int) by positivity)
  have h2 := Int.emod_nonneg x (show ((2 ^ w : Nat) : Int) ≠ 0 by positivity)
  omega

theorem wrap_mod (w : Nat) (x : Int) : wrap w x % 2 ^ w = wrap w x := Nat.mod_eq_of_lt (wrap_lt w x)

theorem wrap_sub (w x y : Nat) (hy : y < 2 ^ w) : (x + 2 ^ w - y) % 2 ^ w = wrap w ((x : Int) - y) := by
  rw [← wrap_natCast]
  unfold wrap
  congr 1
  rw [Nat.cast_sub (by omega), Nat.cast_add]
  rw [show ((x : Int) + ((2 ^ w : Nat) : Int) - y) = (x - y) + ((2 ^ w : Nat) : Int) by ring, Int.add_emod_right]

theorem wrap_add (w x y : Nat) : (x + y) % 2 ^ w = wrap w ((x : Int) + y) := by
  rw [← wrap_natCast]; push_cast; rfl
theorem wrap_mul (w x y : Nat) : (x * y) % 2 ^ w = wrap w ((x : Int) * y) := by
  rw [← wrap_natCast]; push_cast; rfl

theorem wrap_sext (w x : Nat) (h : x < 2 ^ w) : wrap w (sext w x) = x := by
  unfold sext
  simp only [Nat.mod_eq_of_lt h]
  split
  · rw [wrap_natCast, Nat.mod_eq_of_lt h]
  · unfold wrap
    rw [Int.sub_emod, Int.emod_self, Int.sub_zero, Int.emod_emod, ← Int.natCast_emod, Nat.mod_eq_of_lt h]; rfl

theorem wrap_div (w : Nat) (p : Int) : wrap (2 * w) p / 2 ^ w % 2 ^ w = wrap w (p / 2 ^ w) := by
  unfold wrap
  have hp : (0 : Int) < 2 ^ w := by positivity
  have h1 := Int.emod_nonneg p (show ((2 ^ (2 * w) : Int)) ≠ 0 by positivity)
  push_cast
  zify
  rw [Int.toNat_of_nonneg h1, Int.toNat_of_nonneg (Int.emod_nonneg _ (by positivity))]
  rw [two_mul, pow_add]
  have e : p % (2 ^ w * 2 ^ w) = p - 2 ^ w * (2 ^ w * (p / (2 ^ w * 2 ^ w))) := by
    rw [Int.emod_def]; ring
  rw [e, Int.sub_mul_ediv_left _ _ hp.ne', Int.sub_mul_emod_self_left]

theorem sext_range (w x : Nat) (hw : 0 < w) : -(2 ^ (w - 1)) ≤ sext w x ∧ sext w x ≤ 2 ^ (w - 1) - 1 := by
  unfold sext
  have h2 : (2 : Nat) ^ w = 2 * 2 ^ (w - 1) := by rw [← pow_succ']; congr 1; omega
  have h3 := Nat.mod_lt x (show 0 < 2 ^ w by positivity)
  have h4 : ((2 ^ (w - 1) : Nat) : Int) = 2 ^ (w - 1) := by push_cast; rfl
  rw [h2] at h3
  rw [← h4]
  simp only [h2]
  generalize x % (2 * 2 ^ (w - 1)) = u at *
  generalize 2 ^ (w - 1) = v at *
  split <;> (push_cast; omega)

theorem clamp_eq (fmt : Nat) (h : fmt ≤ 13) (x : Int) :
   (intClamp fmt x).1 = wrap (fmtWidth fmt) (clampInt fmt (fmtWidth fmt) x) := by
  have hw := fmtWidth_pos h
  unfold intClamp clampInt
  simp only
  have h4 : ((2 ^ (fmtWidth fmt - 1) : Nat) : Int) = 2 ^ (fmtWidth fmt - 1) := by push_cast; rfl
  have h5 : ((2 ^ (fmtWidth fmt) : Nat) : Int) = 2 ^ (fmtWidth fmt) := by push_cast; rfl
  have h6 : (0 : Int) < 2 ^ (fmtWidth fmt - 1) := by positivity
  have h7 : (0 : Int) < 2 ^ (fmtWidth fmt) := by positivity
  rw [h4, h5]
  by_cases hf : fmt % 2 = 0
  · simp only [if_pos hf]
    split
    · rename_i hlt
      rw [min_eq_left (by omega), max_eq_left (by omega)]
    · split
      · rw [min_eq_right (by omega), max_eq_right (by omega)]
      · rw [min_eq_left (by omega), max_eq_right (by omega)]
  · simp only [if_neg hf]
    split
    · rename_i hlt
      rw [min_eq_left (by omega), max_eq_left (by omega)]
    · split
      · rw [min_eq_right (by omega), max_eq_right (by omega)]
      · rw [min_eq_left (by omega), max_eq_right (by omega)]

theorem intOf_eq (fmt w v : Nat) (hv : v < 2 ^ w) : intOf fmt w v = asInt fmt w v := by
  unfold intOf asInt fmtSigned
  by_cases h : fmt % 2 = 0
  · simp [h]
  · have : (fmt % 2 == 0) = false := by simpa using h
    rw [if_neg h, this, Nat.mod_eq_of_lt hv]; simp

theorem min_wrap (w x y : Nat) (hx : x < 2 ^ w) (hy : y < 2 ^ w) :
    (if sext w y < sext w x then y else x) % 2 ^ w = wrap w (min (sext w x) (sext w y)) := by
  split
  · rw [min_eq_right (by omega), wrap_sext _ _ hy, Nat.mod_eq_of_lt hy]
  · rw [min_eq_left (by omega), wrap_sext _ _ hx, Nat.mod_eq_of_lt hx]

theorem max_wrap (w x y : Nat) (hx : x < 2 ^ w) (hy : y < 2 ^ w) :
    (if sext w x < sext w y then y else x) % 2 ^ w = wrap w (max (sext w x) (sext w y)) := by
  split
  · rw [max_eq_right (by omega), wrap_sext _ _ hy, Nat.mod_eq_of_lt hy]
  · rw [max_eq_left (by omega), wrap_sext _ _ hx, Nat.mod_eq_of_lt hx]

theorem bits_add (l : List Nat) (hl : l.Pairwise (· < ·)) (n : Nat) (hn : ∀ i ∈ l, n ≤ i) (a : Nat) (ha : a < 2 ^ n) (k : Nat) :
    (l.foldl (fun a i => a + 2 ^ i) a).testBit k = (a.testBit k || decide (k ∈ l)) := by
  induction l generalizing a n with
  | nil => simp
  | cons i l ih =>
    rw [List.foldl_cons]
    have hi := hn i List.mem_cons_self
    have hp := List.pairwise_cons.1 hl
    have hai : a < 2 ^ i := lt_of_lt_of_le ha (Nat.pow_le_pow_right (by omega) hi)
    rw [ih hp.2 (i + 1) (fun j hj => hp.1 j hj) (a + 2 ^ i) (by rw [pow_succ]; omega)]
    have : (a + 2 ^ i).testBit k = (a.testBit k || decide (k = i)) := by
      have e : a + 2 ^ i = 2 ^ i * 1 + a := by ring
      rw [e, Nat.testBit_two_pow_mul_add _ hai]
      split
      · have : k ≠ i := by omega
        simp [this]
      · have h0 : a.testBit k = false := Nat.testBit_lt_two_pow (lt_of_lt_of_le hai (Nat.pow_le_pow_right (by omega) (by omega)))
        rw [h0]
        by_cases hk : k = i
        · subst hk; simp
        · obtain ⟨n, hn⟩ : ∃ n, k - i = n + 1 := ⟨k - i - 1, by omega⟩
          simp [hk, hn, Nat.testBit_succ]
    rw [this, Bool.or_assoc]
    congr 1
    simp [List.mem_cons]

theorem testBit_natFromBits (w : Nat) (f : Nat → Bool) (k : Nat) : (natFromBits w f).testBit k = (decide (k < w) && f k) := by
  unfold natFromBits
  rw [bits_add _ (List.Pairwise.filter _ List.pairwise_lt_range) 0 (by simp) 0 (by simp)]
  simp [List.mem_filter, List.mem_range, Bool.decide_and]

theorem testBit_clmulN (w b c k : Nat) : (clmulN w b c).testBit k =
    (((List.range w).filter fun j => decide (j ≤ k) && b.testBit (k - j) && c.testBit j).length % 2 == 1) := by
  unfold clmulN
  have : ∀ (l : List Nat) (acc : Nat), (l.foldl (fun acc j => if c.testBit j then acc ^^^ (b * 2 ^ j) else acc) acc).testBit k =
      (acc.testBit k ^^ ((l.filter fun j => decide (j ≤ k) && b.testBit (k - j) && c.testBit j).length % 2 == 1)) := by
    intro l
    induction l with
    | nil => simp
    | cons j l ih =>
      intro acc
      rw [List.foldl_cons, ih]
      have hb : (b * 2 ^ j).testBit k = (decide (j ≤ k) && b.testBit (k - j)) := by
        rw [Nat.testBit_mul_two_pow]
      by_cases hc : c.testBit j = true
      · simp only [hc, if_true, Nat.testBit_xor, hb, List.filter_cons, Bool.and_true]
        by_cases h2 : (decide (j ≤ k) && b.testBit (k - j)) = true
        · rw [if_pos h2, h2, List.length_cons]
          have : ∀ n : Nat, ((n + 1) % 2 == 1) = !(n % 2 == 1) := by
            intro n; rcases Nat.mod_two_eq_zero_or_one n with h | h <;> simp [Nat.add_mod, h]
          rw [this]
          cases acc.testBit k <;> cases (_ % 2 == 1) <;> rfl
        · rw [if_neg h2]
          have : (decide (j ≤ k) && b.testBit (k - j)) = false := by simpa using h2
          rw [this]; simp
      · simp only [hc]
        simp [List.filter_cons, hc]
  rw [this]
  simp

theorem count_rev (w k : Nat) (b c : Nat) (hb : b < 2 ^ w) (hc : c < 2 ^ w) :
   ((List.range w).filter fun j => decide (j ≤ k) && b.testBit (k - j) && c.testBit j).length =
   ((List.range w).filter fun i => decide (i ≤ k) && decide (k - i < w) && b.testBit i && c.testBit (k - i)).length := by
  have hb' : ∀ i, w ≤ i → b.testBit i = false := fun i hi => Nat.testBit_lt_two_pow (lt_of_lt_of_le hb (Nat.pow_le_pow_right (by omega) hi))
  have e : ∀ p : Nat → Bool, ((List.range w).filter p).length = ((Finset.range w).filter fun i => p i = true).card := by
    intro p
    rw [← List.toFinset_range, ← List.toFinset_filter, List.toFinset_card_of_nodup (List.Nodup.filter _ List.nodup_range)]
  rw [e, e]
  refine Finset.card_bij' (fun j _ => k - j) (fun i _ => k - i) ?_ ?_ ?_ ?_
  · intro j hj
    simp only [Finset.mem_filter, Finset.mem_range, Bool.and_eq_true, decide_eq_true_eq] at hj ⊢
    obtain ⟨h1, ⟨h2, h3⟩, h4⟩ := hj
    have : k - j < w := by
      by_contra h
      rw [hb' _ (by omega)] at h3; simp at h3
    have e2 : k - (k - j) = j := by omega
    refine ⟨this, ⟨⟨by omega, by omega⟩, h3⟩, by rw [e2]; exact h4⟩
  · intro j hj
    simp only [Finset.mem_filter, Finset.mem_range, Bool.and_eq_true, decide_eq_true_eq] at hj ⊢
    obtain ⟨h1, ⟨⟨h2, h2'⟩, h3⟩, h4⟩ := hj
    have e2 : k - (k - j) = j := by omega
    exact ⟨h2', ⟨by omega, by rw [e2]; exact h3⟩, h4⟩
  · intro j hj
    simp only [Finset.mem_filter, Finset.mem_range, Bool.and_eq_true, decide_eq_true_eq] at hj
    omega
  · intro j hj
    simp only [Finset.mem_filter, Finset.mem_range, Bool.and_eq_true, decide_eq_true_eq] at hj
    omega

theorem clmul_low (w x y : Nat) (hx : x < 2 ^ w) (hy : y < 2 ^ w) : clmulN w x y % 2 ^ w = natFromBits w (clBitN w x y) := by
  apply Nat.eq_of_testBit_eq; intro k
  rw [Nat.testBit_mod_two_pow, testBit_natFromBits, testBit_clmulN, count_rev _ _ _ _ hx hy]; rfl

theorem clmul_high (w x y : Nat) (hx : x < 2 ^ w) (hy : y < 2 ^ w) : clmulN w x y / 2 ^ w % 2 ^ w = natFromBits w fun k => clBitN w x y (k + w) := by
  apply Nat.eq_of_testBit_eq; intro k
  rw [Nat.testBit_mod_two_pow, testBit_natFromBits, Nat.testBit_div_two_pow, testBit_clmulN, count_rev _ _ _ _ hx hy]; rfl


theorem hcur {s : State} {h i op vals} (hr : s.EReady h i op vals) : s.curHart = h := by
  simp [State.curHart, hr.cur, Agent.hart?]

theorem clsF_le (f : Nat) (h : clsF f = true) : f ≤ 13 := by simp [clsF] at h; omega
theorem clsH_le (f : Nat) (h : clsH f = true) : f ≤ 13 := by simp [clsH] at h; omega

theorem max_w (e : ERegs) (w : Nat) (h : w ≤ 32) : 0 < eSize (max w e.w) := 
  eSize_pos (by have := fmtWidth_le e.fmt.toNat; simp only [ERegs.w]; omega)

theorem fcmpFlags_eq (any : Bool) (p q : FVal) : fcmpFlags any p q =
    if (any && (p.isNan || q.isNan)) || p.isSig || q.isSig then flNV else 0 := by
  unfold fcmpFlags flNV
  congr 1
  simp only [eq_iff_iff, Bool.or_eq_true, Bool.and_eq_true]
  tauto

theorem vcmp_flags (i : Instr) (cls) (a b c m) (s : State) (h : Nat) (vals) (g : Nat → Nat → Nat → Nat → Bool × BitVec 5)
    (fl : Nat → BitVec 5) (r : Nat → Nat) (hr : s.EReady h i (s.opM h cls [b, c] a) vals)
    (hg : let x := s.sees h (s.opM h cls [b, c] a) vals
      ∀ k, g x.e.fmt.toNat x.e.w (x.el 0 k) (x.el 1 k) = (decide (r k = 1), fl k) ∧ (r k = 0 ∨ r k = 1))
    (hq : (s.sees h (s.opM h cls [b, c] a) vals).quiet m fl) :
    ∃ t, vCmp i cls a b c m s g = .next t ∧ EDone s t h (s.opM h cls [b, c] a)
      ((s.sees h (s.opM h cls [b, c] a) vals).flags m fl) ((s.sees h (s.opM h cls [b, c] a) vals).map m r) := by
  have hh := hcur hr
  subst hh
  have he := curE_ready hr
  have e : ∀ k, (b2n (g (s.hart s.curHart).e.fmt.toNat (s.hart s.curHart).e.w
      ((s.sees s.curHart (s.opM s.curHart cls [b, c] a) vals).el 0 k)
      ((s.sees s.curHart (s.opM s.curHart cls [b, c] a) vals).el 1 k)).1,
      (g (s.hart s.curHart).e.fmt.toNat (s.hart s.curHart).e.w
      ((s.sees s.curHart (s.opM s.curHart cls [b, c] a) vals).el 0 k)
      ((s.sees s.curHart (s.opM s.curHart cls [b, c] a) vals).el 1 k)).2) = (r k, fl k) := by
    intro k
    have h := hg k
    simp only [he.2] at h
    rw [h.1]
    rcases h.2 with h | h <;> simp [h, b2n]
  simp only [EIn.el, he.2] at e
  simp only [vCmp, he.1]
  refine eMap_done i s s.curHart _ vals _ hr (eSize (s.hart s.curHart).e.w) m (fun k => (r k, fl k)) (eSize_e _) ?_ hq (by simp [State.opM]) (by simp [State.opM, EOp.clash])
  simp only [← e]

theorem sext_bv {n : Nat} (b : BitVec n) : sext n b.toNat = b.toInt := by
  unfold sext
  rw [BitVec.toInt_eq_toNat_cond]
  simp only [Nat.mod_eq_of_lt b.isLt]


theorem immW_eq (w : Nat) (n : BitVec 7) : vImm w n = immW w n := by
  unfold vImm immW; rw [sext_bv]
theorem wrap_add' (w x : Nat) (z : Int) : (x + wrap w z) % 2 ^ w = wrap w ((x : Int) + z) := by
  rw [← wrap_natCast]
  unfold wrap
  congr 1
  push_cast
  rw [Int.toNat_of_nonneg (Int.emod_nonneg _ (by positivity))]
  simp

theorem imm_shift (w : Nat) (hw : w = 8 ∨ w = 16 ∨ w = 32) (n : BitVec 7) : immW w n % w = n.toNat % w := by
  unfold immW wrap
  have h := n.isLt
  rw [BitVec.toInt_eq_toNat_cond]
  rcases hw with rfl | rfl | rfl <;> split <;> omega

theorem clz_eq (w x : Nat) (hw : 0 < w) (hx : x < 2 ^ w) : clzN w x = ((List.range w).find? fun k => x.testBit (w - 1 - k)).getD w := by
  unfold clzN
  rw [Nat.mod_eq_of_lt hx]
  split
  · subst_vars
    have : (List.range w).find? (fun k => (0:Nat).testBit (w - 1 - k)) = none := by simp
    rw [this]; rfl
  · rename_i h0
    have hl := Nat.log2_lt h0 |>.2 hx
    have : (List.range w).find? (fun k => x.testBit (w - 1 - k)) = some (w - 1 - Nat.log2 x) := by
      rw [List.find?_range_eq_some]
      have e : w - 1 - (w - 1 - Nat.log2 x) = Nat.log2 x := by omega
      refine ⟨?_, by simp; omega, fun j hj => ?_⟩
      · rw [e]; exact Nat.testBit_log2 h0
      · rw [Nat.testBit_lt_two_pow]
        · rfl
        · exact lt_of_lt_of_le (Nat.lt_log2_self) (Nat.pow_le_pow_right (by omega) (by omega))
    rw [this]; rfl

end Sys2Proof.Machine
end

