-- ==== Sys2Proof/Laws/VMem.lean ====
section
/-! SUPPORT. Vector loads and stores of memory: their parts, and what a load over VTYPE's elements leaves. -/

namespace Sys2Proof.Machine

theorem splitDev_flat (dev : Nat → Bool) (start : Nat) (acc els : List VEl) :
    (splitDev dev start acc els).flatMap (·.2) = acc.reverse ++ els := by
  induction els generalizing start acc with
  | nil => unfold splitDev; cases acc <;> simp
  | cons e t ih =>
    unfold splitDev
    split
    · cases acc <;> simp [ih]
    · rw [ih]; simp

/-- The checks of an element, by the relation the statements use. -/
theorem vecTo_elem (s : State) (v : VAcc) (i a bit : Nat) (hp : v.place i = .va a bit) (p : Phys)
    (h : VecTo s v.h v.write v.sc v.atomic v.nb a (.ok p)) :
    s.vElem v i = .ok (some p) ∧ s.vecErr v.h v.write v.atomic p v.nb = false := by
  cases h with
  | ok _ h1 h2 h3 h4 h5 =>
    refine ⟨?_, h5⟩
    unfold State.vElem State.vCheck
    rw [hp]
    simp only [if_neg h1, h2, ne_eq, not_true_eq_false, if_false, h3, scopeCheck]
    rw [if_neg, if_neg]
    · intro h; apply h4; right; simpa using h
    · intro h; apply h4; left; simp at h; exact ⟨h.1.1, h.1.2, h.2⟩

/-- A parts list none of whose elements fails. -/
theorem partFault_none (els : List VEl) (h : ∀ e ∈ els, ∃ x, e.2 = .ok x) : partFault els = none := by
  unfold partFault
  rw [List.findSome?_eq_none_iff]
  intro e he
  obtain ⟨x, hx⟩ := h e he
  rw [hx]

theorem partCells_ok (els : List VEl) (f : Nat → Option Phys) (h : ∀ e ∈ els, e.2 = .ok (f e.1)) :
    partCells els = els.map fun e => (e.1, f e.1) := by
  unfold partCells
  induction els with
  | nil => rfl
  | cons e t ih =>
    rw [List.filterMap_cons, h e (by simp)]
    simp only [List.map_cons]
    rw [ih fun e he => h e (by simp [he])]

/-! An L1 without dirty bytes. -/

theorem l1Of_setL1 (s : State) (b : Nat) (c : L1) : (s.setL1 b c).l1Of b = c := by simp [State.l1Of, State.setL1]

theorem lostWrite_l1 (s : State) : s.lostWrite.l1 = s.l1 := rfl

theorem foldl_lostWrite_l1 (l : List Nat) (s : State) : (l.foldl (fun (s : State) (_ : Nat) => s.lostWrite) s).l1 = s.l1 := by
  induction l generalizing s with
  | nil => rfl
  | cons a t ih => rw [List.foldl_cons, ih, lostWrite_l1]

/-- After a release nothing is dirty. -/
theorem l1Release_dirty (s : State) (h : Nat) : ((s.l1Release h).l1Of (bayOf h)).dirty = [] := by
  unfold State.l1Release State.l1WriteBack
  simp only [List.filter_true, Bool.not_true, List.filter_false]
  split
  · rename_i h1; simpa using h1
  · rw [State.l1Of, foldl_lostWrite_l1]
    simp [State.setL1]

/-- A release with nothing dirty does nothing. -/
theorem l1Release_clean (s : State) (h : Nat) (hd : (s.l1Of (bayOf h)).dirty = []) : s.l1Release h = s := by
  unfold State.l1Release State.l1WriteBack
  simp [hd]

theorem l1Acquire_dirty (s : State) (h : Nat) : ((s.l1Acquire h).l1Of (bayOf h)).dirty = (s.l1Of (bayOf h)).dirty := by
  unfold State.l1Acquire State.l1Drop
  simp only
  split
  · rfl
  · rw [l1Of_setL1]

/-- A second acquire drops nothing more, whatever tickets were taken between. -/
theorem l1Acquire_ticket (s : State) (h : Nat) (n : W64) :
    ({ s.l1Acquire h with ticket := n } : State).l1Acquire h = ({ s with ticket := n } : State).l1Acquire h := by
  unfold State.l1Acquire State.l1Drop
  simp only [Bool.not_true, List.filter_false]
  by_cases hc : (s.l1Of (bayOf h)).clean.isEmpty = true
  · rw [if_pos hc]
  · rw [if_neg hc]
    have e : ({ s.setL1 (bayOf h) { s.l1Of (bayOf h) with clean := [] } with ticket := n } : State).l1Of (bayOf h) =
      { s.l1Of (bayOf h) with clean := [] } := l1Of_setL1 s _ _
    rw [e]
    simp only [List.isEmpty_nil, if_true]
    have e2 : ({ s with ticket := n } : State).l1Of (bayOf h) = s.l1Of (bayOf h) := rfl
    rw [e2, if_neg hc]
    rfl

/-- A release changes memory, its errors, the L1 and the pending interrupts; in no way the hart. -/
theorem release_frame (s : State) (h : Nat) : s.l1Release h =
    { s with mem := (s.l1Release h).mem, bad := (s.l1Release h).bad, l1 := (s.l1Release h).l1, preg := (s.l1Release h).preg } := by
  have key : ∀ (l : List Nat) (s : State), l.foldl (fun (s : State) (_ : Nat) => s.lostWrite) s =
      { s with mem := (l.foldl (fun (s : State) (_ : Nat) => s.lostWrite) s).mem
               bad := (l.foldl (fun (s : State) (_ : Nat) => s.lostWrite) s).bad
               preg := (l.foldl (fun (s : State) (_ : Nat) => s.lostWrite) s).preg } := by
    intro l
    induction l with
    | nil => intro s; rfl
    | cons a t ih => intro s; rw [List.foldl_cons, ih]; rfl
  unfold State.l1Release State.l1WriteBack
  simp only
  split
  · rfl
  · rw [key]; rfl

theorem acquire_frame (s : State) (h : Nat) : s.l1Acquire h = { s with l1 := (s.l1Acquire h).l1 } := by
  unfold State.l1Acquire State.l1Drop
  simp only
  split <;> rfl

/-- The release and the acquires of an access leave its hart as it was. -/
theorem scTo_frame (s : State) (h : Nat) (sc : Bool) (n : Nat) : s.scTo h sc n =
    { s with mem := (s.scTo h sc n).mem, bad := (s.scTo h sc n).bad, l1 := (s.scTo h sc n).l1, preg := (s.scTo h sc n).preg
             ticket := (s.scTo h sc n).ticket } := by
  unfold State.scTo
  split
  · rw [acquire_frame, release_frame s h]
  · rfl

/-- Loads of parts none of which fails. -/
theorem vLoads_ok (s : State) (v : VAcc) (parts : List (Nat × List VEl)) (o : EOut) (hw : v.write = false)
    (hf : ∀ p ∈ parts, partFault p.2 = none) (h : ∀ p ∈ parts, (s.scFrom v.h v.sc).partStop v p.2 = none) :
    s.vLoads v parts o = (s.scTo v.h v.sc parts.length,
      { o with writes := o.writes ++ parts.flatMap fun p => (partCells p.2).map fun c => (c.1, (s.scFrom v.h v.sc).vRead v c.1 c.2) }) := by
  by_cases hs : v.sc = true
  · -- every element but the first finds nothing dirty
    have key : ∀ (parts : List (Nat × List VEl)) (s : State) (o : EOut), (s.l1Of (bayOf v.h)).dirty = [] →
        (∀ p ∈ parts, partFault p.2 = none) → (∀ p ∈ parts, s.partStop v p.2 = none) →
        s.vLoads v parts o = (if parts = [] then s else ({ s with ticket := s.ticket + BitVec.ofNat 64 parts.length } : State).l1Acquire v.h,
          { o with writes := o.writes ++ parts.flatMap fun p => (partCells p.2).map fun c => (c.1, s.vRead v c.1 c.2) }) := by
      intro parts
      induction parts with
      | nil => intro s o _ _ _; simp [State.vLoads]
      | cons p t ih =>
        intro s o hd hf h
        obtain ⟨start, els⟩ := p
        have hb : s.vBegin v els = s := by
          unfold State.vBegin
          rw [show partFault els = none from hf (start, els) (by simp)]
          simp [hs, hw, l1Release_clean s v.h hd]
        rw [State.vLoads]
        simp only [hb]
        rw [h (start, els) (by simp)]
        simp only
        have he : s.vEnd v = ({ s with ticket := s.ticket + 1 } : State).l1Acquire v.h := by simp [State.vEnd, hs]
        have hd1 : ((s.vEnd v).l1Of (bayOf v.h)).dirty = [] := by rw [he, l1Acquire_dirty]; exact hd
        have hfr := acquire_frame ({ s with ticket := s.ticket + 1 } : State) v.h
        have hvb : ∀ x, (s.vEnd v).vBad v x = s.vBad v x := by
          intro x
          unfold State.vBad State.vCut State.snoopBad
          cases x with
          | none => rfl
          | some p =>
            simp only [hd1, hd, List.isEmpty_nil, if_true]
            rw [he, hfr]; rfl
        have hvr : ∀ i x, (s.vEnd v).vRead v i x = s.vRead v i x := by
          intro i x
          unfold State.vRead State.snoopBytes
          cases x with
          | none => rfl
          | some p =>
            simp only [hd1, hd, List.isEmpty_nil, if_true]
            rw [he, hfr]; rfl
        have hps : ∀ p ∈ t, (s.vEnd v).partStop v p.2 = none := by
          intro p hp
          have := h p (List.mem_cons_of_mem _ hp)
          unfold State.partStop State.partBad at this ⊢
          simpa only [hvb] using this
        rw [ih _ _ hd1 (fun p hp => hf p (List.mem_cons_of_mem _ hp)) hps]
        have hst : (if t = [] then s.vEnd v else ({ s.vEnd v with ticket := (s.vEnd v).ticket + BitVec.ofNat 64 t.length } : State).l1Acquire v.h) =
            ({ s with ticket := s.ticket + BitVec.ofNat 64 (t.length + 1) } : State).l1Acquire v.h := by
          rw [he]
          by_cases ht : t = []
          · subst ht; simp
          · rw [if_neg ht, l1Acquire_ticket]
            have : (({ s with ticket := s.ticket + 1 } : State).l1Acquire v.h).ticket = s.ticket + 1 := by rw [acquire_frame]
            rw [this, BitVec.add_assoc]
            have : (1 : W64) + BitVec.ofNat 64 t.length = BitVec.ofNat 64 (t.length + 1) := by
              rw [Nat.add_comm, BitVec.ofNat_add]; rfl
            rw [this]
        rw [hst]
        simp only [hvr, List.flatMap_cons, List.append_assoc, reduceCtorEq, if_false, List.length_cons]
    cases parts with
    | nil => simp [State.vLoads, State.scTo]
    | cons p t =>
      have h0 : s.scFrom v.h v.sc = s.l1Release v.h := by simp [State.scFrom, hs]
      have hd := l1Release_dirty s v.h
      have h2 : s.vLoads v (p :: t) o = (s.l1Release v.h).vLoads v (p :: t) o := by
        obtain ⟨start, els⟩ := p
        have h1 : s.vBegin v els = s.l1Release v.h := by
          unfold State.vBegin; rw [show partFault els = none from hf (start, els) (by simp)]; simp [hs, hw]
        have h3 : (s.l1Release v.h).vBegin v els = s.l1Release v.h := by
          unfold State.vBegin; rw [show partFault els = none from hf (start, els) (by simp)]; simp [hs, hw, l1Release_clean _ v.h hd]
        rw [State.vLoads, State.vLoads, h1, h3]
      rw [h2, key (p :: t) _ o hd hf (by rw [← h0]; exact h), h0]
      simp [State.scTo, hs]
  · have hs' : v.sc = false := by simpa using hs
    have hsf : s.scFrom v.h v.sc = s := by simp [State.scFrom, hs']
    have hst : ∀ n, s.scTo v.h v.sc n = s := by intro n; simp [State.scTo, hs']
    rw [hsf] at h
    rw [hsf, hst]
    induction parts generalizing o with
    | nil => simp [State.vLoads]
    | cons p t ih =>
      obtain ⟨start, els⟩ := p
      have hb : s.vBegin v els = s := by
        unfold State.vBegin
        rw [show partFault els = none from hf (start, els) (by simp)]
        simp [hs', hw]
      have he : s.vEnd v = s := by simp [State.vEnd, hs']
      rw [State.vLoads]
      simp only [hb]
      rw [h (start, els) (by simp)]
      simp only [he]
      rw [ih _ (fun p hp => hf p (List.mem_cons_of_mem _ hp)) (fun p hp => h p (List.mem_cons_of_mem _ hp))]
      simp [List.flatMap_cons, List.append_assoc]

/-- The elements that an access computes, in order. -/
def VAcc.els (v : VAcc) : List Nat := groupElems v.E v.vstart v.n v.active (groupNos v.E v.vstart v.n)

theorem vParts_flat (s : State) (v : VAcc) : (s.vParts v).flatMap (·.2) = v.els.map fun i => (i, s.vElem v i) := by
  unfold State.vParts VAcc.els groupElems
  rw [List.flatMap_assoc]
  simp only [splitDev_flat]
  generalize groupNos v.E v.vstart v.n = ks
  induction ks with
  | nil => rfl
  | cons k ks ih => rw [List.flatMap_cons, List.flatMap_cons, List.filter_append, List.map_append, ih]; rfl

theorem mem_vParts (s : State) (v : VAcc) (p) (hp : p ∈ s.vParts v) (e) (he : e ∈ p.2) :
    e.1 ∈ v.els ∧ e.2 = s.vElem v e.1 := by
  have : e ∈ (s.vParts v).flatMap (·.2) := List.mem_flatMap.2 ⟨p, hp, he⟩
  rw [vParts_flat] at this
  obtain ⟨i, hi, rfl⟩ := List.mem_map.1 this
  exact ⟨hi, rfl⟩

theorem flatMap_cells (parts : List (Nat × List VEl)) (f : Nat → Option Phys) (g : Nat × Option Phys → Nat × Nat) (l : List Nat)
    (h : ∀ p ∈ parts, ∀ e ∈ p.2, e.2 = .ok (f e.1)) (hl : (parts.flatMap (·.2)).map (·.1) = l) :
    (parts.flatMap fun p => (partCells p.2).map g) = l.map fun i => g (i, f i) := by
  subst hl
  induction parts with
  | nil => rfl
  | cons p t ih =>
    rw [List.flatMap_cons, partCells_ok p.2 f (h p (by simp)), ih fun q hq => h q (List.mem_cons_of_mem _ hq)]
    simp [List.flatMap_cons, List.map_append]

/-- Loads all of whose elements pass. -/
theorem vLoads_all (s : State) (v : VAcc) (f : Nat → Option Phys)
    (hw : v.write = false) (h : ∀ i ∈ v.els, s.vElem v i = .ok (f i) ∧ (s.scFrom v.h v.sc).vBad v (f i) = false) :
    s.vLoads v (s.vParts v) .none = (s.scTo v.h v.sc (s.vParts v).length,
      ⟨v.els.map fun i => (i, (s.scFrom v.h v.sc).vRead v i (f i)), 0, none, none⟩) := by
  have hm : ∀ p ∈ s.vParts v, ∀ e ∈ p.2, e.2 = .ok (f e.1) := by
    intro p hp e he
    obtain ⟨h1, h2⟩ := mem_vParts s v p hp e he
    rw [h2, (h _ h1).1]
  have hpf : ∀ p ∈ s.vParts v, partFault p.2 = none := fun p hp => partFault_none p.2 fun e he => ⟨_, hm p hp e he⟩
  rw [vLoads_ok s v _ _ hw hpf]
  · congr 1
    simp only [EOut.none, List.nil_append]
    rw [flatMap_cells (s.vParts v) f _ v.els hm (by rw [vParts_flat, List.map_map]; exact List.map_id _)]
  · intro p hp
    unfold State.partStop
    rw [hpf p hp]
    simp only [Option.map_eq_none_iff, State.partBad, partCells_ok p.2 f (hm p hp)]
    rw [List.find?_eq_none.2]
    intro c hc
    obtain ⟨e, he, rfl⟩ := List.mem_map.1 hc
    obtain ⟨h1, h2⟩ := mem_vParts s v p hp e he
    simp [(h _ h1).2]

/-- The load's answer over VTYPE's elements. -/
theorem splitDev_single (dev : Nat → Bool) (start : Nat) (e : VEl) : (splitDev dev start [] [e]).length = 1 := by
  unfold splitDev; split <;> simp [splitDev]

theorem span_one (k : Nat) : span (k * 1) 1 = [k] := by simp [span]

theorem vParts_sc (s : State) (v : VAcc) (hE : v.E = 1) : (s.vParts v).length = v.els.length := by
  unfold State.vParts VAcc.els groupElems
  rw [hE]
  generalize groupNos 1 v.vstart v.n = ks
  induction ks with
  | nil => rfl
  | cons k ks ih =>
    rw [List.flatMap_cons, List.length_append, ih, List.flatMap_cons, List.filter_append, List.length_append]
    congr 1
    rw [span_one]
    simp only [List.filter_cons, List.filter_nil]
    split
    · rw [List.map_singleton, splitDev_single]; rfl
    · rfl

theorem groupElems_perm (E vstart n : Nat) (active : Nat → Bool) (hE : 0 < E) :
    groupElems E vstart n active (groupNos E vstart n) =
      (List.range n).filter fun i => decide (vstart ≤ i) && active i := by
  have h1 : ∀ a b, (span a b).flatMap (fun k => span (k * E) E) = span (a * E) (b * E) := by
    intro a b
    induction b with
    | zero => simp [span]
    | succ b ih =>
      have : span a (b + 1) = span a b ++ [a + b] := by simp [span, List.range_succ]
      rw [this, List.flatMap_append, ih]
      simp only [span, List.flatMap_cons, List.flatMap_nil, List.append_nil]
      rw [add_mul b 1 E, one_mul, List.range_add, List.map_append, List.map_map]
      congr 1
      apply List.map_congr_left
      intro i _
      simp [Function.comp]; ring
  unfold groupElems groupNos
  rw [h1]
  have hsp : ∀ a b, span a b = (List.range b).map (a + ·) := fun _ _ => rfl
  apply List.Perm.eq_of_pairwise (le := (· < ·))
  · intro a b _ _ h1 h2; omega
  · apply List.Pairwise.filter
    rw [hsp, List.pairwise_map]
    exact List.pairwise_lt_range.imp fun h => by omega
  · exact List.Pairwise.filter _ List.pairwise_lt_range
  · rw [List.perm_ext_iff_of_nodup]
    · intro i
      simp only [List.mem_filter, hsp, List.mem_map, List.mem_range, Bool.and_eq_true, decide_eq_true_eq]
      constructor
      · rintro ⟨-, ⟨h2, h3⟩, h4⟩; exact ⟨h3, h2, h4⟩
      · rintro ⟨h3, h2, h4⟩
        refine ⟨⟨i - vstart / E * E, ?_, ?_⟩, ⟨h2, h3⟩, h4⟩
        · have := Nat.div_mul_le_self vstart E
          have hc : n ≤ ceilDiv n E * E := by
            unfold ceilDiv
            have h1 := Nat.div_add_mod (n + E - 1) E
            have h2 := Nat.mod_lt (n + E - 1) hE
            rw [Nat.mul_comm]
            generalize E * ((n + E - 1) / E) = z at *
            omega
          rw [Nat.sub_mul]; omega
        · have := Nat.div_mul_le_self vstart E; omega
    · apply List.Nodup.filter
      rw [hsp]
      exact List.nodup_range.map fun a b h => by simpa using h
    · exact List.Nodup.filter _ List.nodup_range

theorem mem_els (v : VAcc) (hE : 0 < v.E) (i : Nat) : i ∈ v.els ↔ v.vstart ≤ i ∧ i < v.n ∧ v.active i = true :=
  mem_groupElems _ _ _ _ hE _

/-- A load over VTYPE's elements completes. -/
theorem load_done (i : Instr) (s : State) (h : Nat) (op : EOp) (vals : List VReg) (r : VAccess) (v : VAcc) (ph : Nat → Phys)
    (body : EIn → State → EBody) (hr : s.EReady h i op vals)
    (hb : body (s.sees h op vals) s = .ok (s.vLoads v (s.vParts v) EOut.none))
    (hop : op.dst = .vec r.a (s.hart h).e.g (s.hart h).e.w) (hW : 0 < (s.hart h).e.w)
    (hv : v.h = h ∧ v.write = false ∧ v.sc = r.sc ∧ v.atomic = false ∧ v.w = (s.hart h).e.w ∧ v.vstart = (s.hart h).e.vstart ∧
      v.n = (s.hart h).e.vl ∧ v.active = (s.sees h op vals).active r.m)
    (hE : 0 < v.E) (hsc : r.sc = true → v.E = 1)
    (hpl : ∀ k, v.place k = .va (r.place (s.sees h op vals) k).1 (r.place (s.sees h op vals) k).2)
    (hk : ∀ k, (s.sees h op vals).computes r.m k →
      VecTo s h false r.sc false (elBytes (s.hart h).e.w) (r.place (s.sees h op vals) k).1 (.ok (ph k)) ∧
        (s.scFrom h r.sc).vecErr h false false (ph k) (elBytes (s.hart h).e.w) = false) :
    ∃ t, eRun i s op noPre body = .next t ∧
      EDone (s.scTo h r.sc ((s.sees h op vals).count r.m)) t h op 0
        ((s.sees h op vals).map r.m fun k => (s.scFrom h r.sc).vecNat h (ph k) (elBytes (s.hart h).e.w) /
          2 ^ (r.place (s.sees h op vals) k).2 % 2 ^ (s.hart h).e.w) := by
  obtain ⟨h1, h2, h3, h4, h5, h6, h7, h8⟩ := hv
  have hxe : (s.sees h op vals).e = (s.hart h).e := view_fresh _ hr.fresh.prog
  have hel : ∀ k, k ∈ v.els → s.vElem v k = .ok (some (ph k)) ∧ (s.scFrom v.h v.sc).vBad v (some (ph k)) = false := by
    intro k hk'
    rw [mem_els v hE, h6, h7, h8] at hk'
    have h9 : v.nb = elBytes (s.hart h).e.w := by rw [VAcc.nb, h5]; rfl
    obtain ⟨h10, h11⟩ := hk k (by rw [EIn.computes, hxe]; exact hk')
    have : VecTo s v.h v.write v.sc v.atomic v.nb (r.place (s.sees h op vals) k).1 (.ok (ph k)) := by
      rw [h1, h2, h3, h4, h9]; exact h10
    refine ⟨(vecTo_elem s v k _ _ (hpl k) (ph k) this).1, ?_⟩
    unfold State.vBad State.vCut
    rw [h1, h2, h3, h9]
    simpa [State.vecErr] using h11
  have := vLoads_all s v (fun k => some (ph k)) h2 hel
  rw [this] at hb
  rw [h1, h3] at hb
  have hfr := scTo_frame s h r.sc (s.vParts v).length
  have hha : (s.scTo h r.sc (s.vParts v).length).hart h = s.hart h := by rw [hfr]; rfl
  have hvl : (s.scTo h r.sc (s.vParts v).length).vlen h = s.vlen h := by rw [hfr]; rfl
  have hfin := eWhole_done i s _ h op vals body hr _ 0 hb (by rw [hfr]) (by rw [hha]; exact hr.fresh)
    (by rw [hfr]; exact hr.checks) (by
    intro c g w hd; left; rw [hop] at hd; cases hd; exact hW)
  have hcnt : s.scTo h r.sc (s.vParts v).length = s.scTo h r.sc ((s.sees h op vals).count r.m) := by
    by_cases hs : r.sc = true
    · rw [vParts_sc s v (hsc hs), VAcc.els, groupElems_perm _ _ _ _ hE, EIn.count, h6, h7, h8, EIn.todo, hxe]
    · simp [State.scTo, hs]
  rw [hcnt] at hfin
  convert hfin using 4
  funext k
  rw [lastWrite_map, EIn.map]
  simp only [mem_els v hE, h6, h7, h8, hxe]
  split
  · refine congrArg some ?_
    simp only [State.vRead, fld, hpl, VPlace.bit, h5, h1, State.vecNat]
    rw [show v.nb = elBytes (s.hart h).e.w by rw [VAcc.nb, h5]; rfl]
  · rfl

theorem w64_add (a b : Nat) : (w64 a + w64 b).toNat = (a + b) % 2 ^ 64 := by simp [w64, BitVec.toNat_add]
theorem w64_mul_add (a b c : Nat) : (w64 a + w64 b * w64 c).toNat = (a + b * c) % 2 ^ 64 := by
  simp only [w64, BitVec.toNat_add, BitVec.toNat_mul, BitVec.toNat_ofNat, ← Nat.mul_mod, Nat.add_mod_mod, Nat.mod_add_mod]
theorem w64_addi (a : Nat) (b : Int) : (w64 a + w64i b).toNat = wrap 64 ((a : Int) + b) := by
  rw [w64, w64i, BitVec.toNat_add, BitVec.toNat_ofInt, BitVec.toNat_ofNat, wrap]
  omega

theorem rawPlace_eq (x : EIn) (j k w : Nat) (hw : x.e.w = w) :
    rawPlace (w64 (x.sc j)) w k = .va (rawAt j x k).1 (rawAt j x k).2 := by
  subst hw
  rw [rawPlace, w64_add]; rfl
theorem stridePlace_eq (x : EIn) (j k : Nat) :
    stridePlace (w64 (x.sc j)) (w64 (x.sc (j + 1))) k = .va (strideAt j x k).1 (strideAt j x k).2 := by
  rw [stridePlace, w64_mul_add]; rfl
theorem indexPlace_eq (x : EIn) (j k : Nat) :
    indexPlace (w64 (x.sc j)) (x.vec (j + 1) x.e.idxG) k = .va (indexAt j x k).1 (indexAt j x k).2 := by
  rw [indexPlace, w64_addi]; rfl

end Sys2Proof.Machine
end

