-- ==== Sys2Proof/Tests/States.lean ====
section
/-! SUPPORT. The small states of the tests: one hart of a step in context ASID 1 at the values of R44, its A-stream or its
E-stream at the next instruction, or plate core 0, with the first 2 MiB mapped onto themselves and every feature accepted. -/

namespace Sys2Proof.Tests

open Sys2Proof Sys2Proof.Machine

/-- A hart's A-stream stands at the word of ADD. -/
def base : State := { State.reset.fetchAt 0x0448A580 with agenda := [] }

/-- The A-stream of hart 0 executes; x9 .. hold these values. -/
def aSt (xs : List W64) : State :=
  ({ base with cur := .aStream 0 } : State).modA 0 fun a => { a with x := xs.mapIdx fun k v => (k + 9, v) }

/-- The E-stream of hart 0 executes, with VL elements of a format, groups of 2 ^ g registers. -/
def eSt (fmt : BitVec 4) (g : BitVec 2) (vl : Nat) : State :=
  ({ base with cur := .eStream 0 } : State).modE 0 fun e => { e with vill := false, fmt := fmt, group := g, vl := vl }

/-- Plate core 0 executes; x9 .. hold these values. -/
def pSt (xs : List W64) : State :=
  ({ State.reset.fetchAt 0x64000000 with agenda := [], cur := .plate 0 } : State).modPlate 0 fun c =>
    { c with x := xs.mapIdx fun k v => (k + 9, v) }

/-- Eight harts of a TRUSS step; hart 0's A-stream executes. -/
def tSt : State := { State.reset.fetchAt (BitVec.ofNat 32 (0x15 * 2 ^ 26 + 5)) with agenda := [], cur := .aStream 0 }

/-- The conditions of EReady as one computation. -/
def eReadyB (s : State) (h : Nat) (i : Instr) (op : EOp) (vals : List VReg) : Bool :=
  decide (s.cur = .eStream h) && decide (s.gateFail i = none) && decide (s.eChecks h op = none) &&
  decide ((s.hart h).m.rowTrap (op.touched (s.hart h).e) = none) &&
  !((s.hart h).m.rowBusy (op.touched (s.hart h).e)) && decide (s.limit = none) && !(s.hart h).e.kept &&
  decide ((s.hart h).e.prog = none) && decide ((s.hart h).e.vsw = none) && decide ((s.hart h).e.bad = []) &&
  decide (popsOf (s.hart h).r.ae [] op.srcs [] = .ready vals) &&
  match op.dst.port? with
  | none => true
  | some q => decide ((s.eaOf h q).length < 8)

theorem eReady {s : State} {h : Nat} {i : Instr} {op : EOp} {vals : List VReg} (hb : eReadyB s h i op vals = true) :
    s.EReady h i op vals := by
  simp only [eReadyB, Bool.and_eq_true, Bool.not_eq_true', decide_eq_true_eq] at hb
  obtain ⟨⟨⟨⟨⟨⟨⟨⟨⟨⟨⟨h1, h2⟩, h3⟩, h4⟩, h5⟩, h9⟩, h6⟩, h10⟩, h11⟩, h12⟩, h7⟩, h8⟩ := hb
  refine ⟨h1, h2, h3, h4, h5, h9, ⟨h6, h10, h11, h12⟩, h7, fun q hq => ?_⟩
  rw [hq] at h8
  simpa using h8

theorem quiet_of_fpen {x : EIn} (h : x.e.fpen = 0) (m : BitVec 2) (f : Nat → BitVec 5) : x.quiet m f :=
  fun k _ => by rw [h]; exact BitVec.and_zero

end Sys2Proof.Tests
end

