-- ==== Sys2Proof/Tests/VMem.lean ====
section
/-! SUPPORT. Tests of vector configuration and of the vector and tile accesses: a witness for the hypotheses of each
statement about them, and a few results. -/

namespace Sys2Proof.Tests

set_option Elab.async false

open Sys2Proof Sys2Proof.Machine

/-- The E-stream of a hart with a scratch allocation of 4 KiB: o0 holds v, o1 holds w, main registers 0 to 3 count up. -/
def mSt (fmt : BitVec 4) (vl : Nat) (v w : VReg) : State :=
  ((eSt fmt 0 vl).modR 0 fun r => { r with bound := 4096, allocSize := 4096, alloc := 8192 }).modE 0 fun e =>
    { e with o := [(0, v), (1, w)], main := [(0, 0x0000_0002_0000_0001), (1, 0x0000_0004_0000_0000)] }

/-- What holds of the elements 0 and 1 holds of every computed element below VL 2. -/
theorem of_two {x : EIn} {m : BitVec 2} {p : Nat → Prop} (hv : x.e.vl ≤ 2) (h0 : p 0) (h1 : p 1) (k : Nat)
    (hk : x.computes m k) : p k := by
  have := hk.2.1
  obtain rfl | rfl : k = 0 ∨ k = 1 := by omega
  · exact h0
  · exact h1

/-- Where element k of the hart's allocation from its byte o lies. -/
def cellAt (o k : Nat) : Phys := ⟨scratchKey 0 (8192 + o + 4 * k), false⟩

/-- Scratch is in no L1, and no path to it is lost. -/
theorem writes_cell (s : State) (o k n : Nat) (h : o + 4 * k < 2 ^ 50) : s.Writes 0 (cellAt o k) n := by
  refine ⟨?_, fun hc => ?_⟩
  · simp [State.cutKey, cellAt, isRemote, scratchKey]; omega
  · have hs : isScratch (scratchKey 0 (8192 + o + 4 * k)) = true := by simp [isScratch, scratchKey]; omega
    simp [Phys.snooped, cellAt, hs] at hc

/-- A place whose line is dirty in the bay's L1. -/
theorem witness_VectorStores_cached :
    let s : State := { mSt 4 2 0x1800 0 with l1 := [(0, ⟨[(0x1800, 7)], [], []⟩)] }
    let p : Phys := ⟨0x1800, false⟩
    p.cached = true ∧ s.DirtyAt 0 p.key 4 ∧ s.Writes 0 p 4 := by
  refine ⟨by decide +kernel, ⟨(0x1800, 7), by decide +kernel, by
    simp only [inLines, decide_true, Nat.le_refl, Bool.and_eq_true, decide_eq_true_eq, true_and]
    exact Nat.div_le_div_right (by omega)⟩, by decide +kernel, fun _ _ => ⟨by decide +kernel, by decide +kernel⟩⟩

theorem witness_VectorConfig : (eSt 0 0 0).EReady 0 (.vsetvl 16 8 3 4) ((eSt 0 0 0).opS 0 none [8] [(8, 1)] 16) [] ∧
    (eSt 0 0 0).EReady 0 (.vsetvl 0 8 0 14) ((eSt 0 0 0).opS 0 none [8] [(8, 1)] 0) [] ∧
    ((eSt 0 0 0).cur = .eStream 0 ∧ (eSt 0 0 0).gateFail (.wbase 104) = none ∧
      (0 : Int) ≤ ((eSt 0 0 0).hart 0).e.wb + (104 : BitVec 12).toInt ∧
      ((eSt 0 0 0).hart 0).e.wb + (104 : BitVec 12).toInt < ((eSt 0 0 0).hart 0).id.rsize) ∧
    ((eSt 0 0 0).gateFail (.wbase 0xFF8) = none ∧ ¬ (0 : Int) ≤ ((eSt 0 0 0).hart 0).e.wb + (0xFF8 : BitVec 12).toInt ∧
      ((eSt 0 0 0).hart 0).e.Fresh) :=
  ⟨eReady (by decide +kernel), eReady (by decide +kernel), by decide +kernel, by decide +kernel, by decide +kernel,
    ⟨by decide +kernel, by decide +kernel, by decide +kernel, by decide +kernel⟩⟩

/-- R102: VLMAX of FP32 in groups of 8 on 32 lanes is 256; AVL 300 gives it. -/
theorem test_vsetvl : ∃ t, exec (.vsetvl 18 8 3 6) (mSt 0 0 300 0) = .next t ∧
    ((t.hart 0).e.vl, (tgetD (t.hart 0).e.main 2 0).toNat) = (256, 256) := ⟨_, rfl, by decide +kernel⟩

/-- The access of VLR at element k, and of VLRSC and VSTR. -/
theorem witness_VectorLoads : ∃ r, vloadRow (.vlr 18 8 0) ((mSt 4 2 0xFF00_0000_0000 0).hart 0).e = some r ∧
    (mSt 4 2 0xFF00_0000_0000 0).EReady 0 (.vlr 18 8 0) (r.op (.vec 18 1 32)) [] ∧
    ∀ k, ((mSt 4 2 0xFF00_0000_0000 0).sees 0 (r.op (.vec 18 1 32)) []).computes r.m k →
      VecTo (mSt 4 2 0xFF00_0000_0000 0) 0 false r.sc false 4 (r.place ((mSt 4 2 0xFF00_0000_0000 0).sees 0 (r.op (.vec 18 1 32)) []) k).1
        (.ok (cellAt 0 k)) := by
  refine ⟨_, rfl, eReady (by decide +kernel), of_two (by decide +kernel) ?_ ?_⟩ <;>
    exact .ok _ (by decide +kernel) (by decide +kernel) (by decide +kernel) (by decide +kernel) (by decide +kernel)

theorem witness_VectorLoads_sc : ∃ r, vloadRow (.vlrsc 0 8 0) ((mSt 4 2 0xFF00_0000_0000 0).hart 0).e = some r ∧ r.sc = true ∧
    (mSt 4 2 0xFF00_0000_0000 0).EReady 0 (.vlrsc 0 8 0) (r.op (.vec 0 1 32)) [] ∧
    VecTo (mSt 4 2 0xFF00_0000_0000 0) 0 false r.sc false 4 (r.place ((mSt 4 2 0xFF00_0000_0000 0).sees 0 (r.op (.vec 0 1 32)) []) 1).1
        (.ok (cellAt 0 1)) :=
  ⟨_, rfl, rfl, eReady (by decide +kernel),
    .ok _ (by decide +kernel) (by decide +kernel) (by decide +kernel) (by decide +kernel) (by decide +kernel)⟩

/-- Element 1 lies past the allocation: a stop at element 1 after element 0 passes, and a stop at element 0. -/
theorem witness_VectorLoads_stop : ∃ r, vloadRow (.vlrff 18 8 0) ((mSt 4 2 0xFF00_0000_0FFC 0).hart 0).e = some r ∧
    (mSt 4 2 0xFF00_0000_0FFC 0).EReady 0 (.vlrff 18 8 0) (r.op (.vec 18 1 32)) [] ∧
    (let x := (mSt 4 2 0xFF00_0000_0FFC 0).sees 0 (r.op (.vec 18 1 32)) []
     (x.computes r.m 1 ∧ x.computes r.m 0 ∧
      VecTo (mSt 4 2 0xFF00_0000_0FFC 0) 0 false r.sc false 4 (r.place x 0).1 (.ok (cellAt 0xFFC 0)) ∧
      VecTo (mSt 4 2 0xFF00_0000_0FFC 0) 0 false r.sc false 4 (r.place x 1).1 (.error .bounds))) ∧
    (let x := (mSt 4 2 0xFF00_0000_1000 0).sees 0 (r.op (.vec 18 1 32)) []
     x.computes r.m 0 ∧ VecTo (mSt 4 2 0xFF00_0000_1000 0) 0 false r.sc false 4 (r.place x 0).1 (.error .bounds)) := by
  refine ⟨_, rfl, eReady (by decide +kernel), ⟨⟨?_, ?_, ?_⟩, ⟨?_, ?_, ?_⟩, ?_, .bounds ?_⟩, ⟨?_, ?_, ?_⟩, .bounds ?_⟩
  rotate_left 6
  · exact .ok _ (by decide +kernel) (by decide +kernel) (by decide +kernel) (by decide +kernel) (by decide +kernel)
  all_goals decide +kernel

theorem witness_VectorStores : ∃ r, vstoreRow (.vstr 8 16 0) ((mSt 4 2 0xFF00_0000_0FF8 0).hart 0).e = some r ∧
    (mSt 4 2 0xFF00_0000_0FF8 0).EReady 0 (.vstr 8 16 0) (r.op .none) [] ∧
    ∀ k, ((mSt 4 2 0xFF00_0000_0FF8 0).sees 0 (r.op .none) []).computes r.m k →
      VecTo (mSt 4 2 0xFF00_0000_0FF8 0) 0 true r.sc false 4 (r.place ((mSt 4 2 0xFF00_0000_0FF8 0).sees 0 (r.op .none) []) k).1
        (.ok (cellAt 0xFF8 k)) ∧ (mSt 4 2 0xFF00_0000_0FF8 0).Writes 0 (cellAt 0xFF8 k) 4 := by
  refine ⟨_, rfl, eReady (by decide +kernel), of_two (by decide +kernel) ⟨?_, writes_cell _ _ _ _ (by omega)⟩
    ⟨?_, writes_cell _ _ _ _ (by omega)⟩⟩ <;>
    exact .ok _ (by decide +kernel) (by decide +kernel) (by decide +kernel) (by decide +kernel) (by decide +kernel)

/-- R7, R291: the two elements are stored lowest first, each lowest byte first. -/
theorem test_vstr : ∃ t, exec (.vstr 8 16 0) (mSt 4 2 0xFF00_0000_0000 0) = .next t ∧
    t.nat (scratchKey 0 8192) 8 = 0x0000_0002_0000_0001 := ⟨_, rfl, by decide +kernel⟩

theorem witness_VectorAtomics :
    let s := mSt 5 2 0xFF00_0000_0100 0
    let op : EOp := { cls := some clsW, derived := [1], srcs := [8, 17], vecs := [(8, 1), (17, 1)], dst := .vec 18 1 32 }
    s.EReady 0 (.vamoadd 18 8 17 0) op [] ∧
    (∀ k, (s.sees 0 op []).computes 0 k → VecTo s 0 true false true 4 (indexAt 0 (s.sees 0 op []) k).1 (.ok (cellAt 0x100 k)) ∧
      s.Writes 0 (cellAt 0x100 k) 4) ∧
    (cellAt 0x100 0).key + 4 ≤ (cellAt 0x100 1).key := by
  refine ⟨eReady (by decide +kernel), of_two (by decide +kernel) ⟨?_, writes_cell _ _ _ _ (by omega)⟩
    ⟨?_, writes_cell _ _ _ _ (by omega)⟩, by decide⟩ <;>
    exact .ok _ (by decide +kernel) (by decide +kernel) (by decide +kernel) (by decide +kernel) (by decide +kernel)

/-- A valid DENSE tensor of one dimension, in tiles of TILE elements. -/
def tdMk (fmt rdonly base dim tile : Nat) : BitVec 1024 :=
  BitVec.ofNat 1024 (fmt + 1 * 2 ^ 4 + 2 ^ 10 + rdonly * 2 ^ 12 + base * 2 ^ 64 + dim * 2 ^ 192 + tile * 2 ^ 384)

/-- The bay holds descriptor 5 of the context. -/
def tdSt (td : BitVec 1024) (s : State) : State := { s with tdc := [(0, [{ asid := 1, tid := 5, td := td }])] }

/-- INT32 tensor of 3 elements in scratch, in tiles of 2. -/
def tSt32 (rdonly : Nat) (n : VReg) : State := tdSt (tdMk 4 rdonly 0xFF00_0000_0000 3 2) (mSt 4 2 n 0)

theorem witness_TileAccesses :
    let s := tSt32 0 1
    ∃ X, s.tensHeld 0 5 = some X ∧ s.tdUse X.td = 0 ∧ TileGroup (s.vlen 0) (tdTileElems X.td) X.w 1 ∧
      (let op : EOp := { cls := none, derived := [], srcs := [8], vecs := [(8, 1)], dst := .vec 18 1 32 }
       s.EReady 0 (.vlt 18 5 8 0) op [] ∧ s.EReady 0 (.vltck 18 5 8 1) op [] ∧
       X.tileOk ((s.sees 0 op []).sc 0) = true ∧ X.inside 1 0 = true ∧ X.inside 1 1 = false ∧
       X.To s 0 false 4 1 0 (.ok (cellAt 0 2))) := by
  refine ⟨_, rfl, by decide +kernel, ⟨by decide +kernel, by decide +kernel, by decide +kernel⟩, eReady (by decide +kernel),
    eReady (by decide +kernel), by decide +kernel, by decide +kernel, by decide +kernel, ?_⟩
  exact .ok _ (by decide +kernel) (by decide +kernel) (by decide +kernel) (by decide +kernel) (by decide +kernel)

theorem witness_TileAccesses_store :
    let op : EOp := { cls := none, derived := [], srcs := [16, 8], vecs := [(16, 1), (8, 1)], dst := .none }
    ((tSt32 1 0).EReady 0 (.vstt 5 16 8 0) op [] ∧ tdRdonly (tdMk 4 1 0xFF00_0000_0000 3 2) = true ∧
      (tSt32 1 0).tdUse (tdMk 4 1 0xFF00_0000_0000 3 2) = 0) ∧
    ((tSt32 0 0).EReady 0 (.vstt 5 16 8 0) op [] ∧ tdRdonly (tdMk 4 0 0xFF00_0000_0000 3 2) = false ∧
      Tens.tileOk { td := tdMk 4 0 0xFF00_0000_0000 3 2, buf := none } (((tSt32 0 0).sees 0 op []).sc 1) = true ∧
      Tens.To { td := tdMk 4 0 0xFF00_0000_0000 3 2, buf := none } (tSt32 0 0) 0 true 4 0 1 (.ok (cellAt 0 1)) ∧
      (tSt32 0 0).Writes 0 (cellAt 0 1) 4) := by
  refine ⟨⟨eReady (by decide +kernel), by decide +kernel, by decide +kernel⟩, eReady (by decide +kernel), by decide +kernel,
    by decide +kernel, ?_, writes_cell _ _ _ _ (by omega)⟩
  exact .ok _ (by decide +kernel) (by decide +kernel) (by decide +kernel) (by decide +kernel) (by decide +kernel)

theorem test_vstt : ∃ t, exec (.vstt 5 16 8 0) (tSt32 0 0) = .next t ∧
    (t.nat (scratchKey 0 8192) 4, t.nat (scratchKey 0 8196) 4) = (1, 2) := ⟨_, rfl, by decide +kernel⟩

/-- A conversion into twice as many registers over its own source, and a splat of an element of its own destination: VL cut to the
first group completes. -/
theorem witness_ClashingGroups :
    (let s := eSt 7 0 5
     let op : EOp := { s.opV 0 clsA [16] 16 with derived := [2], dst := .vec 16 2 32 }
     s.EReady 0 (.vcvtRne 16 16 6 0) op [] ∧ op.clash = true ∧ eSize (max (s.hart 0).e.w 32) = 4 ∧
       ∃ u, exec (.vcvtRne 16 16 6 0) (s.modE 0 fun e => { e with vl := 4 }) = .next u ∧
         (u.hart 0).a.instret = (s.hart 0).a.instret + 1 ∧ (u.hart 0).e.vl = 4) ∧
    (let s := eSt 4 0 5
     let op : EOp := { s.opV 0 clsA [16] 16 with vecs := [(16, 1)], scal := [16] }
     s.EReady 0 (.vsplat 16 16 0) op [] ∧ op.clash = true ∧ eSize (s.hart 0).e.w = 4 ∧
       ∃ u, exec (.vsplat 16 16 0) (s.modE 0 fun e => { e with vl := 4 }) = .next u ∧
         (u.hart 0).a.instret = (s.hart 0).a.instret + 1 ∧ (u.hart 0).e.vl = 4) :=
  ⟨⟨eReady (by decide +kernel), by decide +kernel, by decide +kernel, _, rfl, by decide +kernel⟩,
    eReady (by decide +kernel), by decide +kernel, by decide +kernel, _, rfl, by decide +kernel⟩

/-- A load into the register of its own base. -/
theorem witness_ClashingGroups_load : let s := mSt 4 5 0xFF00_0000_0000 0
    ∃ r, vloadRow (.vlr 8 8 0) (s.hart 0).e = some r ∧ s.EReady 0 (.vlr 8 8 0) (r.op (.vec r.a 1 32)) [] ∧
      (r.op (.vec r.a 1 32)).clash = true ∧ r.E = 4 ∧
      (let x := s.sees 0 (r.op (.vec r.a 1 32)) []
       x.computes r.m 0 ∧ x.computes r.m 4) ∧
      ∃ u, exec (.vlr 8 8 0) (s.modE 0 fun e => { e with vl := 4 }) = .next u ∧
        (u.hart 0).a.instret = (s.hart 0).a.instret + 1 ∧ (u.hart 0).e.vl = 4 := by
  refine ⟨_, rfl, eReady (by decide +kernel), by decide +kernel, by decide +kernel, ⟨?_, ?_⟩, _, rfl, by decide +kernel⟩ <;>
    exact ⟨by decide +kernel, by decide +kernel, by decide +kernel⟩

/-- A tile of five INT32 in scratch, loaded into the register that names it. -/
theorem witness_ClashingGroups_tile : let s := tdSt (tdMk 4 0 0xFF00_0000_0000 5 5) (mSt 4 2 0 0)
    ∃ X, s.tensHeld 0 5 = some X ∧ s.tdUse X.td = 0 ∧ TileGroup (s.vlen 0) (tdTileElems X.td) X.w 1 ∧
      (let op : EOp := { cls := none, derived := [], srcs := [8], vecs := [(8, 1)], dst := .vec 8 1 32, scal := [8] }
       s.EReady 0 (.vlt 8 5 8 0) op [] ∧ op.clash = true ∧ X.tileOk ((s.sees 0 op []).sc 0) = true ∧
       eSize X.w = 4 ∧ tdTileElems X.td = 5 ∧ (s.sees 0 op []).active 0 4 = true ∧
       X.inside 0 0 = true ∧ X.To s 0 false 4 0 0 (.ok (cellAt 0 0)) ∧ (cellAt 0 0).dev = false) := by
  refine ⟨_, rfl, by decide +kernel, ⟨by decide +kernel, by decide +kernel, by decide +kernel⟩, eReady (by decide +kernel),
    by decide +kernel, by decide +kernel, by decide +kernel, by decide +kernel, by decide +kernel, by decide +kernel, ?_, by decide +kernel⟩
  exact .ok _ (by decide +kernel) (by decide +kernel) (by decide +kernel) (by decide +kernel) (by decide +kernel)

/-- A SILL tensor of FP16: 33 rows of 513 columns, in one tile of its size. -/
def tdSill : BitVec 1024 :=
  BitVec.ofNat 1024 (7 + 2 * 2 ^ 4 + 2 ^ 8 + 2 ^ 10 + 0x10_0000 * 2 ^ 64 + (33 + 513 * 2 ^ 32) * 2 ^ 192 + (33 + 513 * 2 ^ 16) * 2 ^ 384)

theorem witness_TileLayout : (∀ d, d < tdRank (tdMk 4 0 0 3 2) → 0 < tdTile (tdMk 4 0 0 3 2) d) ∧ 1 ≤ tdRank (tdMk 4 0 0 3 2) ∧
    1 < ((List.range (tdRank (tdMk 4 0 0 3 2))).map fun d => ceilDiv (tdDim (tdMk 4 0 0 3 2) d) (tdTile (tdMk 4 0 0 3 2) d)).prod ∧
    1 < ((List.range (tdRank (tdMk 4 0 0 3 2))).map (tdTile (tdMk 4 0 0 3 2))).prod ∧ tdLayout (tdMk 4 0 0 3 2) ≠ 1 ∧
    (tdLayout tdSill = 1 ∧ tdRank tdSill = 2 ∧
      0 < ((List.range (tdRank tdSill)).map fun d => ceilDiv (tdDim tdSill d) (tdTile tdSill d)).prod ∧
      33 * 513 - 1 < ((List.range (tdRank tdSill)).map (tdTile tdSill)).prod) := by decide +kernel

end Sys2Proof.Tests
end

