-- ==== Sys2Proof/Tests/Matrix.lean ====
section
/-! SUPPORT. Tests of the matrix unit and of the extrapolating accumulators: a witness for the hypotheses of each
statement about them, and a few results worked by hand from the manual. -/

namespace Sys2Proof.Tests

set_option Elab.async false

open Sys2Proof Sys2Proof.Machine

/-- A row of three E4M3 elements in tiles of two, its elements at the start of the hart's scratch allocation and its
scales 0x100 bytes on. -/
def bSt : State := tdSt (tdMk 9 0 0xFF00_0000_0000 3 2 + 0xFF00_0000_0100 * 2 ^ 128) (mSt 4 2 0 0)

/-- Operands of MBEAM and MSETA with tile number in o0. -/
def bOp : EOp := { cls := none, derived := [], srcs := [8], vecs := [(8, 1)], dst := .none }

theorem witness_Beams_load : ∃ X, bSt.tensHeld 0 5 = some X ∧ bSt.tdUse X.td = 0 ∧ (rowClass (tdFmt X.td)).isSome = true ∧
    (X.shapeOk true (bSt.vlen 0 / fmtWidth (tdFmt X.td)) = true ∧ X.shapeOk false (bSt.vlen 0 / fmtWidth (tdFmt X.td)) = true) ∧
    bSt.EReady 0 (.mbeam 5 8) bOp [] ∧ bSt.EReady 0 (.mseta 5 8) bOp [] ∧
    (bSt.hart 0).m.loadBusy = false ∧ (bSt.hart 0).m.lerr = none ∧
    let n := (bSt.sees 0 bOp []).sc 0
    X.tileOk n = true ∧
    (∀ j k, j < (X.extents n).1 → k < (X.extents n).2 →
      X.To bSt 0 false (elBytes X.w) n (X.pos j k) (.ok ⟨scratchKey 0 (8192 + k), false⟩)) ∧
    (∀ j q, j < (X.extents n).1 → 32 * q < (X.extents n).2 → ∀ a, tdInside X.td (tdTileElem X.td n (X.pos j (32 * q))) = true →
      X.scale n (X.pos j (32 * q)) = some a → VecTo bSt 0 false false false 1 a (.ok ⟨scratchKey 0 0x2100, false⟩)) := by
  refine ⟨_, rfl, by decide +kernel, by decide +kernel, by decide +kernel, eReady (by decide +kernel), eReady (by decide +kernel),
    by decide +kernel, by decide +kernel, by decide +kernel, fun j k hj hk => ?_, fun j q hj hq a _ ha => ?_⟩
  · replace hj : j < 1 := lt_of_lt_of_eq hj (by decide +kernel)
    replace hk : k < 2 := lt_of_lt_of_eq hk (by decide +kernel)
    obtain rfl : j = 0 := by omega
    obtain rfl | rfl : k = 0 ∨ k = 1 := by omega
    all_goals exact .ok _ (by decide +kernel) (by decide +kernel) (by decide +kernel) (by decide +kernel) (by decide +kernel)
  · replace hj : j < 1 := lt_of_lt_of_eq hj (by decide +kernel)
    replace hq : 32 * q < 2 := lt_of_lt_of_eq hq (by decide +kernel)
    obtain rfl : j = 0 := by omega
    obtain rfl : q = 0 := by omega
    obtain rfl : a = 0xFF00_0000_0100 := by
      have h : some a = some 0xFF00_0000_0100 := ha.symm.trans (by decide +kernel)
      exact Option.some.inj h
    exact .ok _ (by decide +kernel) (by decide +kernel) (by decide +kernel) (by decide +kernel) (by decide +kernel)

/-- The hart with other matrix registers. -/
def withM (f : MRegs → MRegs) : State := (eSt 4 0 2).modM 0 f

/-- A row in flight of INT8 elements, which leaves the unit at this clk; element 0 of row and beam is v. -/
def rowAt (occEnd : Option Nat) (v : VReg) : Row :=
  { arow := v, kt := 128, latch := 0, sfmt := 0, beam := { Beam.none with empty := false, data := [(0, v)] }, acc := 0,
    pc := 0x1000, fpen := 0, issued := 0, occEnd := occEnd }
def rowOf (occEnd : Nat) (v : VReg) : Row := rowAt (some occEnd) v

/-- A hart with these rows, at this clk, once the unit has served what it can. -/
def rowsSt (l : List Row) (c : Nat) : State := { withM fun m => { m with rows := l } with cycle := c, ev := .zero }
def served (l : List Row) (c : Nat) : State := (rowsSt l c).mxServe 0

theorem witness_Beams :
    ((withM fun m => { m with loadBusy := true }).cur = .eStream 0 ∧ (withM fun m => { m with loadBusy := true }).gateFail .mswap = none ∧
      ((withM fun m => { m with loadBusy := true }).hart 0).m.rowTraps = [] ∧ ((withM fun m => { m with loadBusy := true }).hart 0).m.loadBusy = true) ∧
    ((withM fun m => { m with lerr := some 64 }).gateFail .mzeroBare = none ∧
      ((withM fun m => { m with lerr := some 64 }).hart 0).m.rowTraps = [] ∧
      ((withM fun m => { m with lerr := some 64 }).hart 0).m.lerr = some 64 ∧
      ((withM fun m => { m with lerr := some 64 }).hart 0).e.kept = false) ∧
    (∃ r ∈ ((served [rowAt none 0] 0).hart 0).m.rows, ∀ c, r.occEnd = some c → (rowsSt [rowAt none 0] 0).cycle < c) ∧
    (∀ r ∈ ((served [rowOf 0 0] 0).hart 0).m.rows, ∃ c, r.occEnd = some c ∧ c ≤ (rowsSt [rowOf 0 0] 0).cycle) ∧
    (((rowsSt [rowOf 0 0, rowAt none 0] 0).hart 0).m.rows = [rowOf 0 0] ++ rowAt none 0 :: [] ∧
      (rowsSt [rowOf 0 0, rowAt none 0] 0).cur = .eStream 0 ∧ (rowsSt [rowOf 0 0] 0).gateFail .mswap = none) ∧
    (eSt 4 0 2).EReady 0 (.mzero 16) { cls := none, derived := [], srcs := [], vecs := [], dst := .vec 16 4 32 } [] :=
  ⟨by decide +kernel, by decide +kernel, ⟨rowOf 4 0, by decide +kernel, fun c h => by rw [← Option.some.inj h]; decide +kernel⟩,
    fun r hr => ⟨0, by
      have h : ((served [rowOf 0 0] 0).hart 0).m.rows = [rowOf 0 0] := by decide +kernel
      rw [h, List.mem_singleton] at hr
      rw [hr]; exact ⟨rfl, Nat.le_refl 0⟩⟩, by decide +kernel, eReady (by decide +kernel)⟩

theorem witness_Beams_fresh : ((rowsSt [] 0).hart 0).e.Fresh := ⟨by decide +kernel, by decide +kernel, by decide +kernel, by decide +kernel⟩

/-- A hart whose active beam holds INT8 rows. -/
def rowSt : State := withM fun m => { m with active := { Beam.none with empty := false, data := [(0, 3)] } }

/-- The eight harts of a truss step, each at an MROWT into group m0 from register o0, with an INT8 beam. -/
def mrowtSt : State :=
  [0, 8, 16, 24, 32, 40, 48, 56].foldl (fun s h => (s.modM h fun m => { m with active := { Beam.none with empty := false } }).modE h
    fun e => { e with wait := .mrowt 16 8 })
    ({ State.reset.fetchAt 0xC0808004 with agenda := [], cur := .eStream 0 } : State)

theorem witness_Rows : (rowSt.EReady 0 (.mrow 16 8) bOp [] ∧ rowReady rowSt 0 (rowSt.hart 0).m.sfmt 16) ∧
    ((eSt 4 0 2).EReady 0 (.mrow 16 8) bOp [] ∧ ((eSt 4 0 2).hart 0).m.active.empty = true) ∧
    (((served [rowOf 0 0] 3).hart 0).m.rows = rowOf 0 0 :: [] ∧ (∀ c, (rowOf 0 0).occEnd = some c → (rowsSt [rowOf 0 0] 3).cycle < c + 4) ∧
      ((served [rowOf 0 0] 4).hart 0).m.rows = rowOf 0 0 :: [] ∧ 0 + 4 ≤ (rowsSt [rowOf 0 0] 4).cycle ∧
      rowClass (rowOf 0 0).sfmt.toNat = some 3) ∧
    (eSt 4 0 2).gateFail (.mrowt 16 8) ≠ none ∧
    (mrowtSt.gateFail (.mrowt 16 8) = none ∧ 0 ∈ mrowtSt.trussStep 0 ∧
      (∀ g ∈ mrowtSt.trussStep 0, ((mrowtSt.modE 0 fun e => { e with wait := .mrowt 16 8 }).hart g).atMrowt = some (16, 8)) ∧
      (∀ g ∈ mrowtSt.trussStep 0, rowReady mrowtSt g (mrowtSt.hart 0).m.sfmt 16) ∧
      groupCheck (mrowtSt.hart 0).e (mrowtSt.hart 0).id.rsize 8 1 = none ∧ (mrowtSt.hart 0).m.rowTrap (touches (mrowtSt.hart 0).e 8 1) = none ∧
      (mrowtSt.hart 0).m.rowBusy (touches (mrowtSt.hart 0).e 8 1) = false) ∧
    (∃ g ∈ mrowtSt.trussStep 0, (((mrowtSt.modE 8 fun e => { e with wait := .none }).modE 0 fun e =>
      { e with wait := .mrowt 16 8 }).hart g).atMrowt = none) := by
  refine ⟨⟨eReady (by decide +kernel), ?_⟩, ⟨eReady (by decide +kernel), by decide +kernel⟩,
    ⟨by decide +kernel, fun c h => by rw [← Option.some.inj h]; decide +kernel, by decide +kernel, by decide +kernel, by decide +kernel⟩, by decide +kernel,
    ⟨by decide +kernel, by decide +kernel, by decide +kernel, ?_, by decide +kernel, by decide +kernel, by decide +kernel⟩, 8, by decide +kernel, by decide +kernel⟩
  all_goals
    simp only [rowReady]
    decide +kernel

theorem witness_Rows_fresh : ∀ g ∈ mrowtSt.trussStep 0, (mrowtSt.hart g).e.Fresh := by
  intro g hg
  have h : ∀ g ∈ mrowtSt.trussStep 0, (mrowtSt.hart g).e.kept = false ∧ (mrowtSt.hart g).e.prog = none ∧
    (mrowtSt.hart g).e.vsw = none ∧ (mrowtSt.hart g).e.bad = [] := by decide +kernel
  exact ⟨(h g hg).1, (h g hg).2.1, (h g hg).2.2.1, (h g hg).2.2.2⟩

/-- R305: 3 times 3 goes into element 0 of the group. -/
theorem test_rowComplete : ∃ t, exec .rowComplete (rowsSt [rowOf 0 3] 4) = .next t ∧
    elemOf 32 (tgetD (t.hart 0).e.main 0 0).toNat 0 = 9 := ⟨_, rfl, by decide +kernel⟩

/-- Operands of an accumulator instruction without sources. -/
def xOp (d : EDst) : EOp := { cls := none, derived := [], srcs := [], vecs := [], dst := d }

/-- An accumulator of a hart with o0 = v. -/
def xSt (v : VReg) (x : XAcc) : State := (mSt 6 2 v 0).modM 0 fun m => { m with xa := [(0, x)] }

theorem witness_Extrapolation : ((xSt 9 .zero).EReady 0 (.xcfg 0 8 0) bOp [] ∧ 8 < ((xSt 9 .zero).sees 0 bOp []).sc 0) ∧
    ((xSt 8 .zero).EReady 0 (.xcfg 15 8 0) bOp [] ∧ (xSt 8 .zero).EReady 0 (.xcfg 3 8 0) bOp [] ∧
      ¬ (((3 : RCode) = 0 ∨ (3 : RCode) = 3) ∧ (((xSt 8 .zero).sees 0 bOp []).sc 0 = 0 ∨ 8 < ((xSt 8 .zero).sees 0 bOp []).sc 0))) ∧
    (xSt 0 .zero).EReady 0 (.xclr 3) (xOp .none) [] ∧ (xSt 0 .zero).EReady 0 (.xchk 8 0) bOp [] ∧
    ((xSt 0 .zero).cur = .eStream 0 ∧ (xSt 0 .zero).gateFail (.xstat 3 0) = none ∧ ((xSt 0 .zero).eaOf 0 3).length ≤ 6) ∧
    ((xSt 0 .zero).EReady 0 (.xlsq 17 0) (xOp (.vec 17 1 32)) [] ∧ (xSt 0 .zero).EReady 0 (.xeps 17 0) (xOp (.vec 17 1 32)) [] ∧
      (tgetD ((xSt 0 .zero).hart 0).m.xa 0 XAcc.zero).count = (tgetD ((xSt 0 .zero).hart 0).m.xa 0 XAcc.zero).wdepth ∧
      ((xSt 0 .zero).hart 0).e.fpen = 0) ∧
    ((xSt 0 { XAcc.zero with wdepth := 1 }).EReady 0 (.xlsq 17 0) (xOp (.vec 17 1 32)) [] ∧
      (tgetD ((xSt 0 { XAcc.zero with wdepth := 1 }).hart 0).m.xa 0 XAcc.zero).count ≠
        (tgetD ((xSt 0 { XAcc.zero with wdepth := 1 }).hart 0).m.xa 0 XAcc.zero).wdepth) ∧
    (xSt 0 .zero).EReady 0 (.xtest 7 8 0) bOp [] := by
  refine ⟨⟨eReady ?_, ?_⟩, ⟨eReady ?_, eReady ?_, ?_⟩, eReady ?_, eReady ?_, ?_, ⟨eReady ?_, eReady ?_, ?_, ?_⟩, ⟨eReady ?_, ?_⟩, eReady ?_⟩ <;>
    decide +kernel

/-- A history of 1 twice has its table, and the difference of its first column is not above a threshold of 0. -/
theorem witness_Extrapolation_table : let l : List W64 := [0x3FF0_0000_0000_0000, 0x3FF0_0000_0000_0000]
    ∃ e, EpsTable l e ∧ 0 + 0 + 1 < l.length ∧ f64Le (f64Abs (f64Sub (e 1 1) (e 1 0))) 0 = true := by
  refine ⟨fun k n => if k = 0 then 0 else if k = 1 then 0x3FF0_0000_0000_0000 else
    f64Add 0 (f64Div 0x3FF0_0000_0000_0000 (f64Sub 0x3FF0_0000_0000_0000 0x3FF0_0000_0000_0000)), ⟨fun _ => rfl, fun n hn => ?_, fun k n hk => ?_⟩, ?_⟩
  · replace hn : n < 2 := hn
    obtain rfl | rfl : n = 0 ∨ n = 1 := by omega
    all_goals rfl
  · replace hk : k + n + 1 < 2 := hk
    obtain ⟨rfl, rfl⟩ : k = 0 ∧ n = 0 := by omega
    rfl
  · decide +kernel

/-- R94: the table of 1, 3/2, 7/4 gives 2. -/
theorem test_xeps : epsOne 0 [0x3FF0_0000_0000_0000, 0x3FF8_0000_0000_0000, 0x3FFC_0000_0000_0000] = (0x4000_0000_0000_0000, false) := by
  decide +kernel

end Sys2Proof.Tests
end

