-- ==== Sys2Proof/Tests/Scalar.lean ====
section
/-! SUPPORT. Tests of the A-stream and plate instructions: a witness for the hypotheses of each statement about them, and
results from the manual's own examples. -/

namespace Sys2Proof.Tests

set_option Elab.async false

open Sys2Proof Sys2Proof.Machine

theorem witness_SourceValues : (aSt [5]).cur.isE = false ∧ 8 ≤ (9 : RCode).toNat ∧ (aSt [5]).cur = .aStream 0 ∧
    (4 : RCode).toNat = 0 + 4 ∧ (7 : RCode).toNat = 3 + 4 ∧ (5 : RCode) ≠ 4 := by decide +kernel

/-- A ridge update whose three operands pop one queue. -/
theorem witness_SourceValues_three : let s : State := { (aSt []).modR 0 fun r => { r with ea := [(0, [5, 3, 9])] } with
      preg := { (aSt []).preg with ridgeown := [(3, 0x1001)] } }
    s.Ready (.rimin 4 4 4) [4, 4, 4] [] ∧ ((s.eaOf 0 0).getD 0 0, (s.eaOf 0 0).getD 1 0, (s.eaOf 0 0).getD 2 0) = (5, 3, 9) ∧
      s.ownsRidge 0 3 = true ∧ (s.ridge 3).max = false := by
  refine ⟨⟨?_, ?_⟩, ?_, ?_, ?_⟩ <;> decide +kernel

theorem witness_IntegerArithmetic : (aSt [1, 2]).Ready (.add 127 9 10) [9, 10] [127] ∧ (pSt [1]).Ready (.clz 8 9) [9] [8] ∧
    (aSt []).Ready (.lih 0 0x40000) [] [0] ∧ (majorOf 0x0400001F = 1 ∧ (slice 0x0400001F 0 5).toNat = 31) ∧
    (majorOf 0x0400003A = 1 ∧ (slice 0x0400003A 0 5).toNat = 26 ∧ slice 0x0400003A 5 7 ≠ 0) ∧
    (majorOf 0x20000A00 = 8 ∧ (slice 0x20000A00 9 3).toNat = 5) ∧
    (majorOf 0x20000840 = 8 ∧ (slice 0x20000840 9 3).toNat = 4 ∧ slice 0x20000840 6 3 ≠ 0) := by
  refine ⟨⟨?_, ?_⟩, ⟨?_, ?_⟩, ⟨?_, ?_⟩, ?_, ?_, ?_, ?_⟩ <;> decide +kernel

/-- R230's example: CLMUL of 0x24 by all ones is 0x1C. -/
theorem test_clmul : ∃ t, exec (.clmul 8 9 10) (aSt [0x24, 0xFFFF_FFFF_FFFF_FFFF]) = .next t ∧
    t.regOf (.aStream 0) 8 = 0x1C := ⟨_, rfl, by decide +kernel⟩

/-- R70: a quotient of the least number by -1 wraps to itself. -/
theorem test_div_overflow : ∃ t, exec (.div 8 9 10) (aSt [0x8000_0000_0000_0000, 0xFFFF_FFFF_FFFF_FFFF]) = .next t ∧
    t.regOf (.aStream 0) 8 = 0x8000_0000_0000_0000 := ⟨_, rfl, by decide +kernel⟩

theorem witness_Loads : (aSt [0x1000]).Ready (.ldD 8 9 0) [9] [8] ∧
    (∃ p s1, (aSt [0x1000]).aXlat (.aStream 0) .read ((aSt [0x1000]).lsVa [9] 0 8) 8 = (.ok p, s1) ∧
      s1.readBadBy (.aStream 0) p 8 = false) ∧
    (∃ p s1, { aSt [0x1000] with bad := [0x1000] }.aXlat (.aStream 0) .read (({ aSt [0x1000] with bad := [0x1000] }).lsVa [9] 0 8) 8
      = (.ok p, s1) ∧ s1.readBadBy (.aStream 0) p 8 = true) ∧
    ∃ c s1, (aSt [0x1004]).aXlat (.aStream 0) .read ((aSt [0x1004]).lsVa [9] 0 8) 8 = (.error c, s1) :=
  ⟨⟨by decide +kernel, by decide +kernel⟩, ⟨_, _, rfl, by decide +kernel⟩, ⟨_, _, rfl, by decide +kernel⟩, _, _, rfl⟩

/-- R234: a byte load extends the sign; the word stands at 0x1000 lowest byte first. -/
theorem test_ldB : ∃ t, exec (.ldB 8 9 0) (aSt [0x1000]) = .next t ∧
    t.regOf (.aStream 0) 8 = 0xFFFF_FFFF_FFFF_FF80 := ⟨_, rfl, by decide +kernel⟩

/-- A hart with a scratch allocation of 4 KiB. -/
def scrSt (xs : List W64) : State := (aSt xs).modR 0 fun r => { r with bound := 4096, allocSize := 4096, alloc := 8192 }

/-- What holds of an 8-byte store of x10 to the address in x9: where it goes, and the state after its translation. -/
def goesTo (s : State) (k : Acc) (f : Phys → State → Bool) : Bool :=
  match s.aXlat s.cur k (s.lsVa [9, 10] 0 8) 8 with
  | (.ok p, s1) => f p s1
  | _ => false

/-- A hart whose first page is one of package 1 of its pod; with cut 2 no path leads there. -/
def farSt (cut : Nat) (xs : List W64) : State :=
  let s := ((aSt xs).pokeNat 0x1_2000 8 (0xC1F + 2 * 2 ^ 7 + 2 ^ 52)).pokeNat (ioBase + 0xB008) 8 (2 ^ 8)
  { s with mg := { s.mg with pod := 3, cut := BitVec.ofNat 64 cut } }

theorem witness_Stores : (aSt [0x1FF8, 7]).Ready (.stD 10 9 0) [9, 10] [] ∧
    goesTo (aSt [0x1FF8, 7]) .write (fun p s1 => (Agent.aStream 0).l1? p == some 0 && !s1.writeBadBy (.aStream 0) p 8) = true ∧
    goesTo { aSt [0x1FF8, 7] with bad := [0x1FE0] } .write
      (fun p s1 => (Agent.aStream 0).l1? p == some 0 && s1.writeBadBy (.aStream 0) p 8) = true ∧
    ((scrSt [0xFF00_0000_0000, 7]).Ready (.stD 10 9 0) [9, 10] [] ∧ goesTo (scrSt [0xFF00_0000_0000, 7]) .write (fun p s1 =>
      (Agent.aStream 0).l1? p == none && !isIo p.key && !s1.cutKey p.key && !writeBad s1 p.key 8) = true) ∧
    ((pSt [w64 (ioBase + 0x8000), 7]).Ready (.stD 10 9 0) [9, 10] [] ∧ goesTo (pSt [w64 (ioBase + 0x8000), 7]) .write (fun p _ =>
      (Agent.plate 0).l1? p == none && isIo p.key) = true) ∧
    ((farSt 2 [0x1FF8, 7]).Ready (.stD 10 9 0) [9, 10] [] ∧ goesTo (farSt 2 [0x1FF8, 7]) .write (fun p s1 =>
      (Agent.aStream 0).l1? p == none && !isIo p.key && s1.cutKey p.key && !writeBad s1 p.key 8) = true) ∧
    (goesTo { pSt [0x1FF8, 7] with bad := [0x1FE0] } .write (fun p s1 => !isIo p.key && s1.writeBadBy (.plate 0) p 8)) = true ∧
    ∃ c s1, (aSt [0x80_0000_0000, 7]).aXlat (.aStream 0) .write ((aSt [0x80_0000_0000, 7]).lsVa [9, 10] 0 8) 8 = (.error c, s1) := by
  refine ⟨⟨?_, ?_⟩, ?_, ?_, ⟨⟨?_, ?_⟩, ?_⟩, ⟨⟨?_, ?_⟩, ?_⟩, ⟨⟨?_, ?_⟩, ?_⟩, ?_, _, _, rfl⟩ <;> decide +kernel

theorem test_stH : ∃ t, exec (.stH 10 9 0) (aSt [0x1800, 0x1234]) = .next t ∧
    ((List.range 3).map fun k => tget (t.l1Of 0).dirty (0x1800 + k)) = [some 0x34, some 0x12, none] := ⟨_, rfl, by decide +kernel⟩

theorem witness_AddressChecks : (aSt []).placeOf (.aStream 0) (2 ^ 47) 1 = .bounds ∧
    ((aSt []).placeOf (.aStream 0) 4 8 ≠ .bounds ∧ 4 % 8 ≠ 0) ∧ (2 ^ 47 < 2 ^ 47 - 4 + 8 ∧ (Agent.plate 3).hart? = none) ∧
    (2 ^ 47 - 8 + 8 ≤ 2 ^ 47 ∧ (2 ^ 47 - 8) % 8 = 0) ∧ (Agent.eStream 0).hart? = some 0 ∧ (4088 : Nat) < 2 ^ 23 ∧
    (4088 + 8 ≤ ((scrSt []).hart 0).r.bound ∧ (ownBase + 4088) % 8 = 0) ∧ ((scrSt []).hart 0).r.bound < 4096 + 8 := by decide +kernel

theorem witness_Atomics : amoRow (.amoCas 8 9 10 0) ≠ none ∧ (aSt [0x1800, 1]).Ready (.amoCas 8 9 10 0) [9, 10] [8] ∧
    (∃ p s1, (aSt [0x1800, 1]).aXlat (.aStream 0) .atomic ((aSt [0x1800, 1]).src [9, 10] 0).toNat 8 = (.ok p, s1) ∧
      isIo p.key = false ∧ isHost p.key = false ∧
      (let s2 := (s1.releaseBy (.aStream 0) 0).amoFlush (.aStream 0) p
       s2.cutKey p.key = false ∧ readBad s2 p.key 8 = false ∧ writeBad s2 p.key 8 = false) ∧
      (let s2 := (s1.releaseBy (.aStream 0) s1.ascope).amoFlush (.aStream 0) p
       amoAr (.amoCas 8 9 10 1) = true ∧ s2.cutKey p.key = false ∧ readBad s2 p.key 8 = false ∧ writeBad s2 p.key 8 = false)) ∧
    (∃ p s1, (pSt [w64 (ioBase + 0x8000), 1]).aXlat (.plate 0) .atomic ((pSt [w64 (ioBase + 0x8000), 1]).src [9, 10] 0).toNat 8 = (.ok p, s1) ∧
      isIo p.key = true) ∧
    ∃ c s1, (aSt [0x1804, 1]).aXlat (.aStream 0) .atomic ((aSt [0x1804, 1]).src [9, 10] 0).toNat 8 = (.error c, s1) :=
  ⟨(by simp [amoRow]), ⟨by decide +kernel, by decide +kernel⟩, ⟨_, _, rfl, by decide +kernel, by decide +kernel, by decide +kernel, by decide +kernel⟩,
    ⟨_, _, rfl, by decide +kernel⟩, _, _, rfl⟩

theorem test_amoAdd : ∃ t, exec (.amoAdd 8 9 10 1) ((aSt [0x1800, 7]).pokeNat 0x1800 8 5) = .next t ∧
    (t.regOf (.aStream 0) 8, t.nat 0x1800 8) = (5, 12) := ⟨_, rfl, by decide +kernel⟩

/-- The E-stream of hart 0 with one entry in AE2. -/
def popSt : State := (eSt 0 0 0).modR 0 fun r => { r with ae := [(2, [.full 9])] }

theorem witness_BranchesAndJumps : (majorOf 0x34000C00 = 0x0D ∧ 6 ≤ (slice 0x34000C00 9 3).toNat) ∧
    (popSt.cur.isE = true ∧ popSt.gateFail (.beq 6 0 8) = none ∧ popSt.gateFail (.j 0 8) = none) ∧
    ((aSt [1, 1]).Ready (.beq 9 10 0x100) [9, 10] [] ∧ (aSt [1, 2]).Ready (.bltu 9 10 0) [9, 10] [] ∧
      (aSt [1, 1]).cur.isE = false ∧ (aSt [1, 1]).src [9, 10] 0 = (aSt [1, 1]).src [9, 10] 1) ∧
    (popSt.cur = .eStream 0 ∧ ((popSt.hart 0).e.kept = false ∧ (popSt.hart 0).e.prog = none ∧ (popSt.hart 0).e.vsw = none ∧
      (popSt.hart 0).e.bad = []) ∧ popsOf (popSt.hart 0).r.ae [] [6, 0] [] = .ready [9]) ∧
    ((pSt []).Ready (.j 8 0x40000) [] [8] ∧ (pSt []).cur.isE = false) ∧
    ((aSt [0x1000]).Ready (.jr 8 9 0x7FC) [9] [8] ∧ (aSt [0x1000]).Ready (.jr 8 9 2) [9] [8]) := by
  refine ⟨by decide +kernel, by decide +kernel, ⟨⟨by decide +kernel, by decide +kernel⟩, ⟨by decide +kernel, by decide +kernel⟩, by decide +kernel, by decide +kernel⟩, by decide +kernel,
    ⟨⟨by decide +kernel, by decide +kernel⟩, by decide +kernel⟩, ⟨by decide +kernel, by decide +kernel⟩, by decide +kernel, by decide +kernel⟩

/-- R219's example: 0x3430_0008 in an E-stream pops AE2, and branches 8 words on if the value is 0. -/
theorem test_beq_pops : ∃ t, exec (.beq 6 0 8) popSt = .next t ∧
    ((t.hart 0).e.pc, t.aeOf 0 2) = ((popSt.hart 0).e.pc + 4, []) := ⟨_, rfl, by decide +kernel⟩

theorem test_jr_aligns : ∃ t, exec (.jr 8 9 0xFFC) (aSt [0x1000]) = .next t ∧
    (t.pcOf (.aStream 0), t.regOf (.aStream 0) 8) = (0xFFC, 0x1004) := ⟨_, rfl, by decide +kernel⟩

theorem witness_CsrAccess : ((aSt []).Ready (.csrrd 8 0x200) [] [8] ∧ csrDeny (aSt []).cur 0x200 = some .priv) ∧
    ((aSt []).Ready (.csrrd 8 0) [] [8] ∧ csrDeny (aSt []).cur 0 = none ∧ (0 : BitVec 10) ≠ 0x08F) ∧
    ((pSt [3]).Ready (.csrwr 9 0x106) [9] [] ∧ csrDeny (pSt [3]).cur 0x106 = none) ∧
    ((aSt [3]).Ready (.csrset 9 0) [9] [] ∧ csrDeny (aSt [3]).cur 0 = none) ∧
    ((aSt [3]).Ready (.featack 9) [9] [] ∧ csrDeny (aSt [3]).cur 0x201 = some .priv) ∧
    (let s : State := { aSt [7] with preg := { (aSt []).preg with featack := some 0xDF } }
     s.Ready (.csrwr 9 0x020) [9] [] ∧ csrDeny s.cur 0x020 = none ∧ s.has .pod = false ∧ (7 : W64).toNat % 8 = 7 ∧
       ∀ k, k < 64 → (7 : W64).getLsbD k = csrBit .write ((rwBits s.cur.isPlate 0x020).testBit k) ((w1cBits 0x020).testBit k)
         ((s.csrGet 0x020).getLsbD k) ((s.src [9] 0).getLsbD k)) := by
  refine ⟨⟨⟨?_, ?_⟩, ?_⟩, ⟨⟨?_, ?_⟩, ?_, ?_⟩, ⟨⟨?_, ?_⟩, ?_⟩, ⟨⟨?_, ?_⟩, ?_⟩, ⟨⟨?_, ?_⟩, ?_⟩, ⟨?_, ?_⟩, ?_⟩ <;> decide +kernel

/-- R414's example, on this record: the first write to FEATACK counts, and takes CAP's bits alone. -/
theorem test_featack : ∃ t, exec (.featack 9) { pSt [0xFC] with preg := PlateRegs.zero } = .next t ∧ t.feat = 0xFC :=
  ⟨_, rfl, by decide +kernel⟩

theorem witness_InstructionGate : ((aSt []).gateFail (.tlbsync) = some .priv ∧ Instr.isEvent .tlbsync = false) ∧
    Instr.streamClass .halt = .plateOnly ∧ Instr.streamClass (.vadd 0 0 0 0) = .eOnly ∧ Instr.streamClass (.add 0 0 0) = .aAll ∧
    ((aSt []).cur = .aStream 0 ∧ (eSt 0 0 0).cur = .eStream 0 ∧ (pSt []).cur = .plate 0) ∧
    (let s : State := { eSt 0 0 0 with preg := PlateRegs.zero }
     classVerdict (Instr.streamClass (.xeps 16 0)) s.cur s.curTruss = none ∧ ∃ f ∈ Instr.features (.xeps 16 0), s.has f = false) ∧
    (classVerdict (Instr.streamClass (.add 8 1 9)) (aSt []).cur (aSt []).curTruss = none ∧
      (∀ f ∈ Instr.features (.add 8 1 9), (aSt []).has f = true) ∧ Instr.fieldsOk (.add 8 1 9) (aSt []).cur.isE = false) := by
  decide +kernel

/-- A write of FEATACK from a plate core, and one to a register without fields to keep. -/
theorem witness_CsrAccess_write : (csrDeny (pSt []).cur 0x201 = none ∧ (pSt []).cur.isE = false ∧
      ∀ k, k < 64 → (rwBits (pSt []).cur.isPlate 0x201).testBit k = false → (w1cBits 0x201).testBit k = false →
        (0 : W64).getLsbD k = ((pSt []).csrGet 0x201).getLsbD k) ∧
    ((aSt []).cur = .aStream 0 ∧ (stepCsrs (aSt []) 0).length ≠ 0 ∧ (csrFields false).length ≠ 0) := by decide +kernel

/-- Words that an A-stream may execute, that it may not, and that need a feature. -/
theorem witness_InstructionGate_words : (decode 0x0448A580 ≠ .noMajor ∧ (streamRow (aSt []).curTruss 0x0448A580).1 = none ∧
      featureRow 0x0448A580 = none) ∧ (streamRow (aSt []).curTruss 0x64000000).1 = some .priv ∧
    (streamRow (aSt []).curTruss (0x16 * 2 ^ 26)).1 = none ∧ featureRow (0x16 * 2 ^ 26) = some .sill := by decide +kernel

/-- A-stream of a region whose UTRAP is 0x2000. -/
def handlerSt : State := (aSt [5]).modHart 0 fun v => { v with id := { v.id with etvec := 0x2000 } }

theorem witness_TrapEntry : handlerOk (handlerSt.hart 0).id.etvec ((handlerSt.hart 0).a.ecause.getLsbD 9) .ebreak = true ∧
    (let s := (pSt []).modPlate 0 fun c => { c with etvec := 0x4000 }
     (s.plate 0).etvec ≠ 0 ∧ (s.plate 0).etvec.toNat % 4 = 0) ∧ ((pSt []).plate 0).etvec = 0 := by decide +kernel

/-- A step under a fault policy. -/
def policySt (p : Nat) : State := (aSt []).modHart 0 fun v => { v with id := { v.id with policy := p } }

theorem witness_FaultPolicy : handlerOk ((aSt []).hart 0).id.etvec (((aSt []).hart 0).a.ecause.getLsbD 9) .illop = false ∧
    ((aSt []).hart 0).id.capture = 0 ∧ Cause.bounds ≠ Cause.pfault ∧ Cause.bounds ≠ Cause.timeout ∧
    ((policySt 1).hart 0).id.policy = 1 ∧ ((policySt 2).hart 0).id.policy = 2 ∧ ((policySt 0).hart 0).id.policy ≠ 1 ∧
    (let v : Hart := { Hart.free with e := { Hart.free.e with prog := some ⟨4, 6, 0, 0, 0, 0⟩ } }
     v.e.prog = some ⟨4, 6, 0, 0, 0, 0⟩ ∧ 0 < 4) ∧ (Hart.free.e.prog = none ∧ Hart.free.e.kept = false) ∧
    (let v : Hart := { Hart.free with e := { Hart.free.e with kept := true, latch := [7], latchQ := [2] } }
     v.e.prog = none ∧ v.e.kept = true ∧ v.e.vstart = 0 ∧ v.e.latchQ = List.replicate v.e.latch.length 2) := by decide +kernel

theorem witness_TrapEntry_return : handlerSt.gateFail .ecall = none ∧ (pSt []).gateFail .ebreak = none ∧
    handlerSt.cur = .aStream 0 ∧ (handlerSt.hart 0).id.etvec ≠ 0 ∧ (handlerSt.hart 0).id.etvec.toNat % 4 = 0 ∧
    (handlerSt.hart 0).a.ecause.getLsbD 9 = false ∧ (aSt []).gateFail .eret = none ∧
    ((aSt []).epcOf (aSt []).cur).toNat % 4 = 0 ∧
    (let s := (aSt []).modA 0 fun a => { a with epc := 6 }
     s.gateFail .eret = none ∧ (s.epcOf s.cur).toNat % 4 ≠ 0) := by decide +kernel

/-- Both streams of hart 0 stand at a fence. -/
def fenceSt : State :=
  ({ base with ev := { EvArg.zero with n := 0 } } : State).modHart 0 fun v =>
    { v with a := { v.a with wait := .fence 0 2 }, e := { v.e with wait := .fence 3 6 } }

/-- The pair orders both ways at TRUSS or wider. -/
theorem witness_Fences_scopes : let w := min (2 : BitVec 3).toNat (6 : BitVec 3).toNat
    2 ≤ w ∧ ¬ ((1 : Nat) = 0 ∨ (1 : Nat) = 3) := by decide

theorem witness_Fences : ((eSt 0 0 0).cur = .eStream 0 ∧ (eSt 0 0 0).gateFail (.fenceVv 7) = none ∧
      ((eSt 0 0 0).hart 0).m.rowTraps = []) ∧ ((pSt []).cur = .plate 0 ∧ (pSt []).gateFail (.fenceAll 0) = none) ∧
    (aSt []).gateFail (.fenceSv 2) = none ∧ (eSt 0 0 0).gateFail (.fenceVs 2) = none ∧
    ((fenceSt.hart 0).occ = true ∧ (fenceSt.hart 0).a.ended = false ∧ (fenceSt.hart 0).e.ended = false ∧
      (fenceSt.hart 0).a.wait = .fence 0 2 ∧ (fenceSt.hart 0).e.wait = .fence 3 6) := by decide +kernel

/-- Eight A-streams stand at TBAR, or at RROT. -/
def barSt (w : Wait) : State :=
  (List.range 8).foldl (fun (s : State) (b : Nat) => s.modA (8 * b) fun a => { a with wait := w }) { tSt with ev := EvArg.zero }

theorem witness_SystemInstructions : ((pSt []).gateFail .wfi = none ∧ (pSt []).preg.ipend &&& (pSt []).preg.ien = 0) ∧
    (let s : State := { pSt [] with preg := { PlateRegs.zero with ipend := 64, ien := 64, featack := some 0xFF } }
     s.gateFail .wfi = none ∧ s.preg.ipend &&& s.preg.ien ≠ 0) ∧
    (pSt []).gateFail .halt = none ∧ (aSt []).gateFail .stepend = none ∧ (eSt 0 0 0).gateFail .stepend = none ∧
    ((eSt 0 0 0).hart 0).m.rowTraps = [] ∧ (aSt []).gateFail .snap = none ∧
    ((aSt [0x3F]).Ready (.setscope 9) [9] [] ∧ (aSt [0x3F]).has .pod = true) ∧
    (let s : State := { pSt [7] with preg := PlateRegs.zero }
     s.Ready (.setscope 9) [9] [] ∧ s.has .pod = false ∧ (s.src [9] 0).toNat % 8 = 7) ∧
    (let s : State := { pSt [0x36] with preg := PlateRegs.zero }
     s.Ready (.setscope 9) [9] [] ∧ (s.src [9] 0).toNat % 8 ≠ 7 ∧ s.cur.hart? = none) := by
  refine ⟨?_, ?_, ?_, ?_, ?_, ?_, ?_, ⟨⟨?_, ?_⟩, ?_⟩, ⟨⟨?_, ?_⟩, ?_, ?_⟩, ⟨⟨?_, ?_⟩, ?_, ?_⟩⟩ <;> decide +kernel

theorem witness_SystemInstructions_truss : tSt.gateFail .tbar = none ∧ tSt.Ready (.rrot 8 9 10) [9, 10] [8] ∧
    (barSt .tbar).trussStep (barSt .tbar).ev.n ≠ [] ∧
    (∀ h ∈ (barSt .tbar).trussStep 0, ((barSt .tbar).hart h).a.wait = .tbar ∧ ((barSt .tbar).hart h).a.ended = false) ∧
    (∀ h ∈ (barSt (.rrot 8 9 0)).trussStep 0, ((barSt (.rrot 8 9 0)).hart h).a.wait = .rrot 8 9 0 ∧
      ((barSt (.rrot 8 9 0)).hart h).a.ended = false ∧ 4 ≤ (8 : RCode).toNat) := by
  refine ⟨by decide +kernel, ⟨by decide +kernel, by decide +kernel⟩, ?_, ?_, ?_⟩ <;> decide +kernel

end Sys2Proof.Tests
end

