-- ==== Sys2Proof/Tests/Transfer.lean ====
section
/-! SUPPORT. Tests of the transfers and of the copy engines: a witness for the hypotheses of each statement about them. -/

namespace Sys2Proof.Tests

set_option Elab.async false

open Sys2Proof Sys2Proof.Machine

/-- A hart with copy shadows: one plane and one row of n bytes of kind k from address src to address dst. -/
def cpSt (k src dst n : Nat) : State := (scrSt []).modA 0 fun a => { a with cp := { Shadows.zero with
  src := BitVec.ofNat 64 src, dst := BitVec.ofNat 64 dst, shape := BitVec.ofNat 64 (n + 2 ^ 24 + 2 ^ 44), opt := BitVec.ofNat 64 k } }

/-- The hart's shadows checked (R323). -/
def chkOf (s : State) : Except LaunchErr Nat :=
  let cp := (s.hart 0).a.cp
  s.launchCheck (some 0) (Geo.of cp) (!cp.bar.getLsbD 0 || decide (16 * (cp.bar.toNat / 16 % 2 ^ 19) + 16 ≤ (s.hart 0).r.bound))

/-- Slots of which none is FREE. -/
def fullSlots : Tab Xfer := (List.range 32).map fun k => (k, { Xfer.zero with state := .active })

theorem witness_TransferLaunch :
    ((cpSt 0 0x1000 0x1800 8).cur = .aStream 0 ∧ (cpSt 0 0x1000 0x1800 8).Ready (.cplaunch 8) [] [8] ∧
      (cpSt 0 0x1000 0x1800 8).Ready (.csrrd 8 0x08F) [] [8] ∧ csrDeny (.aStream 0) 0x08F = none) ∧
    ({ cpSt 3 0x1000 0x1800 512 with preg := { PlateRegs.zero with featack := some 0 } }.Ready (.cplaunch 8) [] [8] ∧
      chkOf { cpSt 3 0x1000 0x1800 512 with preg := { PlateRegs.zero with featack := some 0 } } = .error .feature) ∧
    chkOf (cpSt 0 0xFF00_0000_0000 0x1000 4097) = .error (.code 3) ∧ chkOf (cpSt 0 0xFF00_0000_0000 0x1000 4096) = .ok 8 ∧
    (chkOf (cpSt 1 0x1000 0x1007 8) = .error (.code 2) ∧ ((cpSt 1 0x1000 0x1007 8).hart 0).id.capture = 0) ∧
    (∀ k, k < 32 → (((cpSt 0 0x1000 0x1800 8).modR 0 fun r => { r with slots := fullSlots }).slot 0 k).state ≠ .free) ∧
    (cpSt 0 0x1000 0x1800 8).LowestFree 0 0 ∧
    64 ≤ (tgetD ({ cpSt 0 0x1000 0x1800 8 with copyq := [(0, List.replicate 64 (.cmd 1))] }).copyq (0 / 64) []).length ∧
    (tgetD (cpSt 0 0x1000 0x1800 8).copyq (0 / 64) []).length < 64 := by
  refine ⟨⟨?_, ⟨?_, ?_⟩, ⟨?_, ?_⟩, ?_⟩, ⟨⟨?_, ?_⟩, ?_⟩, ?_, ?_, ?_, ?_, ⟨?_, ?_, fun j hj => absurd hj (Nat.not_lt_zero j)⟩, ?_, ?_⟩ <;>
    decide +kernel

/-- A launch that overlaps itself, of a region whose CAPTURE has bit 26. -/
theorem witness_TransferLaunch_capture :
    let s := (cpSt 1 0x1000 0x1007 8).modHart 0 fun r => { r with id := { r.id with capture := 0x400_0000 } }
    s.Ready (.cplaunch 8) [] [8] ∧ chkOf s = .error (.code 2) ∧ (s.hart 0).id.capture.getLsbD 26 = true := by
  refine ⟨⟨?_, ?_⟩, ?_, ?_⟩ <;> decide +kernel

/-- The boxes of a plane of one row of 8 bytes. -/
theorem witness_TransferLaunch_box : let q := Geo.of ((cpSt 0 0x1000 0x1800 8).hart 0).a.cp
    0 < q.es ∧ BoxIs q.src q.planes q.rows q.inner q.sps q.srs 0x1000 0x1007 ∧
      BoxIs q.dst q.planes 1 8 q.dps q.drs 0x1800 0x1807 ∧ (cpSt 0 0x1000 0x1800 8).boxOk (some 0) (0x1000, 0x1007) = true := by
  have h : ∀ (b : Nat), BoxIs b 1 1 8 0 0 b (b + 7) := by
    intro b
    refine ⟨fun p r x _ _ hx => ⟨by simp only; omega, by simp only; omega⟩, ⟨0, 0, 0, by omega, by omega, by omega, by simp⟩, 0, 0, 7, by omega, by omega, by omega, by simp⟩
  refine ⟨by decide +kernel, ?_, ?_, by decide +kernel⟩
  · have e : (Geo.of ((cpSt 0 0x1000 0x1800 8).hart 0).a.cp) = { Geo.of ((cpSt 0 0x1000 0x1800 8).hart 0).a.cp with
      src := 0x1000, planes := 1, rows := 1, inner := 8, sps := 0, srs := 0 } := by decide +kernel
    rw [e]
    exact h 0x1000
  · have e : (Geo.of ((cpSt 0 0x1000 0x1800 8).hart 0).a.cp) = { Geo.of ((cpSt 0 0x1000 0x1800 8).hart 0).a.cp with
      dst := 0x1800, planes := 1, dps := 0, drs := 0 } := by decide +kernel
    rw [e]
    exact h 0x1800

/-- R204, R320: the first launch of a slot gives generation 1 and slot 0. -/
theorem test_cplaunch : ∃ t, exec (.cplaunch 8) (cpSt 0 0x1000 0x1800 8) = .next t ∧
    (t.regOf (.aStream 0) 8, (t.slot 0 0).chunks, (t.slot 0 0).bitmap.getLsbD 0, (t.slot 0 0).bitmap.getLsbD 1) = (0x100, 1, false, true) :=
  ⟨_, rfl, by decide +kernel⟩

/-- A hart with a transfer in slot 31, generation 1, and TID and mask in x9 and x10. -/
def slotSt (st : XState) (bits mask : W64) : State :=
  (aSt [0x11F, mask]).modR 0 fun r => { r with slots := [(31, { Xfer.zero with state := st, gen := 1, bitmap := bits, job := .copy, launched := 1 })] }

theorem witness_TransferWaits :
    ((slotSt .active 1 2).Ready (.cpwait 9 10) [9, 10] [] ∧ (slotSt .active 1 2).live 0 ((slotSt .active 1 2).src [9, 10] 0) = some 31 ∧
      ((slotSt .active 1 2).slot 0 31).bitmap &&& (slotSt .active 1 2).src [9, 10] 1 ≠ (slotSt .active 1 2).src [9, 10] 1) ∧
    (slotSt .free 1 2).live 0 ((slotSt .free 1 2).src [9, 10] 0) = none ∧ (slotSt .done 1 2).live 0 0x21F = none ∧
    (((slotSt .done 1 2).slot 0 31).state = .done ∧ ((slotSt .failed 3 2).slot 0 31).bitmap &&& 2 = 2 ∧
      ((slotSt .failed 1 2).slot 0 31).bitmap &&& 2 ≠ 2 ∧ ((slotSt .failed 1 2).slot 0 31).state = .failed) ∧
    (slotSt .failed 1 2).Ready (.cptest 8 9 1) [9] [8] ∧
    ((slotSt .active 1 2).Ready (.cpcancel 9) [9] [] ∧ ((slotSt .active 1 2).slot 0 31).flight = [] ∧
      ((slotSt .active 1 2).slot 0 31).job = .copy ∧ ((slotSt .done 1 2).slot 0 31).state ≠ .active) ∧
    ((mSt 4 2 0x11F 0).EReady 0 (.vckm 7 8) bOp [] ∧ (mSt 4 2 0x11F 0).live 0 0x11F = none ∧
      (let s := (mSt 4 2 0x11F 0).modR 0 fun r => { r with slots := ((slotSt .failed 1 2).hart 0).r.slots }
       s.EReady 0 (.vckm 7 8) bOp [] ∧ s.live 0 (BitVec.ofNat 64 ((s.sees 0 bOp []).sc 0)) = some 31)) := by
  refine ⟨⟨⟨?_, ?_⟩, ?_, ?_⟩, ?_, ?_, ?_, ⟨?_, ?_⟩, ⟨⟨?_, ?_⟩, ?_⟩, eReady ?_, ?_, eReady ?_, ?_⟩ <;> decide +kernel

/-- An active subscription, and a transfer of two chunks of which one is in flight. -/
theorem witness_TransferWaits_cancel :
    (let x : Xfer := { Xfer.zero with state := .active, gen := 1, job := .ssub 0 false 0 1 512 0 [] [] }
     let s := (slotSt .active 1 2).modR 0 fun r => { r with slots := [(31, x)] }
     s.Ready (.cpcancel 9) [9] [] ∧ s.live 0 (s.src [9] 0) = some 31 ∧ (s.slot 0 31).flight = [] ∧ (s.slot 0 31).job = x.job) ∧
    (let x : Xfer := { (slotSt .active 0 2).slot 0 31 with flight := [{ chunk := 1, writes := [(0x1800, 7), (0x1801, 8)], bytes := 2, flags := 0 }] }
     let s := (slotSt .active 1 2).modR 0 fun r => { r with slots := [(31, x)] }
     let c := x.flight.flatMap (·.writes)
     s.Ready (.cpcancel 9) [9] [] ∧ s.live 0 (s.src [9] 0) = some 31 ∧ (s.slot 0 31).state = .active ∧ (s.slot 0 31).sh.bar.getLsbD 0 = false ∧
       (∀ f ∈ x.flight, s.cellsBad f.writes = false) ∧ (∀ k ∈ c, isIo k.1 = false ∧ s.cutKey k.1 = false) ∧ (c.map (·.1)).Nodup ∧
       (x.flight.map (·.chunk)).Nodup) := by
  refine ⟨⟨⟨?_, ?_⟩, ?_, ?_, ?_⟩, ⟨?_, ?_⟩, ?_, ?_, ?_, ?_, ?_, ?_, ?_⟩ <;> decide +kernel

/-- R320: a wait for chunk 1 of a transfer whose chunk 0 has landed stands. -/
theorem test_cpwait : ∃ t, exec (.cpwait 9 10) (slotSt .active 1 2) = .next t ∧ ((t.hart 0).a.wait, (t.hart 0).a.pc) = (.cpwait, 0x1000) :=
  ⟨_, rfl, by decide +kernel⟩

/-- A hart that gathers one block of two INT32 into its scratch, by the list at 0x1800; x9 names the list. -/
def gSt (dst : Nat) (v : W64) : State := tdSt (tdMk 4 0 0xFF00_0000_0000 3 2) ((scrSt [v]).modA 0 fun a => { a with
  cp := { Shadows.zero with dst := BitVec.ofNat 64 dst } })

theorem witness_BlockGather : ∃ X, (gSt 0xFF00_0000_0000 0x1800).tensHeld 0 5 = some X ∧ (gSt 0xFF00_0000_0000 0x1800).tdUse X.td = 0 ∧
    X.buf = none ∧ (gSt 0xFF00_0000_0000 0x1800).Ready (.bgather 8 9 5) [9] [8] ∧
    (((gSt 0xFF00_0000_0000 0x4000_0000_0000_1800).src [9] 0).toNat / 2 ^ 62 ≠ 0) ∧
    (let y := (gSt 0xFF00_0000_0000 0x1800).aLoads (.aStream 0) 0x1808 2
     let z := y.2.aLoad (.aStream 0) 0x1800 8
     y.1.isOk = true ∧ z.1.isOk = true ∧ (z.2.aStore (.aStream 0) 0x1800 8 0).1 = none) ∧
    (let q := Geo.of ((gSt 0xFF00_0000_0000 0x1800).hart 0).a.cp
     ¬ (tdLayout X.td ≠ 0 ∨ q.chunk < tdTileBytes X.td ∨ q.dst < ownBase ∨
       ownBase + ((gSt 0xFF00_0000_0000 0x1800).hart 0).r.bound < q.dst + 1 * q.chunk)) ∧
    (Geo.of ((gSt 0x1000 0x1800).hart 0).a.cp).dst < ownBase ∧ (gSt 0xFF00_0000_0000 0x1800).LowestFree 0 0 ∧
    (tgetD (gSt 0xFF00_0000_0000 0x1800).copyq (0 / 64) []).length < 64 := by
  refine ⟨_, rfl, ?_, ?_, ⟨?_, ?_⟩, ?_, ?_, ?_, ?_, ⟨?_, ?_, fun j hj => absurd hj (Nat.not_lt_zero j)⟩, ?_⟩ <;>
    decide +kernel

/-- A transfer of one chunk that waits in its engine, or has been read and is in flight. -/
def engX (fl : List Flight) : Xfer := { Xfer.zero with
  state := .active, gen := 1, bitmap := presetBits 1, job := .copy, chunks := 1, launched := 1, flight := fl,
  started := if fl = [] then 0 else 1, sh := ((cpSt 0 0x1000 0x1800 8).hart 0).a.cp }

/-- The engine of truss 0 holds it. -/
def engSt (fl : List Flight) : State :=
  { (cpSt 0 0x1000 0x1800 8).modR 0 fun r => { r with slots := [(0, engX fl)] } with copyq := [(0, [.slot 0 0 1])] }

/-- A flight of two bytes. -/
def fl2 : Flight := { chunk := 0, writes := [(0x1800, 7), (0x1801, 8)], bytes := 2, flags := 0 }

theorem witness_CopyEngine :
    ((Geo.of ((cpSt 0 0x1000 0x1800 8).hart 0).a.cp).out = some (1, 8) ∧ 0 < (Geo.of ((cpSt 0 0x1000 0x1800 8).hart 0).a.cp).es ∧
      (Geo.of ((cpSt 1 0x1000 0x1800 8).hart 0).a.cp).kind = 1 ∧ (Geo.of ((cpSt 5 0x1000 0x1800 8).hart 0).a.cp).kind = 5) ∧
    ((engSt []).engNext 0 = some (.slot 0 0 1, engX [], 0) ∧ ∃ p, (engSt []).xferPlan (.slot 0 0 1) (engX []) 0 = some p ∧
      ((engSt []).engReads ((engSt []).engCtx (.slot 0 0 1) 512) p.need).1.isOk = true ∧ ∀ bs w, ∃ out fl, p.make bs w = some (out, fl) ∧
      (({ ((engSt []).engReads ((engSt []).engCtx (.slot 0 0 1) 512) p.need).2 with free := 1 } : State).engCells
        ((engSt []).engCtx (.slot 0 0 1) 512) p.dst).1.isOk = true) ∧
    (cpSt 0 0x1000 0x1800 8).engNext 0 = none ∧
    (∃ x, (engSt [fl2]).flightOf = some (.slot 0 0 1, fl2) ∧ (engSt [fl2]).xfer? (.slot 0 0 1) = some x ∧ x.state = .active ∧
      x.sh.bar.getLsbD 0 = false ∧ (engSt [fl2]).cellsBad fl2.writes = false ∧ (∀ c ∈ fl2.writes, isIo c.1 = false ∧ (engSt [fl2]).cutKey c.1 = false) ∧
      (fl2.writes.map (·.1)).Nodup ∧
      (x.flight.filter fun g => g.chunk != fl2.chunk) = [] ∧ x.bitmap ||| BitVec.ofNat 64 (2 ^ fl2.chunk) = BitVec.allOnes 64) ∧
    ((engSt [fl2, { fl2 with chunk := 1 }]).flightOf = some (.slot 0 0 1, fl2) ∧
      ([fl2, { fl2 with chunk := 1 }].filter fun g => g.chunk != fl2.chunk) ≠ []) := by
  refine ⟨by decide +kernel, ⟨by decide +kernel, _, rfl, by decide +kernel, fun _ _ => ⟨_, _, rfl, by decide +kernel⟩⟩, by decide +kernel,
    ⟨_, rfl, rfl, ?_⟩, by decide +kernel⟩
  decide +kernel

/-- One plane and one row of n bytes of kind k, 32-bit elements to 16-bit ones. -/
def geoK (k n : Nat) : Geo :=
  { Geo.of ((cpSt 0 0x1000 0x1800 8).hart 0).a.cp with kind := k, sfmt := 5, dfmt := 2, inner := n }

/-- A chunk of each kind that computes its bytes, and a block that decodes and one that does not. -/
theorem witness_CopyEngine_kinds :
    (geoK 2 8).out = some (1, 4) ∧ (geoK 3 512).out = some (1, 512) ∧ (geoK 4 8).out = some (1, 576) ∧
      decodeBlock 0 (List.replicate 512 0) = none ∧ (decodeBlock 0x8000 (List.replicate 512 0)).isSome = true := by decide +kernel

/-- The engine holds an EXPAND of a header that names no dword. -/
def expSt : State :=
  { (cpSt 3 0x1000 0x1800 512).modR 0 fun r => { r with slots := [(0, { engX [] with sh := ((cpSt 3 0x1000 0x1800 512).hart 0).a.cp })] } with
    copyq := [(0, [.slot 0 0 1])] }

/-- The chunk that the engine of truss 0 may start is read, and no bytes can be made of it. -/
def makesNone (s : State) : Bool := match s.engNext 0 with
  | some (r, x, k) => match s.xferPlan r x k with
    | some p => let c := s.engCtx r 512
      match s.engReads c p.need with
      | (.ok b0, s0) => match s0.engReads c (p.more b0) with
        | (.ok b1, _) => (p.make (b0 ++ b1) 0).isNone
        | _ => false
      | _ => false
    | none => false
  | none => false

theorem witness_CopyEngine_decode : makesNone expSt = true := by decide +kernel

/-- The transfer in flight credits the stage barrier at 0x100 of the hart's scratch. -/
def landSt : State := (((engSt [fl2]).modR 0 fun r => { r with slots := [(0, { engX [fl2] with sh := { (engX [fl2]).sh with bar := 0x101 } })] }).pokeNat
  (scratchKey 0 (8192 + 0x100)) 8 2).pokeNat (scratchKey 0 (8192 + 0x108)) 8 3

theorem witness_CopyEngine_barrier : ∃ x, landSt.flightOf = some (.slot 0 0 1, fl2) ∧ landSt.xfer? (.slot 0 0 1) = some x ∧ x.state = .active ∧
    x.sh.bar.getLsbD 0 = true ∧ x.sill = false ∧
    (let kb := scratchKey 0 ((landSt.hart 0).r.alloc + (landSt.hart 0).r.base + 16 * (x.sh.bar.toNat / 16 % 2 ^ 19))
     readBad landSt kb 16 = false ∧ ∀ c ∈ fl2.writes, c.1 < kb) ∧
    landSt.cellsBad fl2.writes = false ∧ (∀ c ∈ fl2.writes, isIo c.1 = false ∧ landSt.cutKey c.1 = false) := by
  refine ⟨_, rfl, rfl, ?_⟩
  decide +kernel

/-- R325: the landing writes the two bytes and ends the transfer. -/
theorem test_landing : ∃ t, exec .chunkLanding (engSt [fl2]) = .next t ∧ (t.byteOf 0x1801, (t.slot 0 0).state) = (8, .done) :=
  ⟨_, rfl, by decide +kernel⟩

end Sys2Proof.Tests
end

