-- ==== Sys2Proof/Tests/Sync.lean ====
section
/-! SUPPORT. Tests of stream loads, stage barriers, identifiers, ridges and graph launches: a witness for the hypotheses of
each statement about them. -/

namespace Sys2Proof.Tests

set_option Elab.async false

open Sys2Proof Sys2Proof.Machine

/-- What holds of the pairs of two lists holds at every place of both. -/
theorem at_zip {us : List (Nat × Nat)} {ks : List Phys} {p : Nat × Nat → Phys → Prop} (h : ∀ q ∈ us.zip ks, p q.1 q.2) (k : Nat)
    (u : Nat × Nat) (c : Phys) (hu : us[k]? = some u) (hc : ks[k]? = some c) : p u c :=
  h (u, c) (List.mem_of_getElem? (i := k) (List.getElem?_zip_eq_some.2 ⟨hu, hc⟩))

/-- The dwords of SLD and the words of SLDS from an address. -/
def usD (va : Nat) : List (Nat × Nat) := (List.range 16).map fun k => (va + 8 * k, 8)
def usW (va step : W64) : List (Nat × Nat) := (List.range 32).map fun k => ((va + BitVec.ofNat 64 k * step).toNat, 4)

/-- Where an address of the first pages lies. -/
def at0 (u : Nat × Nat) : Phys := ⟨u.1, false⟩

/-- A hart with two addresses and an uncorrectable error at 0x1000. -/
def badSt (xs : List W64) : State := { aSt xs with bad := [0x1000] }

theorem witness_StreamLoads :
    ((aSt [0x1000]).cur = .aStream 0 ∧ (aSt [0x1000]).Ready (.sld 4 9) [9] [4] ∧
      ((aSt [0x1000]).src [9] 0).toNat % ((aSt [0x1000]).vlen 0 / 8) = 0 ∧
      usD 0x1000 = (List.range ((aSt [0x1000]).vlen 0 / 8 / 8)).map fun k => (((aSt [0x1000]).src [9] 0).toNat + 8 * k, 8)) ∧
    (aSt [0x2000, 0xFFFF_FFFF_FFFF_FFFC]).Ready (.slds 7 9 10) [9, 10] [7] ∧
    (∀ u ∈ usW 0x2000 0xFFFF_FFFF_FFFF_FFFC, (aSt []).placeH 0 u.1 u.2 ≠ .bounds ∧ u.1 % 4 = 0) ∧
    (let x := (aSt [0x1000]).slXlat (.aStream 0) (usD 0x1000)
     x.1 = .ok ((usD 0x1000).map at0) ∧ ∀ (k : Nat) u c, (usD 0x1000)[k]? = some u → ((usD 0x1000).map at0)[k]? = some c →
       x.2.readBadBy (.aStream 0) c u.2 = false) ∧
    (let x := (badSt [0x1000]).slXlat (.aStream 0) (usD 0x1000)
     x.1 = .ok ((usD 0x1000).map at0) ∧ (match (x.2.slRead (.aStream 0) ((usD 0x1000).zip ((usD 0x1000).map at0))).1 with
       | .error va => va
       | .ok _ => 0) = 0x1000) ∧
    ((aSt [0x1800, 0x1800]).Ready (.sldz 4 9 10) [9, 10] [4] ∧ ((aSt [0x1A00, 0x1800]).src [9, 10] 0).toNat = 0x1800 + 512 * 1 ∧
      0x1800 % ((aSt []).vlen 0 / 8) = 0 ∧ 0x1800 % 512 = 0) ∧
    (let x := ((aSt [0x1800, 0x1800]).pokeNat 0x1A00 2 4).slXlat (.aStream 0) ((0x1A00, 2) :: (List.range 64).map fun j => (0x1800 + 8 * j, 8))
     x.1 = .ok (⟨0x1A00, false⟩ :: (List.range 64).map fun j => ⟨0x1800 + 8 * j, false⟩) ∧
       (∀ c ∈ (List.range 65).map fun j => 0x1800 + 8 * j, x.2.readBadBy (.aStream 0) ⟨c, false⟩ 8 = false) ∧
       (decodeBlock (x.2.nat 0x1A00 2) (((List.range 64).map fun j => 0x1800 + 8 * j).flatMap fun c => x.2.bytes c 8)).isSome = true ∧
       decodeBlock ((aSt []).nat 0x1A00 2) (((List.range 64).map fun j => 0x1800 + 8 * j).flatMap fun c => (aSt []).bytes c 8) = none) ∧
    (∀ e ∈ [AEntry.filling 2, .failing 0x1008], ({ (aSt []).modR 0 fun r => { r with ae := [(3, [.full 1, .failed 0, e])] } with
      ev := { EvArg.zero with n1 := 3 } } : State).aeOf 0 3 = [.full 1, .failed 0] ++ e :: []) := by
  refine ⟨⟨?_, ⟨?_, ?_⟩, ?_, ?_⟩, ⟨?_, ?_⟩, ?_, ⟨?_, at_zip ?_⟩, ?_, ⟨⟨?_, ?_⟩, ?_, ?_⟩, ?_, ?_⟩ <;> decide +kernel

theorem witness_CompressionRoundTrip : (List.replicate 512 (0 : Byte)).length = 512 := by decide +kernel

/-- A hart whose scratch holds a barrier of this state at its start; x10 = v. -/
def stageSt (b : Bar) (va v : W64) : State := (scrSt [va, v]).setBar (scratchKey 0 8192) b

theorem witness_Barriers : ((stageSt ⟨0, 1, 1, false⟩ 0xFF00_0000_0000 5).cur = .aStream 0 ∧
      (stageSt ⟨0, 1, 1, false⟩ 0xFF00_0000_0000 5).Ready (.binit 9 10) [9, 10] [] ∧
      (stageSt ⟨0, 1, 1, false⟩ 0xFF00_0000_0000 5).Ready (.bexpect 9 10) [9, 10] [] ∧
      (stageSt ⟨0, 1, 1, false⟩ 0xFF00_0000_0000 5).Ready (.barrive 9) [9] [] ∧
      (stageSt ⟨0, 1, 1, false⟩ 0xFF00_0000_0000 5).Ready (.bwait 9 10) [9, 10] [] ∧
      (stageSt ⟨0, 1, 1, false⟩ 0xFF00_0000_0000 5).Ready (.btest 8 9) [9] [8]) ∧
    ((stageSt ⟨0, 1, 1, false⟩ 0xFF00_0000_0000 5).placeH 0 0xFF00_0000_0000 1 = .scratch (scratchKey 0 8192) ∧ 0xFF00_0000_0000 % 16 = 0 ∧
      readBad (stageSt ⟨0, 1, 1, false⟩ 0xFF00_0000_0000 5) (scratchKey 0 8192) 16 = false) ∧
    (∀ k, (stageSt ⟨0, 1, 1, false⟩ 0x1000 5).placeH 0 0x1000 1 ≠ .scratch k) ∧
    ((scrSt []).placeH 0 0xFF00_0000_0008 1 = .scratch (scratchKey 0 8200) ∧ 0xFF00_0000_0008 % 16 ≠ 0) ∧
    (((stageSt ⟨0, 1, 1, false⟩ 0 0).bar (scratchKey 0 8192)).phase = (0 : W64).getLsbD 0 ∧
      ((stageSt ⟨0, 1, 1, true⟩ 0 0).bar (scratchKey 0 8192)).phase ≠ (0 : W64).getLsbD 0) := by
  refine ⟨⟨?_, ⟨?_, ?_⟩, ⟨?_, ?_⟩, ⟨?_, ?_⟩, ⟨?_, ?_⟩, ?_, ?_⟩, ?_, fun k h => ?_, ?_, ?_⟩
  rotate_left 12
  · have h1 : (stageSt ⟨0, 1, 1, false⟩ 0x1000 5).placeH 0 0x1000 1 = .paged := by decide +kernel
    rw [h1] at h
    cases h
  all_goals decide +kernel

/-- R203: the last arrival flips the phase and sets LEFT again. -/
theorem test_barrive : ∃ t, exec (.barrive 9) (stageSt ⟨0, 1, 3, false⟩ 0xFF00_0000_0000 0) = .next t ∧
    t.bar (scratchKey 0 8192) = ⟨0, 3, 3, true⟩ := ⟨_, rfl, by decide +kernel⟩

/-- A command of a region, read from a queue's first record. -/
def cmd0 : Cmd := { id := 1, rcb := 0x2000, src := .queue 0 0 0, va := 0, rec_ := 0, phase := .active, ready := true, readyAt := 0,
                    run := none, xfer := none, inst := none, gsnap := none, partner := none, mergedInto := none }

/-- A hart whose step belongs to command 1; an instance of one node. -/
def postSt (src : CmdSrc) : State := { (aSt [7]).modHart 0 fun v => { v with id := { v.id with node := 1 } } with
  cmds := [{ cmd0 with src := src }]
  insts := [{ id := 2, rcb := 0x2000, area := 0x1800, nodes := [0], cmd := none, left := 1, failed := false, counts := [], preds := [] }] }

theorem witness_ScopesAndPost : ((aSt [1, 0x1007]).Ready (.scopeof 8 9 10) [9, 10] [8] ∧ (0x1007 : W64).toNat / 4096 % 64 ≠ 0) ∧
    ((postSt (.queue 0 0 0)).cur = .aStream 0 ∧ (postSt (.queue 0 0 0)).Ready (.post 9) [9] [] ∧
      (postSt (.queue 0 0 0)).bodyNode 0 = some cmd0) ∧
    ((postSt (.node 2 0)).Ready (.post 9) [9] [] ∧ (postSt (.node 2 0)).bodyNode 0 = some { cmd0 with src := .node 2 0 } ∧
      ((postSt (.node 2 0)).inst? 2).isSome = true) := by
  refine ⟨⟨⟨?_, ?_⟩, ?_⟩, ⟨?_, ⟨?_, ?_⟩, ?_⟩, ⟨?_, ?_⟩, ?_, ?_⟩ <;> decide +kernel

/-- A hart whose context owns the ridges 0 and 1, of which 1 is a MAX ridge with an older value. -/
def ridgeSt (xs : List W64) : State := { aSt xs with
  preg := { (aSt []).preg with ridgeown := [(0, 0x1001), (1, 0x1001)] }
  ridges := [(1, { Ridge.zero with max := true, wide := true, hist := [⟨5, 0, 0, 0⟩, ⟨3, 0, 0, 0⟩] })] }

theorem witness_Ridges : ((ridgeSt [0, 5, 0]).Ready (.rird 8 9) [9] [8] ∧ (ridgeSt [0, 5, 0]).Ready (.rimin 9 10 11) [10, 9, 11] [] ∧
      (ridgeSt [0, 5, 0]).Ready (.rireset 9 10 11) [10, 9, 11] [] ∧ 15 < ((ridgeSt [16]).src [9] 0).toNat) ∧
    ((ridgeSt []).cur.hart? = some 0 ∧ (ridgeSt []).ownsRidge 0 15 = false ∧ (ridgeSt []).ownsRidge 0 0 = true ∧
      (ridgeSt []).ownsRidge 0 1 = true ∧ ((ridgeSt []).ridge 1).max = true ∧ ((ridgeSt []).ridge 0).max = false) ∧
    ((5 : W64).toInt < ((ridgeSt []).ridge 0).key.toInt ∧ ¬ (((ridgeSt []).ridge 1).key.toInt < (5 : W64).toInt)) ∧
    ((2 : W64).getLsbD 1 = true ∧ ({ ridgeSt [] with preg := { (ridgeSt []).preg with featack := some 0xDF } } : State).has .pod = false ∧
      { ridgeSt [0, 5, 2] with preg := { (ridgeSt []).preg with featack := some 0xDF } }.Ready (.rireset 9 10 11) [10, 9, 11] []) ∧
    (((ridgeSt []).ridge 1).hist[1]? = some ⟨3, 0, 0, 0⟩ ∧
      0 + ({ ridgeSt [] with cycle := 1000 } : State).staleClk (scopeOf 0 (BitVec.ofNat 64 ((ridgeSt []).hartId (3 * 8)))) ≤ 1000) ∧
    ((ridgeSt [5, 0]).Ready (.killck 9 10) [9, 10] [] ∧ (ridgeSt [5, 0]).ridgeCheck 0 = none ∧
      (5 : W64).toInt < ((ridgeSt [5, 0]).copyKey 0 0).toInt ∧
      ((ridgeSt []).copyKey 0 0).toInt ≤ (0x7FFF_FFFF_FFFF_FFFF : W64).toInt) := by
  refine ⟨⟨⟨?_, ?_⟩, ⟨?_, ?_⟩, ⟨?_, ?_⟩, ?_⟩, ?_, ?_, ⟨?_, ?_, ?_, ?_⟩, ?_, ⟨?_, ?_⟩, ?_, ?_, ?_⟩ <;> decide +kernel

/-- What RIDGE_FORWARD brings: an update of ridge 1's epoch, a reset of a later one, and one that has come before. -/
theorem witness_Ridges_forward :
    ((1 : Nat) ≤ 15 ∧ ((ridgeSt []).ridge 1).wide = true ∧ ((ridgeSt []).ridge 1).epoch = 0 ∧ ((ridgeSt []).ridge 0).wide = false) ∧
    ((2 : Nat) ≠ 0 ∧ ((ridgeSt []).ridge 1).epoch < 1) ∧ (1 : Nat) < 512 := by decide +kernel

/-- A graph at 0x1800 with n nodes of which none has a successor or a predecessor, and GEN gen; the area at 0x1C00. -/
def graphSt (gen n : Nat) (g area : W64) : State :=
  ((((((aSt [g, area]).pokeNat 0x2000 8 2).pokeNat 0x2040 8 0x1_0000).pokeNat 0x1800 8 gen).pokeNat 0x1808 8 n).pokeNat 0x1872 6
    0xFFFF_FFFF_FFFF)

theorem witness_GraphLaunch : ((graphSt 2 1 0x1800 0x1C00).cur = .aStream 0 ∧ (graphSt 2 1 0x1800 0x1C00).Ready (.glaunch 8 9 10) [9, 10] [8] ∧
      ((graphSt 2 1 0x1804 0x1C00).src [9, 10] 0).toNat % 64 ≠ 0 ∧ ((graphSt 2 1 0x1800 0x1C08).src [9, 10] 1).toNat % 64 ≠ 0) ∧
    (let x := (graphSt 2 0 0x1800 0x1C00).ctlRead 0x1_0000 0x1800 16
     x.1.isOk = true ∧ ((x.1.toOption.getD []).getD 8 0).toNat = 0) ∧
    (let x := (graphSt 2 1 0x1800 0x1C00).ctlRead ((graphSt 2 1 0x1800 0x1C00).ctxOf 0x2000).ptbase 0x1800 16
     let y := x.2.graphSnap 0x2000 0x1800
     let sn := match y.1 with
       | .ok (.ok sn) => sn
       | _ => ⟨0, 0, []⟩
     ((x.1.toOption.getD []).getD 8 0).toNat = 1 ∧ x.2.launchFault ((graphSt 2 1 0x1800 0x1C00).ctxOf 0x2000).ptbase 0x1800 0x1C00 1 = none ∧
       y.1 = .ok (.ok sn) ∧ sn.nodes.length = 1 ∧ (y.2.ctlWrite (x.2.ctxOf 0x2000).ptbase 0x1C00 (areaBytes sn)).1.isOk = true) ∧
    (let x := (graphSt 3 1 0x1800 0x1C00).ctlRead 0x1_0000 0x1800 16
     ((x.2.ctlRead 0x1_0000 0x1800 16).1.toOption.getD []).getD 0 0 = 3) ∧
    (((graphSt 2 1 0x1800 0x1C00).pokeNat 0x1872 1 1).graphSnap 0x2000 0x1800).1 = .ok (.error 5) ∧
    ((graphSt 3 1 0x1800 0x1C00).graphSnap 0x2000 0x1800).1 = .ok (.error 7) := by
  refine ⟨⟨?_, ⟨?_, ?_⟩, ?_, ?_⟩, ?_, ?_, ?_, ?_, ?_⟩ <;> decide +kernel

/-- The same graph at its launch's second step, with the snapshot made. -/
def graph2St (gen : Nat) : State := (graphSt gen 1 0x1800 0x1C00).modA 0 fun a => { a with gsnap := some ⟨0x2000, 2, [BitVec.ofNat 512 (0xFFFF_FFFF_FFFF * 2 ^ 400)]⟩ }

theorem witness_GraphLaunch_second : ((graphSt 2 1 0x1800 0x1C00).hart 0).a.gsnap = none ∧
    (∀ gen ∈ [2, 4], (graph2St gen).Ready (.glaunch 8 9 10) [9, 10] [8] ∧
      (let s0 := (graph2St gen).modA 0 fun r => { r with gsnap := none }
       let x := s0.ctlRead (s0.ctxOf 0x2000).ptbase 0x1800 8
       ofBytes (x.1.toOption.getD []) = gen ∧ x.1.isOk = true ∧ (x.2.ctlWrite (s0.ctxOf 0x2000).ptbase 0x1C00 (areaBytes ⟨0x2000, 2, [0]⟩)).1.isOk = true)) := by
  refine ⟨by decide +kernel, fun gen hg => ?_⟩
  simp only [List.mem_cons, List.not_mem_nil, or_false] at hg
  obtain rfl | rfl := hg <;> exact ⟨⟨by decide +kernel, by decide +kernel⟩, by decide +kernel⟩

end Sys2Proof.Tests
end

