-- ==== Sys2Proof/Tests/Pool.lean ====
section
/-! SUPPORT. Tests of remote enqueue and task pools: a witness for the hypotheses of each statement about them. -/

namespace Sys2Proof.Tests

set_option Elab.async false

open Sys2Proof Sys2Proof.Machine

/-- The region at 0x2000 has a pool of CAP 4 at 0x1900 and its QCBs at 0x2800; its context node stands at 0x3000. A record
of the largest key stands in the hart's scratch, and the context owns ridge 0. -/
def poolSt (xs : List W64) : State :=
  [(0x2000, 3), (0x2008, 0x3000), (0x2058, 0x2800), (0x2060, 0x1900), (0x3000, 2 + 2 ^ 16), (0x3040, 0x1_0000), (0x1900, 4),
    (scratchKey 0 8192, 0x7FFF_FFFF_FFFF_FFFF), (0x2800, 0x4000 + 4 * 2 ^ 60), (0x2808, 0x2000)].foldl
    (fun s p => s.pokeNat p.1 8 p.2) { scrSt xs with preg := { (aSt []).preg with ridgeown := [(0, 0x1001)] } }

/-- Handles of the pool and of queue 0, and a record specification with a kill test at ridge 0. -/
def hPool : W64 := 0x4000_0000_0000_1900
def hQueue : W64 := 0x2800
def killSpec : W64 := 0x0010_FF00_0000_0000

theorem witness_RecordInstructions :
    ((poolSt [hPool, 0x1800]).cur = .aStream 0 ∧ (poolSt [hPool, 0x1800]).Ready (.remq 9 10) [9, 10] [] ∧
      (poolSt [hPool, 0x1800]).Ready (.remqa 8 9 10) [9, 10] [8] ∧ ((poolSt [hPool, 0x1800]).hart 0).a.remq = none) ∧
    (let s : State := { poolSt [hPool, 0x1800] with preg := { (poolSt []).preg with featack := some 0xF7 } }
     s.Ready (.remq 9 10) [9, 10] [] ∧ s.has .search = false ∧ hPool.toNat / 2 ^ 62 = 1) ∧
    ((0x1808 : W64).toNat % 2 ^ 48 % 64 ≠ 0 ∧ (0x1800 : W64).toNat % 2 ^ 48 % 64 = 0 ∧
      ({ poolSt [] with credits := [(0, 0)] } : State).credit? 0 = 0 ∧ 0 < (poolSt []).credit? 0) ∧
    (let x := (poolSt [hPool, killSpec]).aLoads (.aStream 0) 0xFF00_0000_0000 8
     let s2 := x.2.l1Release 0
     x.1.isOk = true ∧ s2.PushKilled 0 killSpec (BitVec.ofNat 512 (packElems 64 ((x.1.toOption.getD []).map (·.toNat)))) ∧
       ¬ s2.PushKilled 0 0xFF00_0000_0000 (BitVec.ofNat 512 (packElems 64 ((x.1.toOption.getD []).map (·.toNat)))) ∧
       s2.poolRegion (s2.hart 0).ctx.asid (hPool.toNat % 2 ^ 48) = some 0x2000 ∧ hPool.toNat / 2 ^ 56 % 64 = s2.pkgNum ∧
       s2.poolOf 0x2000 = some (0x1900, 4) ∧ (x.2.hart 0).ctx.rcb = 0x2000) ∧
    (aSt []).poolOf 0x2000 = none ∧
    ((((poolSt [hPool, 0]).modA 0 fun r => { r with remq := some (1, none) }).Ready (.remqa 8 9 10) [9, 10] [8]) ∧
      (((poolSt [hPool, 0]).modA 0 fun r => { r with remq := some (1, some 2) }).hart 0).a.remq = some (1, some 2)) ∧
    (poolSt [0x1800]).Ready (.ppush 8 9) [9] [8] ∧
    (2 ^ 4 ≤ (({ poolSt [] with shards := [(shardKey 0x2000 0, { Shard.zero with entries := List.replicate 16 ⟨0, false, 0, false, 0⟩ })] } :
      State).shard 0x2000 0).entries.length ∧ ((poolSt []).shard 0x2000 0).entries.length < 2 ^ 4) := by
  refine ⟨⟨?_, ⟨?_, ?_⟩, ⟨?_, ?_⟩, ?_⟩, ⟨⟨?_, ?_⟩, ?_, ?_⟩, ?_, ⟨?_, ?_, ?_, ?_⟩, ?_, ⟨⟨?_, ?_⟩, ?_⟩, ⟨?_, ?_⟩, ?_⟩
  all_goals try simp only [State.PushKilled]
  all_goals decide +kernel

/-- A record on its way to a handle, or stolen from shard 1 by shard 0. -/
def rqOf (kind : RqKind) (handle : W64) : RqRec :=
  { name := 1, kind := kind, ctx := { ((poolSt []).hart 0).ctx with ctxRcb := 0x3000 }, handle := handle, rec_ := 5, kill := false, ridge := 0, truss := 0 }

/-- The channel holds records. -/
def rqSt (l : List RqRec) : State := { poolSt [] with rq := l }

/-- Pool entries of a key; the first is LENT. -/
def lentE : PEntry := { rec_ := 5, kill := false, ridge := 0, lent := true, lentAt := 0 }
def bestE : PEntry := { rec_ := 3, kill := false, ridge := 0, lent := false, lentAt := 0 }

/-- Shard 1 holds two entries. A POOL node of the region is under way. -/
def stealSt : State := { poolSt [] with
  shards := [(shardKey 0x2000 1, { Shard.zero with entries := [lentE, bestE] })]
  ev := { EvArg.zero with w := 0x2000 }
  cmds := [{ cmd0 with run := some { blk := 1, next := 0, total := 1, live := 0, retired := 0, killed := 0, failed := false,
                                     lastBay := none, splice := none } }] }

theorem witness_RecordChannel :
    ((rqSt [rqOf (.enqueue none) hPool]).rq[0]? = some (rqOf (.enqueue none) hPool) ∧
      (∀ m r, m < 0 → (rqSt [rqOf (.enqueue none) hPool]).rq[m]? = some r → r.handle ≠ hPool) ∧
      (rqSt []).pkgNum = 0 ∧ (rqSt []).poolRegion 1 0x1900 = some 0x2000 ∧ (rqSt []).poolOf 0x2000 = some (0x1900, 4) ∧
      ((rqSt []).shard 0x2000 0).entries.length < 2 ^ 4) ∧
    ((hQueue.toNat / 2 ^ 62 = 0 ∧ (0x8000_0000_0000_0000 : W64).toNat / 2 ^ 62 = 2) ∧
      let x := (rqSt []).ctlRead 0x1_0000 0x2800 64
      x.1.isOk = true ∧ qcbRing (ofBytes ((x.1.toOption.getD []).take 8)) = some (0x4000, 4) ∧
        ofBytes (((x.1.toOption.getD []).drop 8).take 8) % 2 ^ 48 = 0x2000 ∧ isHbm x.2 0x2000 = true ∧ x.2.rcbLevel 0x2000 = 3 ∧
        x.2.ctxNode 0x2000 = (rqOf (.enqueue none) hQueue).ctx.ctxRcb ∧ x.2.rcbFld 0x2000 0x58 6 42 * 64 = 0x2800 ∧ ofBytes (((x.1.toOption.getD []).drop 0x18).take 4) = 0 ∧
        (x.2.ctlWrite (x.2.ctxOf 0x2000).ptbase (0x4000 + 64 * 0) (toBytes 64 5)).1.isOk = true) ∧
    (let x := ((rqSt []).pokeNat 0x2818 4 16).ctlRead 0x1_0000 0x2800 64
     ofBytes (((x.1.toOption.getD []).drop 0x18).take 4) = 16) ∧
    ((rqSt [rqOf (.steal 1 0) 0]).rq[0]? = some (rqOf (.steal 1 0) 0) ∧ ¬ (∃ e ∈ ((rqSt []).shard 0x2000 0).entries, recSeq e.rec_ = 0) ∧
      ∃ e ∈ (({ rqSt [] with shards := [(shardKey 0x2000 0, { Shard.zero with entries := [lentE] })] } : State).shard 0x2000 0).entries,
        recSeq e.rec_ = 0) ∧
    ((stealSt.shard 0x2000 1).best = some (1, bestE) ∧ (63 : Nat) < 64 ∧ stealSt.mayProbe 0x2000 0 = true ∧
      ((victims (stealSt.shard 0x2000 0) 0).find? fun v => ((stealSt.shard 0x2000 v).best).isSome) = some 1) := by
  refine ⟨⟨rfl, fun m r hm => absurd hm (Nat.not_lt_zero m), ?_⟩, ?_, ?_, ⟨rfl, ?_, ?_⟩, ?_⟩ <;> decide +kernel

/-- The malformed QCBs, a record of another package and one for another, and a thief that finds every victim empty. -/
theorem witness_RecordChannel_more :
    (let x := ((rqSt []).pokeNat 0x2800 8 0).ctlRead 0x1_0000 0x2800 64
     x.1.isOk = true ∧ qcbRing (ofBytes ((x.1.toOption.getD []).take 8)) = none) ∧
    (let x := ((rqSt []).pokeNat 0x2808 8 0x3000).ctlRead 0x1_0000 0x2800 64
     x.1.isOk = true ∧ x.2.rcbLevel (ofBytes (((x.1.toOption.getD []).drop 8).take 8) % 2 ^ 48) ≠ 3) ∧
    (let s : State := { rqSt [rqOf (.enqueue none) 0x0100_0000_0000_2800] with ev := { EvArg.zero with n2 := 0 } }
     s.ev.n2 ≠ 1 ∧ (0x0100_0000_0000_2800 : W64).toNat / 2 ^ 56 % 64 ≠ s.pkgNum) ∧
    (let s : State := { rqSt [] with ev := { EvArg.zero with n2 := 1, w := hPool } }
     s.ev.n2 = 1 ∧ s.ev.w.toNat / 2 ^ 56 % 64 = s.pkgNum) ∧
    (2 ^ 4 ≤ (({ rqSt [] with shards := [(shardKey 0x2000 0, { Shard.zero with entries := List.replicate 16 bestE })] } :
      State).shard 0x2000 0).entries.length ∧ (aSt []).poolOf 0x2000 = none) ∧
    (let s : State := { stealSt with shards := [] }
     s.mayProbe 0x2000 0 = true ∧ ∀ v ∈ victims (s.shard 0x2000 0) 0, (s.shard 0x2000 v).best = none) := by
  refine ⟨?_, ?_, ?_, ?_, ?_, ?_⟩ <;> decide +kernel

/-- A QCB whose region's control block cannot be read. -/
theorem witness_RecordChannel_uncorr : let x := ({ rqSt [] with bad := [0x2000] } : State).ctlRead 0x1_0000 0x2800 64
    x.1.isOk = true ∧ isHbm x.2 0x2000 = true ∧ x.2.rcbBad 0x2000 = true := by decide +kernel

/-- R380: the victim's best entry is LENT. -/
theorem test_steal : ∃ t, exec .steal stealSt = .next t ∧ (t.shard 0x2000 1).entries.map (·.lent) = [true, true] ∧ t.rq.length = 1 :=
  ⟨_, rfl, by decide +kernel⟩

end Sys2Proof.Tests
end

