-- ==== Sys2Proof/Tests/Queue.lean ====
section
/-! SUPPORT. Tests of launch queues and their commands: a witness for the hypotheses of each statement about them. -/

namespace Sys2Proof.Tests

set_option Elab.async false

open Sys2Proof Sys2Proof.Machine

/-- An operator block at an address: a one-dimensional node of one step, whose operand 0 names tensor 5 with this role. -/
def blkAt (a role : Nat) : List (Nat × Nat) :=
  [(a, 2 ^ 8 + 2 ^ 16), (a + 8, 112 + 32 * 2 ^ 16 + 2 ^ 27), (a + 0x10, 0x1000), (a + 0x18, 1), (a + 0x20, 2 ^ 32), (a + 0x30, 0x1000),
    (a + 0x100, 5 + role * 2 ^ 8 + 2 ^ 16)]

/-- Memory with these dwords, at rising addresses. -/
def memD (l : List (Nat × Nat)) : List Host.Cell :=
  l.flatMap fun p => ((List.range 8).map fun j => (p.1 + j, BitVec.ofNat 8 (p.2 / 256 ^ j))).filter fun c => c.2 != 0

/-- The tables of poolSt with budgets, a tensor table whose entry 5 is a transient DENSE tensor, blocks at 0x5000 and 0x5200,
a copy descriptor at 0x5400, and a fence record at 0x1C00. -/
def tabSt : State := { poolSt [] with mem := memD ([(0x1800, 0x7FFF_FFFF_FFFF_FFFF), (0x1900, 4), (0x2000, 3), (0x2008, 0x3000),
  (0x2058, 0x2800), (0x2060, 0x1900), (0x2800, 0x4000 + 4 * 2 ^ 60), (0x2808, 0x2000), (0x2828, 0x1C00), (0x3000, 2 + 2 ^ 16),
  (0x3018, 4096 + 32 * 2 ^ 16), (0x3020, 0x80_0000 + 1000 * 2 ^ 32), (0x3040, 0x1_0000), (0x3050, 0x1_C000)] ++ blkAt 0x5000 1 ++
  blkAt 0x5200 0 ++ [(0x5400, 0x1000), (0x5408, 0x1400), (0x5410, 8 + 2 ^ 24 + 2 ^ 44), (0x1_0000, 0x1_1001), (0x1_1000, 0x1_2001),
  (0x1_2000, 0xC1F), (0x1_C280, 4 + 2 ^ 4 + 2 ^ 10 + 2 ^ 11), (0x1_C288, 0x1_8000), (0x1_C298, 3), (0x1_C2B0, 2)]) }

/-- A store of 8 bytes to doorbell page 0, bound to the region, kicks queue 0. -/
def doorSt (bs : List Byte) : State := { tabSt.pokeNat (ioBase + 0x80_0000) 8 (2 ^ 63 + 0x2000) with ev := { EvArg.zero with bs := bs } }

/-- Slot 0 runs queue 0, whose WIDX is w and whose ring stands at r. -/
def walkSt (w r : Nat) : State := { (tabSt.pokeNat 0x2818 4 w).pokeNat 0x2800 8 (r + 4 * 2 ^ 60) with
  qslots := [(0, ⟨.running, 0x2000, 0, 0x2800⟩)] }

/-- A record that a replay has to pass over. -/
theorem witness_QueueFetch_skip : let s : State := { walkSt 1 0x4000 with queues := [(queueKey 0x2000 0, { QueueSt.zero with skip := [(0, 8)] })] }
    ((s.queue 0x2000 0).skip.find? fun p => p.1 == 0) = some (0, 8) ∧ (s.queue 0x2000 0).held = none := by decide +kernel

theorem witness_QueueFetch :
    (((doorSt (toBytes 8 1)).byteOf (ioBase + 0xA800 + 0 / 8)).getLsbD 0 = false ∧ (doorSt (toBytes 8 1)).ev.bs.length = 8 ∧
      (doorSt (toBytes 8 1)).doorbell 0 = some 0x2000 ∧ (doorSt []).ev.bs.length ≠ 8 ∧ (doorSt []).doorbell 1 = none) ∧
    (let x := tabSt.ctlRead (tabSt.ctxOf 0x2000).ptbase (tabSt.qcbAt 0x2000 0) 64
     x.1.isOk = true ∧ qcbRing (ofBytes ((x.1.toOption.getD []).take 8)) = some (0x4000, 4) ∧
       (x.2.ctlPut State.storeLow (tabSt.ctxOf 0x2000).ptbase false (tabSt.qcbAt 0x2000 0 + 0x18) (toBytes 4 1)).1.isOk = true) ∧
    (let x := tabSt.ctlRead (tabSt.ctxOf 0x2000).ptbase (tabSt.qcbAt 0x2000 1) 64
     x.1.isOk = true ∧ qcbRing (ofBytes ((x.1.toOption.getD []).take 8)) = none) ∧
    (((walkSt 1 0x4000).qslot 0).state = .running ∧ (walkSt 1 0x4000).preg.featack ≠ none ∧ ((walkSt 1 0x4000).queue 0x2000 0).held = none ∧
      ((walkSt 1 0x4000).queueCmds 0x2000 0).length < 16 ∧ (walkSt 1 0x4000).rcbBad 0x2000 = false) ∧
    (let x := (walkSt 1 0x4000).ctlRead ((walkSt 1 0x4000).ctxOf 0x2000).ptbase ((walkSt 1 0x4000).qcbAt 0x2000 0) 64
     x.1.isOk = true ∧ (Qcb.of (x.1.toOption.getD [])).map (fun q => (q.widx, q.ridx, q.done, q.lg)) = some (1, 0, 0, 4) ∧
       (x.2.ctlRead (x.2.ctxOf 0x2000).ptbase 0x4000 64).1.isOk = true) ∧
    ((walkSt 1 0x4000).queue 0x2000 0).skip = [] ∧ (tabSt.qslot 0).state ≠ .running ∧
    ((walkSt 1 0x20_0000).ctlRead ((walkSt 1 0x20_0000).ctxOf 0x2000).ptbase 0x20_0000 64).1 = .error (.pfault, 0x20_0000) := by
  refine ⟨?_, ?_, ?_, ?_, ?_, ?_, ?_, ?_⟩ <;> decide +kernel

/-- A control block, or its region's, that cannot be read. -/
theorem witness_QueueFetch_bad : ({ walkSt 1 0x4000 with bad := [0x2000] } : State).rcbBad 0x2000 = true ∧
    (let s : State := { walkSt 1 0x4000 with bad := [0x2800] }
     s.rcbBad 0x2000 = false ∧ (s.ctlRead (s.ctxOf 0x2000).ptbase 0x2800 64).1 = .error (.uncorr, 0x2800)) ∧
    writeBad { tabSt with bad := [0x2080] } (0x2000 + 0x80 + 0 / 8) 1 = true ∧ writeBad tabSt (0x2000 + 0x80 + 0 / 8) 1 = false := by
  refine ⟨?_, ?_, ?_, ?_⟩ <;> decide +kernel

/-- A record: kind, first and second body dword. -/
def recW (k d8 d10 : Nat) : BitVec 512 := BitVec.ofNat 512 (k + d8 * 2 ^ 64 + d10 * 2 ^ 128)

/-- A waiting command of a queue or of a graph node. -/
def cmdW (src : CmdSrc) (r : BitVec 512) : Cmd := { cmd0 with src := src, rec_ := r, phase := .waiting, va := 0x4000 }

/-- An instance of two nodes, of which node 0 goes before node 1; its area stands at 0x1C00. -/
def inst2 : Inst := { id := 2, rcb := 0x2000, area := 0x1C00, nodes := [recW 0 0 0 ||| BitVec.ofNat 512 (0xFFFF_FFFF_FF01 * 2 ^ 400), BitVec.ofNat 512 (0xFFFF_FFFF_FFFF * 2 ^ 400)], cmd := none,
                      left := 2, failed := false, counts := [], preds := [] }

/-- Command 1 is to run. -/
def cSt (c : Cmd) : State := { tabSt with cmds := [c], insts := [inst2], ev := { EvArg.zero with n := 1 } }

/-- Ready, with dependences met and a legal record. -/
def goes (s : State) (c : Cmd) : Bool := (s.cmd? s.ev.n).any (decide <| · = c) && s.cmdReady c && decide (s.depStatus c = none) && c.legal

/-- A command of the run after one that failed. -/
def skipSt : State := { cSt (cmdW (.queue 0 0 1) (recW 0 0 0)) with queues := [(queueKey 0x2000 0, { QueueSt.zero with failed := [(0, 0)] })] }

theorem witness_QueueCommands_ready :
    ([recW 0 0 0, recW 1 0x5000 0, recW 2 0x5400 0, recW 3 0x1800 0x1C00, recW 5 0 0, recW 6 0x1800 5, recW 7 0x1800 5].all fun r =>
      goes (cSt (cmdW (.queue 0 0 1) r)) (cmdW (.queue 0 0 1) r)) = true ∧
    goes (cSt (cmdW (.node 2 1) (recW 4 0 5))) (cmdW (.node 2 1) (recW 4 0 5)) = true ∧
    ((cSt (cmdW (.queue 0 0 1) (recW 9 0 0))).cmdReady (cmdW (.queue 0 0 1) (recW 9 0 0)) = true ∧
      (cmdW (.queue 0 0 1) (recW 9 0 0)).legal = false) ∧
    (skipSt.cmdReady (cmdW (.queue 0 0 1) (recW 0 0 0)) = true ∧ skipSt.depStatus (cmdW (.queue 0 0 1) (recW 0 0 0)) = some 8) := by
  refine ⟨?_, ?_, ?_, ?_⟩ <;> decide +kernel

/-- What the accesses of the commands need. -/
theorem witness_QueueCommands_access :
    (tabSt.cmdStore 0x1_0000 0x1800 5).1.isOk = true ∧ (tabSt.cmdStore 0x1_0000 0x20_0000 5).1.isOk = false ∧
    (tabSt.ctlRead 0x1_0000 0x1800 8).1.isOk = true ∧ (tabSt.ctlRead 0x1_0000 0x20_0000 8).1.isOk = false ∧
    ((tabSt.ctxOf 0x2000).ptbase = 0x1_0000 ∧ tabSt.qcbAt 0x2000 0 = 0x2800 ∧ ((tabSt.ctlRead 0x1_0000 0x2828 16).1.toOption.map fun b => ofBytes (b.take 6)) = some 0x1C00) ∧
    (tabSt.ctlWrite 0x1_0000 0x1C00 (toBytes 16 1)).1.isOk = true ∧ (tabSt.ctlWrite 0x1_0000 0x20_0000 (toBytes 16 1)).1.isOk = false ∧
    (ancestor inst2.nodes inst2.nodes.length 0 1 = true ∧ ancestor inst2.nodes inst2.nodes.length 1 1 = false ∧
      (tabSt.ctlRead 0x1_0000 (inst2.area + 136 + 128 * 0) 8).1.isOk = true) ∧
    tabSt.has .search = true := by
  refine ⟨?_, ?_, ?_, ?_, ?_, ?_, ?_, ?_, ?_⟩ <;> decide +kernel

/-- A graph of one node at 0x1800, its snapshot, and a GRAPH command that has made it. -/
def gTab (gen n : Nat) : State := ((tabSt.pokeNat 0x1800 8 gen).pokeNat 0x1808 8 n).pokeNat 0x1872 6 0xFFFF_FFFF_FFFF
def snap1 : GraphSnap := ⟨0x2000, 2, [BitVec.ofNat 512 (0xFFFF_FFFF_FFFF * 2 ^ 400)]⟩
def gCmd : Cmd := { cmdW (.queue 0 0 1) (recW 3 0x1800 0x1C00) with gsnap := some snap1 }

theorem witness_QueueCommands_graph :
    ((gTab 2 1).graphSnap 0x2000 0x1800).1 = .ok (.ok snap1) ∧ ((gTab 3 1).graphSnap 0x2000 0x1800).1 = .ok (.error 7) ∧
    ((gTab 2 0).graphSnap 0x2000 0x1800).1 = .ok (.error 5) ∧ ((gTab 2 1).graphSnap 0x2000 0x20_0000).1.isOk = false ∧
    goes (cSt gCmd) gCmd = true ∧
    (∀ gen ∈ [2, 4], let s0 := ({ gTab gen 1 with cmds := [gCmd], ev := { EvArg.zero with n := 1 } } : State).modCmd 1 fun d => { d with gsnap := none }
      (s0.ctlRead 0x1_0000 0x1800 8).1.toOption.map ofBytes = some gen ∧ (s0.ctlWrite 0x1_0000 0x1C00 (areaBytes snap1)).1.isOk = true ∧
        (s0.ctlWrite 0x1_0000 0x20_0000 (areaBytes snap1)).1.isOk = false) := by
  refine ⟨?_, ?_, ?_, ?_, ?_, ?_⟩ <;> decide +kernel

/-- A command that a queue's failed run still concerns, and one of a queue and of a node that are not ready. -/
theorem witness_QueueCommands_ends : (1 ≤ 8 ∧ (8 : Nat) ≤ 8) ∧
    (cSt (cmdW (.queue 0 0 1) (recW 0 0 0))).cmd? 1 = some (cmdW (.queue 0 0 1) (recW 0 0 0)) ∧
    (1, 7) ∈ (({ cSt (cmdW (.queue 0 0 1) (recW 0 0 0)) with queues := [(queueKey 0x2000 0, { QueueSt.zero with run := 2, failed := [(1, 7)] })] } : State).queue
      0x2000 0).failed := by decide +kernel

/-- The copy descriptor at 0x5400, with these options, and the block at an address. -/
def desc (opt : W64) : Shadows := { Shadows.zero with src := 0x1000, dst := 0x1400, shape := 0x0000_1000_0100_0008, opt := opt }
def blk (role : Nat) : BitVec 4096 :=
  BitVec.ofNat 4096 ((blkAt 0 role).foldl (fun (x : Nat) (p : Nat × Nat) => x + p.2 * 2 ^ (8 * p.1)) 0)

/-- What COPY needs. -/
theorem witness_QueueCommands_copy :
    ((tabSt.ctlRead 0x1_0000 0x5400 64).1.toOption.map shadowsOf = some (desc 0) ∧ (desc 0).bar.getLsbD 0 = false ∧
      tabSt.launchCheck none (Geo.of (desc 0)) true = .ok 1 ∧ tabSt.launchCheck none (Geo.of (desc 6)) true = .error (.code 3) ∧
      ({ tabSt with preg := { tabSt.preg with featack := some 0 } } : State).launchCheck none (Geo.of (desc 3)) true = .error .feature ∧
      tabSt.copyEngine = some 0) := by
  refine ⟨?_, ?_, ?_, ?_, ?_, ?_⟩ <;> decide +kernel

/-- A producer and its consumer in queue 0. -/
def prod : Cmd := cmdW (.queue 0 0 1) (recW 1 0x5000 0)
def cons : Cmd := { cmdW (.queue 0 1 2) (recW 1 0x5200 0) with id := 2 }
def pairSt : State := { cSt prod with
  cmds := [prod, cons], insts := [], queues := [(queueKey 0x2000 0, { QueueSt.zero with run := 2, lens := [(1, 1), (2, 1)] })] }

/-- What RUN needs. -/
theorem witness_QueueCommands_run :
    (tabSt.ctlRead 0x1_0000 0x5000 512).1.toOption.map (fun bs => BitVec.ofNat 4096 (ofBytes bs)) = some (blk 1) ∧
    (blkOk (blk 1) = true ∧ blkPool (blk 1) = false ∧ tabSt.needsFit 0x2000 (blkNeeds (blk 1)) = true ∧
      tabSt.needsFit 0x4000 (blkNeeds (blk 1)) = false ∧ tabSt.spliceFind prod (blk 1) = none) ∧
    (pairSt.spliceFind prod (blk 1)).map (fun x => (x.1, x.2.2.tid)) = some (2, 5) ∧ blkOk 0 = false := by
  refine ⟨?_, ⟨?_, ?_, ?_, ?_, ?_⟩, ?_, ?_⟩ <;> decide +kernel

/-- R375, R384: the consumer is found as the producer becomes ready. -/
theorem test_consider : ((pairSt.consider 1).cmds.map fun c => c.partner.map fun x => (x.1, x.2.2.tid)) = [some (2, 5), none] ∧
    (pairSt.cmdBlock prod = some (blk 1) ∧ (pairSt.queueCmds 0x2000 0).length = 2 ∧ pairSt.has .splice = true) := by
  refine ⟨?_, ?_, ?_, ?_⟩ <;> decide +kernel

/-- A POOL block of 4 KiB of scratch, in a region with a pool, in one without, and without the feature. -/
def poolBlk : BitVec 4096 := blk 1 ||| 1 ||| BitVec.ofNat 4096 (2 ^ 108)

theorem witness_QueueCommands_pool : blkOk poolBlk = true ∧ blkPool poolBlk = true ∧ tabSt.has .search = true ∧
    (tabSt.poolStart 0x2000).poolOf 0x2000 = some (0x1900, 4) ∧ ((tabSt.pokeNat 0x2060 8 0).poolStart 0x2000).poolOf 0x2000 = none ∧
    ({ tabSt with preg := { tabSt.preg with featack := some 0xF7 } } : State).has .search = false := by
  refine ⟨?_, ?_, ?_, ?_, ?_, ?_⟩ <;> decide +kernel

/-- R33: a SIGNAL stores its value and ends DONE. -/
theorem test_signal : ∃ t, exec .signal (cSt (cmdW (.queue 0 0 1) (recW 6 0x1800 5))) = .next t ∧
    t.nat 0x1800 8 = 5 ∧ t.cmds = [] := ⟨_, rfl, by decide +kernel⟩

/-- R33: a WAIT whose word has not reached its value goes on waiting. -/
theorem test_wait : ∃ t, exec .wait (cSt (cmdW (.queue 0 0 1) (recW 7 0x1C00 5))) = .next t ∧ (t.cmds.map (·.phase)) = [.active] :=
  ⟨_, rfl, by decide +kernel⟩

end Sys2Proof.Tests
end

