-- ==== Sys2Proof/Tests/Life.lean ====
section
/-! SUPPORT. Tests of placement, of the ends of steps and of parking: a witness for the hypotheses of each statement about
them. -/

namespace Sys2Proof.Tests

set_option Elab.async false

open Sys2Proof Sys2Proof.Machine

/-- Two regions of one context with budgets: 0x2000 of PRIO 0 with a frame area at fb, and 0x2400 of PRIO 5. Addresses from
2 MiB on lie in the I/O die's space. -/
def lifeMem (fb lg : Nat) : List Host.Cell := memD [(0x2000, 3), (0x2008, 0x3000), (0x2078, fb + 4 * 2 ^ 48 + lg * 2 ^ 58), (0x2400, 3),
  (0x2408, 0x3000), (0x2410, 0x20), (0x2418, 5 * 2 ^ 24), (0x2460, 0x1900), (0x3000, 2 + 2 ^ 16), (0x3018, 4096 + 32 * 2 ^ 16),
  (0x3020, 0x80_0000 + 1000 * 2 ^ 32), (0x3040, 0x1_0000), (0x1_0000, 0x1_1001), (0x1_1000, 0x1_2001), (0x1_2000, 0xC1F),
  (0x1_2008, ioBase + 0xC1F)]

/-- A RUN command of region 0x2400 whose node has a step to place. -/
def runC (b : BitVec 4096) : Cmd := { cmd0 with rcb := 0x2400, run := some (.start b none) }

/-- No step is placed, and that command waits. -/
def placeSt (b : BitVec 4096) : State := { tabSt with mem := lifeMem 0 0, harts := [], cmds := [runC b] }

/-- The same with a parked step of the node, and with a task record in shard 0. -/
def parkedSt : State :=
  let v : Hart := { Hart.free with id := { Hart.free.id with node := 1 } }
  { placeSt (blk 1) with parked := [⟨0, 0x2400, [], [v], true, 1, 0⟩] }
def taskSt : State := { placeSt (blk 1 ||| 1) with shards := [(shardKey 0x2400 0, { Shard.zero with entries := [bestE] })] }

/-- The first waiting step has a place: 1 a new LOOP step, 2 a new POOL step whose shard gives a record, 3 a parked step. -/
def placeNo (s : State) : Nat :=
  let u := s.unfitPairs.reserve
  match u.cands with
  | [] => 0
  | c :: _ => match u.spots c with
    | [] => 0
    | sp :: _ => match c.parked with
      | some _ => 3
      | none => if blkPool c.run.blk then
          (if (u.dequeue c.cmd ((sp.headD (0, 0)).1 / 64) ((sp.headD (0, 0)).1 / 8) 2).1.isSome then 2 else 0) else 1

/-- One bay is enabled, and hart 0 of it holds a step of region 0x2000. -/
def fullSt : State := { placeSt (blk 1) with mem := lifeMem 0x10_0000 17, harts := tabSt.harts, record := { Record.full9 with bayen := 1 } }

/-- The waiting step of runC. -/
def cand1 : Cand := ⟨runC (blk 1), .start (blk 1) none, none, [10, 2 ^ 64, 0, 1, 0, 0, 0, 0]⟩

theorem witness_StepPlacement : State.reset.preg.featack = none ∧ (placeSt (blk 1)).preg.featack ≠ none ∧
    placeNo (placeSt (blk 1)) = 1 ∧ placeNo taskSt = 2 ∧ placeNo parkedSt = 3 ∧
    (cand1.run.splice = none ∧ blkTruss cand1.run.blk = false ∧ 4 ≤ cand1.run.needs.lanes) ∧
    (placeSt (blk 1)).cands = [cand1] ∧ ((placeSt (blk 1)).spots cand1).head? = some [(0, 0)] ∧
    (0x2400 ∈ (placeSt (blk 1)).regions ∧ 0x2000 ∈ fullSt.regions ∧ 0x3000 ∉ fullSt.regions) ∧
    (fullSt.reserve.resvVictim.isNone = true ∧ fullSt.reserve.cands = [] ++ cand1 :: [] ∧ fullSt.reserve.victimFor cand1 = some 0) ∧
    (placeSt (blk 1)).reserve.victimFor cand1 = none ∧ ({ fullSt with bayResv := some (0, 1) } : State).resvVictim = some (0, cand1) := by
  refine ⟨rfl, ?_, ?_, ?_, ?_, ?_, ?_, ?_, ?_, ?_, ?_, ?_⟩ <;> decide +kernel

/-- The waiting step has no place, and its region has PRIO 15. -/
def topSt : State := { fullSt with mem := memWrite fullSt.mem 0x241B [15] }

theorem witness_StepPlacement_reserve : (topSt.reserve.bayResv = some (0, 1) ∧ topSt.bayResv ≠ some (0, 1)) ∧
    ({ placeSt (blk 1) with bayResv := some (0, 1), trussResv := some (0, 1) } : State).stepLeft 1 = true ∧
    (0x2400 ∈ (placeSt (blk 1)).regions ∧ (∃ c ∈ (placeSt (blk 1)).cands, c.cmd.rcb = 0x2400) ∧
      ∀ c ∈ (placeSt (blk 1)).cands, c.cmd.rcb ≠ 0x2000) := by
  refine ⟨?_, ?_, ?_⟩ <;> decide +kernel

/-- Hart 0's streams have executed STEPEND. -/
def overSt (f : Hart → Hart) : State := ({ aSt [] with ev := .zero } : State).modHart 0 fun v =>
  f { v with a := { v.a with ended := true }, e := { v.e with ended := true } }

/-- A splice of two nodes of one step. -/
def splice0 : Splice := { pcmd := 2, pblk := blk 1, popba := 0x5000, pkern := 0, tid := 5, td := tdMk 4 0 0x1_8000 3 2, zbytes := 4096,
                          pdone := [], cdone := [], charged := none }
def spliceSt : State := { overSt fun v => { v with id := { v.id with spliced := true, node := 1 } } with
  cmds := [{ cmd0 with run := some (.start (blk 0) (some splice0)) }] }

/-- The waits of hart 0's streams. -/
def waitSt (s : State) (a e : Wait) : State := ({ s with ev := .zero } : State).modHart 0 fun v =>
  { v with a := { v.a with wait := a }, e := { v.e with wait := e } }

/-- Every condition of STEP_RETIRE and SPLICE_BOUNDARY on hart 0 but its first body. -/
def allOver (s : State) : Bool := s.stepActive 0 && (s.stepHarts 0).all fun g => (s.hart g).a.ended && (s.hart g).e.ended &&
  (s.hart g).r.slots.all fun p => p.2.state != .active

theorem witness_StepEnds : (allOver (overSt id) = true ∧ allOver spliceSt = true ∧ allOver (aSt []) = false) ∧
    (((overSt id).hart 0).id.spliced = false ∧ (overSt id).oldestFail 0 = none ∧
      (overSt fun v => { v with r := { v.r with pendFail := [(1, (0x100, 0x1000))] } }).oldestFail 0 = some (0, 1, 0x100, 0x1000)) ∧
    ((spliceSt.hart 0).id.spliced = true ∧ (spliceSt.hart 0).r.bodyC = false ∧
      spliceSt.cmd? 1 = some { cmd0 with run := some (.start (blk 0) (some splice0)) } ∧ spliceSt.oldestFail 0 = none ∧
      (spliceSt.modR 0 fun r => { r with pendFail := [(1, (0x100, 0x1000))] }).oldestFail 0 = some (0, 1, 0x100, 0x1000)) ∧
    (let s : State := { ({ aSt [] with ev := .zero } : State).modHart 0 fun v => { v with id := { v.id with steplim := 1 } } with cycle := 1301 }
     s.stepActive 0 = true ∧ (s.hart 0).id.steplim ≠ 0 ∧
       (s.hart 0).id.steplim * 1300 < (s.hart 0).r.placedBefore + (s.cycle - (s.hart 0).r.placedAt)) ∧
    ((waitSt (aSt []) (.queue [0] []) (.queue [3] [])).stepActive 0 = true ∧ State.reset.stepActive 0 = false ∧
      (waitSt (aSt []) (.queue [0] []) (.queue [3] [])).deadlocked 0 = true ∧
      ((waitSt (aSt []) (.queue [0] []) (.queue [3] [])).hart 0).a.wait = .queue [0] [] ∧
      (waitSt (aSt []) .none .none).deadlocked 0 = false ∧
      (((waitSt (aSt []) .none (.queue [3] [])).modR 0 fun r => { r with ae := [(3, [.full 0])] }).aeOf 0 3) ≠ []) ∧
    (let s := (waitSt tSt .none (.mrowt 16 8)).modE 8 fun e => { e with ended := true }
     s.deadlocked 0 = false ∧ s.stepActive 0 = true ∧ s.trussDeadE 0 = true) ∧
    (let s := (waitSt tSt .tbar .none).modA 8 fun a => { a with ended := true }
     s.deadlocked 0 = false ∧ s.stepActive 0 = true ∧ s.trussDeadE 0 = false ∧ s.trussDeadA 0 = true) ∧
    (((aSt []).modR 0 fun r => { r with pend := some ⟨3, .uncorr, 0, 2⟩ }).hart 0).r.pend = some ⟨3, .uncorr, 0, 2⟩ := by
  refine ⟨?_, ?_, ?_, ?_, ?_, ?_, ?_, ?_⟩ <;> decide +kernel

/-- A step on 4 lanes with 8 registers that is asked to leave; the region's frame area stands at fb. -/
def leaveSt (fb : Nat) (r : ParkReq) : State := ({ tabSt with mem := lifeMem fb 15, ev := .zero } : State).modHart 0 fun v =>
  { v with id := { v.id with lanes := 4, rsize := 1, rbase := 0x8000 }, r := { v.r with pend := some r } }

/-- The same with its frame slots, but not their bitmap, at a package of the pod that no path leads to: what is written there is lost. -/
def lostFrameSt (r : ParkReq) : State :=
  let s := leaveSt 0x1F_F000 r
  let t := (s.pokeNat (ioBase + 0xB008) 8 0x100).pokeNat 0x1_2008 8 (2 ^ 52 + 0xD1F)
  { t with mg := { t.mg with pod := 3, cut := 2 } }

/-- A pre-emption, a page fault and a fault under PARK-ONLY. -/
def preR : ParkReq := ⟨1, .none, 0, 0⟩
def pageR : ParkReq := ⟨0, .pfault, 0x1000, 0⟩
def onlyR : ParkReq := ⟨0, .illop, 0, 2⟩

/-- The reads of a resumption: the sections, section k, the matrix section and the registers. -/
def secsOf (s : State) (v : Hart) : Except Cause (List (List Byte)) × State :=
  s.readSecs v.ctx.ptbase (s.frameSlot v.ctx.rcb 0) ((List.range 14).map fun k => (secOff v.vb k, (secSizes v.vb).getD k 0))
def secAt (s : State) (v : Hart) (k : Nat) : List Byte := ((secsOf s v).1.toOption.getD []).getD k []
def secM (s : State) (v : Hart) : Except (Cause × Nat) (List Byte) × State :=
  (secsOf s v).2.ctlRead v.ctx.ptbase (s.frameSlot v.ctx.rcb 0 + secOff v.vb 14) 4160

theorem isOk_cases {ε α σ : Type} {x : Except ε α × σ} (h : x.1.isOk = true) : ∃ a u, x = (.ok a, u) := by
  rcases x with ⟨_ | a, u⟩
  · cases h
  · exact ⟨a, u, rfl⟩

/-- A hart comes back from a frame without granules that can be read, where its registers can be read too. -/
theorem resume_none {s : State} {v : Hart} {h off : Nat} (h1 : (secsOf s v).1.isOk = true)
    (h2 : bitList 2048 (ofBytes (secAt s v 13)) = []) (h3 : (secM s v).1.isOk = true)
    (h4 : ((secM s v).2.ctlRead v.ctx.ptbase (natAt (secAt s v 0) 0x48 6) (v.vb * v.id.rsize)).1.isOk = true) :
    ∃ u, s.resumeHart v h off 0 = (none, u) := by
  obtain ⟨secs, s1, a⟩ := isOk_cases h1
  obtain ⟨sc, s2, b⟩ := isOk_cases h3
  obtain ⟨bs, s3, c⟩ := isOk_cases h4
  simp only [secM, secAt, a, Except.toOption, Option.getD_some] at h2 b c
  rw [b] at c
  dsimp only at c
  unfold State.resumeHart
  rw [secsOf] at a
  simp only [a, h2, List.length_nil, Nat.mul_zero, Nat.add_zero, b, State.reloadRegs]
  simp only [Hart.vb] at c ⊢
  simp only [c]
  exact ⟨_, rfl⟩

def frameSt : State := leaveSt 0x10_0000 preR

theorem witness_StepParks_resume : ∃ u, frameSt.resumeHart (frameSt.hart 0) 8 0 0 = (none, u) :=
  resume_none (by decide +kernel) (by decide +kernel) (by decide +kernel) (by decide +kernel)

/-- A step with its REMQs and transfers done. -/
def drained (s : State) : State := ((s.stepHarts 0).foldl State.drainHart s).frameSeen 0

theorem witness_StepParks_slots : (drained (lostFrameSt preR)).parkSlots 0 = some [0] := by decide +kernel

theorem witness_StepParks_written :
    ((drained (lostFrameSt preR)).writeFrames preR (((drained (lostFrameSt preR)).stepHarts 0).zip [0])).1 = none := by decide +kernel

theorem witness_StepParks_unwritten : ((drained (leaveSt 0x40_0000 preR)).writeFrames preR [(0, 0)]).1 = some .pfault := by decide +kernel

theorem witness_StepParks_full : ({ drained (leaveSt 0x20_0000 preR) with mem := lifeMem 0x20_0000 12 } : State).parkSlots 0 = none := by
  decide +kernel

theorem witness_StepParks : (((leaveSt 0x20_0000 preR).hart 0).r.pend = some preR ∧ ((leaveSt 0x20_0000 preR).hart 0).occ = true ∧
      ((leaveSt 0x20_0000 preR).hart 0).a.remq = none ∧ ((leaveSt 0x20_0000 preR).hart 0).r.slots = [] ∧ pageR.reason = 0 ∧
      pageR.cause = .pfault ∧ onlyR.cause ≠ .pfault) ∧
    (((leaveSt 0 preR).modA 0 fun a => { a with remq := some (1, none) }).hart 0).a.remq ≠ none ∧
    (((leaveSt 0 preR).modE 0 fun e => { e with bad := [2] }).hart 0).e.bad ≠ [] ∧ ((leaveSt 0 preR).hart 0).e.bad = [] ∧
    (List.replicate 8 (0 : W64)).length = 8 := by
  refine ⟨?_, ?_, ?_, ?_, rfl⟩ <;> decide +kernel

end Sys2Proof.Tests
end

