-- ==== Sys2Proof/Tests/Outside.lean ====
section
/-! SUPPORT. Tests of the events from outside: a witness for the hypotheses of each statement about power, boot, the host
port, links, the pin and the debugger. -/

namespace Sys2Proof.Tests

set_option Elab.async false

open Sys2Proof Sys2Proof.Machine

/-- An event with these arguments happens to the tables of tabSt, in a machine whose pod is not formed. -/
def evSt (a : EvArg) : State := { tabSt with ev := a }
def ev (n n1 n2 n3 : Nat) (w : W64) (bs : List Byte) : EvArg := { EvArg.zero with n := n, n1 := n1, n2 := n2, n3 := n3, w := w, bs := bs }

/-- Reset with this management state. -/
def mgSt (f : Mgmt → Mgmt) (a : EvArg) : State := { State.reset with mg := f State.reset.mg, ev := a }

/-- The fields of an image header that loads one byte at 0x10_0000 (R411): 64 bytes, then a digest, in 0x160 bytes. -/
def head1 : List Byte :=
  toBytes 4 0x5346_574D ++ toBytes 2 1 ++ toBytes 2 0 ++ toBytes 4 3 ++ toBytes 4 0 ++ toBytes 4 1 ++ toBytes 4 0 ++ toBytes 8 0x10_0000
  ++ toBytes 8 0x10_0000 ++ List.replicate 24 0
def hdr1 (digest : List Byte) : List Byte := head1 ++ (digest ++ List.replicate 240 0)

theorem head1_length : head1.length = 64 := by decide +kernel

theorem hdr1_nat (d : List Byte) (off n : Nat) (h : off + n ≤ 64) : hdrNat (hdr1 d) off n = hdrNat head1 off n := by
  have := head1_length
  rw [hdrNat, hdr1, List.drop_append_of_le_length (by omega), List.take_append_of_le_length (by simp; omega), hdrNat]

theorem hdr1_ok (d : List Byte) (hd : d.length = 48) : hdrOk (hdr1 d) = true := by
  have h : (hdr1 d).length = 0x160 := by rw [hdr1, List.length_append, List.length_append, List.length_replicate, head1_length, hd]
  have n : ∀ off, off ≤ 58 → ∀ n, n ≤ 6 → hdrNat (hdr1 d) off n = hdrNat head1 off n := fun off _ n _ => hdr1_nat d off n (by omega)
  simp (disch := decide) only [hdrOk, hdrLoad, hdrEntry, hdrLength, h, n]
  decide +kernel

/-- A boot succeeds where the signatures verify and the image holds its body's digest: the key they verify against is a free value. -/
theorem boot_ok (d body : List Byte) (hb : body.length = 1) (hd : d.length = 48) (h1 : signatureOk Record.full9.bytes Record.full9.sig = true)
    (h2 : sha384 body = d) (h3 : signatureOk ((hdr1 d).take 0x100) ((hdr1 d).drop 0x100) = true) (stage : Nat) :
    bootFail Record.full9 0 stage 0 (hdr1 d) body = none := by
  have r : Record.full9.ok = true := by decide +kernel
  have a : Record.full9.accepted = true := by rw [Record.accepted, h1, r]; rfl
  have l : hdrLength (hdr1 d) = 1 := (hdr1_nat d _ _ (by decide)).trans (by decide +kernel)
  have v : hdrNat (hdr1 d) 8 4 = 3 := (hdr1_nat d _ _ (by decide)).trans (by decide +kernel)
  have e : ((hdr1 d).drop 0x40).take 48 = d := by
    have := head1_length
    rw [hdr1, List.drop_append_of_le_length (by omega), List.drop_of_length_le (by omega), List.nil_append,
      List.take_append_of_le_length (by omega), List.take_of_length_le (by omega)]
  simp [bootFail, a, hdr1_ok d hd, h3, h2, hb, l, v, e]

/-- SHA-384 of "abc", the example of FIPS 180-4. -/
theorem test_sha384 : ofBytesBE (sha384 [0x61, 0x62, 0x63]) =
    0xCB00753F45A35E8B_B5A03D699AC65007_272C32AB0EDED163_1A8B605A43FF5BED_8086072BA1E7CC23_58BAECA134C825A7 := by decide +kernel

/-- The base point of R411's curve lies on it. -/
theorem test_curve : ecGy * ecGy % ecP = (ecGx * ecGx * ecGx + ecA * ecGx + ecB) % ecP := by decide +kernel

theorem witness_PowerAndBoot :
    (let ok := fun (s : State) => decide (46000 ≤ s.ev.n) && decide (s.ev.n ≤ 58000)
     ok (mgSt id (ev 45999 0 0 0 0 [])) = false ∧ ok (mgSt id (ev 46000 0 0 0 0 [])) = true ∧ ok (mgSt id (ev 58000 0 0 0 0 [])) = true ∧
       ok (mgSt id (ev 58001 0 0 0 0 [])) = false ∧ (mgSt id (ev 0 0 0 0 0 [])).mg.inRange = true ∧
       (mgSt (fun g => { g with inRange := false }) (ev 46000 0 0 0 0 [])).mg.inRange = false) ∧
    (let s := fun (c : Nat) => ({ mgSt (fun g => { g with power := .reset (some 5) }) (ev 0 0 0 0 0 []) with cycle := c } : State)
     (s 0).mg.power = .reset (some 5) ∧ 5 + 13000000 ≤ (s 13000005).cycle ∧ (s 13000004).cycle < 5 + 13000000 ∧
       115000 < (ev 115001 0 0 0 0 []).n ∧ (ev 115000 0 0 0 0 []).n ≤ 115000 ∧ (mgSt id (ev 0 0 0 0 1 [])).ev.w.getLsbD 0 = true) ∧
    (let hi := fun (s : State) => decide (27000000 < ((s.ev.n :: s.mg.samples).take 10).foldl (· + ·) 0)
     hi (mgSt (fun g => { g with samples := List.replicate 9 2700000 }) (ev 2700000 0 0 0 0 [])) = false ∧
       hi (mgSt (fun g => { g with samples := List.replicate 9 2700000 }) (ev 2700001 100000 0 0 0 [])) = true ∧
       (mgSt id (ev 0 0 0 0 0 [])).mg.throttled = false ∧ (mgSt (fun g => { g with throttled := true }) (ev 0 0 0 0 0 [])).mg.throttled = true) ∧
    ((State.reset.mg.power = .on ∧ State.reset.mg.bootstat.toNat % 256 = 0) ∧ (0x501 : W64).toNat % 256 ≠ 0 ∧
      bootFail { Record.full9 with part := 7 } 0 0 0 [] [] = some (2, 2)) ∧
    ((1 : W64).getLsbD 0 = true ∧ ({ Plate.zero with run := .halted } : Plate).run = .halted) ∧
    (let m := fun (o : Nat) => ev o 0 0 0 0 [1]
     (m 0x17).n + (m 0x17).bs.length ≤ 0x18 ∧ 0x18 < (m 0xFFF).n + (m 0xFFF).bs.length ∧ (m 0xFFF).n < 0x1000 ∧ 0x10000 < (m 0x10000).n + (m 0x10000).bs.length ∧ 0x1000 ≤ (m 0xFFFF).n ∧
       (m 0xFFFF).n + (m 0xFFFF).bs.length ≤ 0x10000) := by
  refine ⟨?_, ?_, ?_, ?_, ?_, ?_⟩ <;> decide +kernel

/-- VF 0's aperture is open to context 1, whose pages up to 2 MiB are mapped. -/
def apSt (a : EvArg) : State := { tabSt.pokeNat (ioBase + 0xA000) 8 (2 ^ 12 + 1) with ev := a }

/-- Link k is up to package 5, and link j to package p. -/
def linkSt (k j p : Nat) : State :=
  { (State.reset.pokeNat (linkAddr k) 8 (2 + 5 * 256)).pokeNat (linkAddr j) 8 (2 + p * 256) with ev := ev k 5 2 0 0 [] }

/-- Package 5 of the pod, to which a transfer of slot 3 and a record are on their way. -/
def lostSt : State :=
  let s : State := { aSt [] with rq := [⟨1, .enqueue none, Hart.free.ctx, 5 * 2 ^ 56, 0, false, 0, 0⟩] }
  s.modR 0 fun r => { r with slots := [(3, { Xfer.zero with state := .active, flight := [⟨0, [(remoteKey 5 0x1000, 7)], 1, 0⟩] })] }

theorem witness_OutsideEvents_lost : (lostSt.occ 0 = true ∧ (lostSt.slot 0 3).state = .active ∧
      ((lostSt.slot 0 3).flight.any fun f => f.writes.any fun c => isRemote c.1 && (c.1 - 2 ^ 58) / 2 ^ 52 == 5) = true ∧
      (lostSt.rq.any fun q => hdlPkg q.handle == 5) = true) ∧
    (({ State.reset with mg := { State.reset.mg with cut := 32 } } : State).cutKey (remoteKey 5 0x1000) = true ∧
      State.reset.cutKey (remoteKey 5 0x1000) = false) ∧
    (readBad { evSt .zero with bad := [0x1000] } 0x1000 8 = true ∧ isIo 0x1000 = false ∧ (evSt .zero).cutKey 0x1000 = false) ∧
    (PlateRegs.zero.sdtbase = 0 ∧ (State.reset.linkState 0 = 0 ∧ State.reset.record.links.getLsbD 0 = true)) := by
  refine ⟨?_, ?_, ?_, ?_⟩ <;> decide +kernel

theorem witness_OutsideEvents :
    (isHbm (evSt .zero) 0x1000 = true ∧ isHbm (evSt .zero) 0x1007 = true ∧ readBad (evSt .zero) 0x1000 8 = false ∧
      writeBad (evSt .zero) 0x1000 1 = false ∧ isHbm (evSt .zero) ioBase = false ∧ (ev 0x1000 4 8 0 0 []).n % 8 = 0) ∧
    ((apSt .zero).aperture 1 = none ∧ (apSt .zero).aperture 0 = some 0x1_0000 ∧
      ((pagesOf 0x1000 4).all fun p => (apSt .zero).apertureOk 0x1_0000 .atomic p.1) = true ∧
      ((pagesOf 0x20_0000 4).all fun p => (apSt .zero).apertureOk 0x1_0000 .read p.1) = false ∧
      ((apSt .zero).xlatPieces 0x1_0000 false .read (pagesOf 0x1000 4)).1.isOk = true) ∧
    (tget (mgSt (fun g => { g with flr := [(7, 5)] }) .zero).mg.flr 7 = some 5 ∧ 5 + 130000000 ≤ 130000005 ∧ tget State.reset.mg.flr 7 = none) ∧
    (State.reset.formed = false ∧ ((State.reset.pokeNat (ioBase + 0xB008) 8 (5 + 256)).formed) = true ∧
      (15 < 16 ∧ State.reset.record.links.getLsbD 15 = true) ∧ ¬ (16 < 16 ∧ State.reset.record.links.getLsbD 16 = true)) ∧
    ((linkSt 0 15 6).linkState 0 = 2 ∧ (linkSt 0 15 6).linkPkg 0 = 5 ∧ (linkSt 0 15 6).linkState 15 = 2 ∧ (linkSt 0 15 6).linkPkg 15 = 6 ∧
      (linkSt 0 15 5).linkPkg 15 = (linkSt 0 15 5).linkPkg 0 ∧ State.reset.linkState 3 = 0) ∧
    (State.reset.preg.pinen = false ∧
      (({ State.reset with preg := { PlateRegs.zero with pinen := true } } : State).preg.pinen = true ∧ PlateRegs.zero.armed = false) ∧
      ({ PlateRegs.zero with pinen := true, armed := true } : PlateRegs).armed = true) ∧
    17 / 8 ∈ (mgSt (fun g => { g with debugHalt := [2] }) .zero).mg.debugHalt := by
  refine ⟨?_, ?_, ?_, ?_, ?_, ?_, ?_⟩ <;> decide +kernel

/-- A page table with a table for the pages from 0x20_0000, where the SDT lies. -/
def sdtSt : State :=
  { tabSt.pokeNat 0x1_2008 8 0x1_3001 with preg := { tabSt.preg with sdtbase := 0x20_0000 }, mg := { tabSt.mg with bootstat := 0x501 } }

/-- An aperture whose root cannot be read, a table to build and to map, and a link that is only training. -/
theorem witness_OutsideEvents_tables :
    (let s : State := { apSt .zero with bad := [0x1_0000] }
     s.aperture 0 = some 0x1_0000 ∧ s.walk 0x1_0000 0x1000 = .uncorr ∧ s.apertureOk 0x1_0000 .read 0x1000 = false) ∧
    (sdtSt.preg.sdtbase ≠ 0 ∧ isHbm sdtSt 0x3000 = true ∧ sdtSt.rcbLevel 0x3000 = 2 ∧
      (let x := sdtSt.xlatPlate 0 .read 0x20_0000
       x.1.toOption.map (·.key) = some 0x20_0000 ∧ isHbm x.2 0x20_0000 = true ∧
         x.2.slotFrom 0x20_0000 4 (x.2.ctxOf 0x3000).ptbase = some 0x1_3000)) ∧
    (let s : State := { sdtSt with harts := [] }
     s.placed = [] ∧ s.parked = [] ∧ s.cmds = [] ∧ s.mg.bootstat = 0x501 ∧
       (s.xlatPlate 0 .write 0x20_0000).1.toOption.map (·.key) = some 0x20_0000 ∧ (s.xlatPlate 0 .write 0x20_0000).2.Storable 0x20_0000 256) ∧
    (State.reset.linkTrain 0).linkState 0 = 1 := by
  refine ⟨?_, ?_, ?_, ?_⟩ <;> decide +kernel

end Sys2Proof.Tests
end

