-- ==== Sys2Proof/Tests/Plate.lean ====
section
/-! SUPPORT. Tests of the tensor descriptors and of the plate instructions: a witness for the hypotheses of each statement
about them. -/

namespace Sys2Proof.Tests

set_option Elab.async false

open Sys2Proof Sys2Proof.Machine

/-- A step of a spliced pair whose tensor 5 is redirected. -/
def redirSt (xs : List W64) : State := (aSt xs).modR 0 fun r => { r with redirect := some (5, 0, 64, tdRing 0) }
where tdRing (rdonly : Nat) : BitVec 1024 := tdMk 4 rdonly 0x1_8000 3 2

theorem witness_TensorDescriptors :
    ((aSt [0x1020]).cur = .aStream 0 ∧ (aSt [0x1020]).Ready (.tdset 5 9) [9] [] ∧ ((aSt [0x1020]).src [9] 0).toNat % 64 ≠ 0) ∧
    ((redirSt [0x1800]).Ready (.tdset 5 9) [9] [] ∧ ((redirSt [0x1800]).aLoads (.aStream 0) 0x1800 16).1.isOk = true ∧
      ((redirSt [0x1800]).aLoads (.aStream 0) 0x1800 16).2.redirected 0 5 = true) ∧
    (let x := (aSt [0x1800]).aLoads (.aStream 0) 0x1800 16
     let y := x.2.ctlRead ((aSt []).hart 0).ctx.ptbase (((aSt []).hart 0).ctx.tdtbase + 128 * 5) 128
     x.1.isOk = true ∧ x.2.redirected 0 5 = false ∧ y.1.isOk = true ∧
       (y.2.ctlWrite ((aSt []).hart 0).ctx.ptbase (((aSt []).hart 0).ctx.tdtbase + 128 * 5) (toBytes 128 1)).1.isOk = true) ∧
    ((aSt [3]).Ready (.tdget 8 5 9) [9] [8] ∧ (aSt [3]).Ready (.tdchk 8 5) [] [8] ∧
      (tdSt (tdMk 4 0 0 3 2) (aSt [3])).tdCached 0 5 = some (tdMk 4 0 0 3 2) ∧ (aSt [3]).tdCached 0 5 = none ∧
      (aSt [3]).redirected 0 5 = false ∧ ((redirSt [3]).hart 0).r.redirect = some (5, 0, 64, tdMk 4 0 0x1_8000 3 2) ∧
      ((aSt [3]).ctlRead ((aSt []).hart 0).ctx.ptbase (((aSt []).hart 0).ctx.tdtbase + 128 * 5) 128).1.isOk = true) ∧
    (aSt []).Ready (.tdsync 5 6) [] [] := by
  refine ⟨⟨?_, ⟨?_, ?_⟩, ?_⟩, ⟨⟨?_, ?_⟩, ?_, ?_⟩, ?_, ⟨⟨?_, ?_⟩, ⟨?_, ?_⟩, ?_, ?_, ?_, ?_, ?_⟩, ⟨?_, ?_⟩⟩ <;> decide +kernel

/-- The E-stream of the hart stands inside VLT o8, t5, o0, m0. -/
def inTile : State := (aSt [0x1800]).modE 0 fun e => { e with prog := some ⟨4, 6, 0, 0, 0xAC90_5100, 0⟩ }

theorem witness_TensorDescriptors_used : decode 0xAC90_5100 = .instr (.vlt 18 5 8 0) ∧ tileUse 0xAC90_5100 = some 5 ∧
    inTile.Ready (.tdset 5 9) [9] [] ∧ inTile.Ready (.tdsync 5 0) [] [] ∧ inTile.redirected 0 5 = false ∧ 0 ∈ inTile.placed ∧
    (inTile.hart 0).e.prog.map (fun p => tileUse p.word) = some (some 5) ∧ ∀ g ∈ (aSt []).placed, ((aSt []).hart g).e.prog = none := by
  refine ⟨?_, ?_, ⟨?_, ?_⟩, ⟨?_, ?_⟩, ?_, ?_, ?_, ?_⟩ <;> decide +kernel

/-- Plate core 0 beside the tables of poolSt. -/
def plSt (xs : List W64) : State :=
  [(0x2000, 3), (0x2008, 0x3000), (0x2058, 0x2800), (0x3000, 2 + 2 ^ 16), (0x3040, 0x1_0000), (0x3048, 0x1_C000), (0x2800, 0x4000 + 4 * 2 ^ 60),
    (0x2808, 0x2000), (0x1_0000, 0x1_1001), (0x1_1000, 0x1_2001), (0x1_2000, 0xC1F)].foldl (fun s p => s.pokeNat p.1 8 p.2) (pSt xs)

/-- A slot in this state, bound to queue 0 of the region. -/
def slotQ (st : SlotState) : State := { plSt [5] with qslots := [(5, ⟨st, 0x2000, 0, 0x2800⟩)] }

theorem witness_QueueSlots :
    ((plSt [0x2800, 5]).Ready (.qmap 8 9 10) [9, 10] [8] ∧ ((plSt [0x2808, 5]).src [9, 10] 0).toNat % 64 ≠ 0) ∧
    (let x := (plSt [0x2800, 5]).aLoads (.plate 0) 0x2800 8
     let ds := x.1.toOption.getD []
     x.1.isOk = true ∧ (x.2.qslot 5).state = .free ∧ (ds.getD 2 0).getLsbD 8 = false ∧ (ds.getD 1 0).toNat % 2 ^ 48 = 0x2000 ∧
       (qcbRing (ds.getD 0 0).toNat).isSome = true ∧ isHbm x.2 0x2000 = true ∧ x.2.rcbLevel 0x2000 = 3 ∧
       x.2.rcbFld 0x2000 0x58 6 42 * 64 = 0x2800) ∧
    ((slotQ .stopped).aLoads (.plate 0) 0x2800 8).2.qslot 5 = ⟨.stopped, 0x2000, 0, 0x2800⟩ ∧
    ((((plSt [0x2800, 5]).pokeNat 0x2810 8 256).aLoads (.plate 0) 0x2800 8).1.toOption.getD []).getD 2 0 = 256 ∧
    qcbRing ((((plSt [0x2840, 5]).aLoads (.plate 0) 0x2840 8).1.toOption.getD []).getD 0 0).toNat = none ∧
    ((slotQ .stopped).Ready (.qload 8 9) [9] [8] ∧ (slotQ .running).Ready (.qsave 8 9) [9] [8] ∧
      (slotQ .stopped).Ready (.qunmap 8 9) [9] [8] ∧ ((slotQ .running).qslot (((slotQ .running).src [9] 0).toNat % 256)).state = .running ∧
      ((slotQ .stopped).qslot 5).state = .stopped) := by
  refine ⟨⟨⟨?_, ?_⟩, ?_⟩, ?_, ?_, ?_, ?_, ⟨?_, ?_⟩, ⟨?_, ?_⟩, ⟨?_, ?_⟩, ?_, ?_⟩ <;> decide +kernel

/-- R341: QLOAD of a RUNNING slot answers STATE. -/
theorem test_qload : ∃ t, exec (.qload 8 9) (slotQ .running) = .next t ∧ t.regOf (.plate 0) 8 = 4 := ⟨_, rfl, by decide +kernel⟩

theorem witness_RegionInstructions :
    ((plSt [0x2008, 0]).Ready (.kickclr 9 10) [9, 10] [] ∧ ((plSt [0x2008, 0]).src [9, 10] 0).toNat % 2 ^ 48 % 64 ≠ 0) ∧
    (isHbm (plSt [0x2000, 1]) 0x2000 = true ∧ readBad (plSt [0x2000, 1]) (0x2000 + 0x80) 8 = false) ∧
    ((plSt [0x2000, 1]).Ready (.vttset 8 9 10) [9, 10] [8] ∧ (plSt []).rcbLevel 0x2000 ≠ 2 ∧ (plSt []).rcbLevel 0x3000 = 2 ∧
      isIo ((plSt []).rcbFld 0x3000 0x48 14 38 * 16384 + 8 * 5) = false ∧
      writeBad (plSt []) ((plSt []).rcbFld 0x3000 0x48 14 38 * 16384 + 8 * 5) 8 = false) ∧
    ((plSt [0x2000]).Ready (.preset 8 9) [9] [8] ∧ isHbm (plSt []) 0x4000 = true ∧ (plSt []).rcbLevel 0x4000 = 0 ∧
      (plSt []).rcbLevel 0x2000 ≠ 0) := by
  refine ⟨⟨⟨?_, ?_⟩, ?_⟩, ?_, ⟨⟨?_, ?_⟩, ?_, ?_, ?_, ?_⟩, ⟨?_, ?_⟩, ?_, ?_, ?_⟩ <;> decide +kernel

/-- A region's control block that cannot be read, where QMAP, VTTSET and PRESET look at it. -/
theorem witness_RegionInstructions_uncorr :
    (let s : State := { plSt [0x2800, 5] with bad := [0x2000] }
     let x := s.aLoads (.plate 0) 0x2800 8
     s.Ready (.qmap 8 9 10) [9, 10] [8] ∧ x.1.isOk = true ∧ (x.2.qslot 5).state = .free ∧ isHbm x.2 0x2000 = true ∧ x.2.rcbBad 0x2000 = true) ∧
    (let s : State := { plSt [0x3000, 1] with bad := [0x3000] }
     s.Ready (.vttset 8 9 10) [9, 10] [8] ∧ s.Ready (.preset 8 9) [9] [8] ∧ isHbm s 0x3000 = true ∧ s.rcbBad 0x3000 = true ∧
       (plSt []).rcbBad 0x3000 = false) := by
  refine ⟨⟨⟨?_, ?_⟩, ?_, ?_, ?_, ?_⟩, ⟨?_, ?_⟩, ⟨?_, ?_⟩, ?_, ?_, ?_⟩ <;> decide +kernel

/-- Record k of queue 0's ring at 0x4000: a RUN of the block at a. -/
def runRec (k a st : Nat) : State := (tabSt.pokeNat (0x4000 + 64 * k) 8 (1 + st * 2 ^ 16)).pokeNat (0x4000 + 64 * k + 8) 8 a

/-- Hart 0 holds a step of the region. -/
def busySt : State := { plSt [] with harts := (aSt []).harts }

/-- What a reset finds below the region, and what its rewinding of a queue reads. -/
theorem witness_RegionInstructions_reset :
    (0 ∈ busySt.placed ∧ 0x2000 ∈ busySt.path (busySt.hart 0).ctx.rcb ∧ 0x2000 ∉ busySt.path 0x3000) ∧
    (let x := tabSt.ctlRead (tabSt.ctxOf 0x2000).ptbase (tabSt.qcbAt 0x2000 0) 64
     x.1.isOk = true ∧ qcbRing (ofBytes ((x.1.toOption.getD []).take 8)) = some (0x4000, 4) ∧
       (x.2.ctlRead (tabSt.ctxOf 0x2000).ptbase (ofBytes (((x.1.toOption.getD []).drop 0x28).take 8) % 2 ^ 48) 16).1.isOk = true) ∧
    (let w := fun (s : State) => (s.ctlRead (s.ctxOf 0x2000).ptbase (0x4000 + 64 * (0 % 2 ^ 4)) 64).1.toOption.map fun bs => ofBytes (bs.take 16)
     w tabSt = some 0 ∧ w (runRec 0 0x5000 0) = some (1 + 0x5000 * 2 ^ 64) ∧ w (runRec 0 0x5000 1) = some (1 + 2 ^ 16 + 0x5000 * 2 ^ 64)) ∧
    (let b := fun (s : State) => (s.ctlRead (s.ctxOf 0x2000).ptbase 0x5000 512).1.toOption.map fun bs => blkOnce (BitVec.ofNat 4096 (ofBytes bs))
     b (runRec 0 0x5000 0) = some false ∧ b ((runRec 0 0x5000 0).pokeNat 0x5008 8 (112 + 32 * 2 ^ 16 + 2 ^ 26 + 2 ^ 27)) = some true) := by
  refine ⟨?_, ?_, ?_, ?_⟩ <;> decide +kernel

/-- R342: only the bits of C are cleared. -/
theorem test_kickclr : ∃ t, exec (.kickclr 9 10) ((plSt [0x2000, 0xF0]).pokeNat 0x2080 8 0x3C) = .next t ∧ t.nat 0x2080 8 = 0x0C :=
  ⟨_, rfl, by decide +kernel⟩

/-- An invalidation of page 0x3000 of ASID 1 by core 0, of which cache 584 has still to acknowledge. -/
def invSt (pend : List Nat) : State := { plSt [0x3001, 0x1000] with
  tlbInv := [⟨0, 1, 0x3000, 0x1000, pend⟩], ev := { EvArg.zero with n := 584 } }

theorem witness_ShootDown :
    ((plSt [0x3001, 0x1000]).cur = .plate 0 ∧ (plSt [0x3001, 0x1000]).Ready (.tlbir 9 10) [9, 10] [] ∧
      (plSt [0x3001, 0x1000]).Ready (.presume 9 10) [9, 10] [] ∧ ((plSt [0x3001, 0x1000]).src [9, 10] 1).toNat % 4096 = 0 ∧
      ((plSt [0x3001, 0x1008]).src [9, 10] 1).toNat % 4096 ≠ 0) ∧
    ((((plSt []).modR 0 fun r => { r with pend := some ⟨0, .pfault, 0x3000, 0⟩ }).hart 0).r.pend = some ⟨0, .pfault, 0x3000, 0⟩) ∧
    (plSt []).gateFail .tlbsync = none ∧ (∃ x ∈ (invSt [584]).tlbInv, x.core = 0 ∧ x.pend ≠ []) ∧
    (∀ x ∈ (invSt []).tlbInv, x.core = 0 → x.pend = []) ∧ (∃ x ∈ (invSt [584]).tlbInv, 584 ∈ x.pend) := by
  refine ⟨⟨?_, ⟨?_, ?_⟩, ⟨?_, ?_⟩, ?_, ?_⟩, ?_, ?_, ?_, ?_, ?_⟩ <;> decide +kernel

end Sys2Proof.Tests
end

