-- ==== Sys2Proof/Tests/Sill.lean ====
section
/-! SUPPORT. Tests of the sill engines: a witness for the hypotheses of each statement about them. -/

namespace Sys2Proof.Tests

set_option Elab.async false

open Sys2Proof Sys2Proof.Machine

/-- A SILL tensor of FP16 at 0x1_8000, one row of 32 columns. -/
def tdRow : BitVec 1024 :=
  BitVec.ofNat 1024 (7 + 2 * 2 ^ 4 + 2 ^ 8 + 2 ^ 10 + 0x1_8000 * 2 ^ 64 + (1 + 32 * 2 ^ 32) * 2 ^ 192 + (1 + 32 * 2 ^ 16) * 2 ^ 384)

/-- A DENSE tensor of three INT32 at 0x1_8000 in tiles of two. -/
def tdRing (rdonly : Nat) : BitVec 1024 := tdMk 4 rdonly 0x1_8000 3 2

/-- The reference of slot 0, generation 1. -/
def r0 : XRef := .slot 0 0 1

/-- A sill transfer in slot 0. -/
def sillX (job : Job) : Xfer := { Xfer.zero with
  state := .active, gen := 1, bitmap := presetBits 1, chunks := 1, sill := true, launched := 1, job := job }

/-- A hart with its tensor 5 and x9; 256 bytes of y lie at 0x800 of its scratch. -/
def sSt (td : BitVec 1024) (v : W64) : State := tdSt td (scrSt [v])

/-- Sill n holds these commands; slot 0 has this job. -/
def sqSt (n : Nat) (job : Job) (q : List SillCmd) : State :=
  { (sSt tdRow 0x100).modR 0 fun r => { r with slots := [(0, sillX job)] } with sillq := [(n, q)], ev := { EvArg.zero with n := n } }

/-- The ring's header: one slot of 512 bytes. -/
def ringSt (td : BitVec 1024) (v : W64) : State := (sSt td v).pokeNat (scratchKey 0 8192) 8 (512 * 2 ^ 32)

theorem witness_SillInstructions :
    (∃ X, (sSt tdRow 0x0000_0008_0000_0000).tensHeld 0 5 = some X ∧ (sSt tdRow 0).tdUse X.td = 0 ∧ X.buf = none ∧
      (sSt tdRow 0).cur = .aStream 0 ∧ (sSt tdRow 0).Ready (.smv 8 5 9) [9] [8] ∧
      ¬ (tdLayout X.td ≠ 1 ∨ 4096 < 0 + sillXBytes X.td ∨ 4096 < (0x0000_0008_0000_0000 : W64).toNat / 2 ^ 24 % 2 ^ 24 + 4 * tdDim X.td 0) ∧
      ((sSt tdRow 0).hart 0).r.bound = 4096 ∧ 4096 < 0xFFF + 4 * tdDim X.td 0) ∧
    ((∀ k, k < 32 → (((sSt tdRow 0).modR 0 fun r => { r with slots := fullSlots }).slot 0 k).state ≠ .free) ∧
      (sSt tdRow 0).LowestFree 0 0 ∧ (tgetD (sSt tdRow 0).sillq ((sSt tdRow 0).sillFor ((sSt tdRow 0).hart 0).ctx.ptbase tdRow) []).length < 32 ∧
      32 ≤ (tgetD ({ sSt tdRow 0 with sillq := [(0, List.replicate 32 (.stop r0))] } : State).sillq
        ((sSt tdRow 0).sillFor ((sSt tdRow 0).hart 0).ctx.ptbase tdRow) []).length) ∧
    ((ringSt (tdRing 0) 0).Ready (.ssub 8 5 9) [9] [8] ∧ (0x20 : W64).toNat % 2 ^ 24 % 64 ≠ 0 ∧
      let k := scratchKey (0 / 8) (((ringSt (tdRing 0) 0).hart 0).r.alloc + ((ringSt (tdRing 0) 0).hart 0).r.base + 0)
      readBad (ringSt (tdRing 0) 0) k 8 = false ∧ (ringSt (tdRing 0) 0).cutKey k = false ∧ (ringSt (tdRing 0) 0).Storable (k + 8) 16 ∧
        (ringSt (tdRing 0) 0).nat k 8 = 512 * 2 ^ 32 ∧
        ¬ (512 % 512 ≠ 0 ∨ 512 < slotTileBytes (tdRing 0) ∨ 4096 < 0 + ringHead 1 + 1 * 512) ∧ (sSt (tdRing 0) 0).nat k 8 / 2 ^ 32 = 0 ∧
        0 < slotTileBytes (tdRing 0)) ∧
    ((ringSt (tdRing 1) 0x100).Ready (.spull 9 5) [9] [] ∧ tdRdonly (tdRing 1) = true ∧ tdRdonly (tdRing 0) = false ∧
      (ringSt (tdRing 0) 0x100).subOf 0 0x100 = none ∧
      (sqSt 0 (.ssub (tdRing 0) false 0 1 512 0 [] []) [.sub r0]).subOf 0 0x100 = some r0 ∧
      (sqSt 0 (.ssub (tdRing 0) false 0 1 512 0 [] []) [.sub r0]).sillOf r0 = 0 ∧
      (sqSt 0 (.ssub (tdRing 0) false 0 1 512 0 [] []) [.sub r0]).Ready (.sstop 9) [9] []) := by
  refine ⟨⟨_, rfl, ?_, ?_, ?_, ⟨?_, ?_⟩, ?_, ?_, ?_⟩, ⟨?_, ⟨?_, ?_, fun j hj => absurd hj (Nat.not_lt_zero j)⟩, ?_, ?_⟩,
    ⟨⟨?_, ?_⟩, ?_, ?_⟩, ⟨⟨?_, ?_⟩, ?_, ?_, ?_, ?_, ?_, ⟨?_, ?_⟩⟩⟩ <;> decide +kernel

/-- An SSUB of the redirected tensor, whose only tile is 0. -/
theorem witness_SillInstructions_buffer : let s := (ringSt (tdRing 0) (2 ^ 32)).modR 0 fun r => { r with redirect := some (5, 0, 64, tdRing 0) }
    ∃ X, s.tensHeld 0 5 = some X ∧ s.tdUse X.td = 0 ∧ s.Ready (.ssub 8 5 9) [9] [8] ∧ X.buf.isSome = true ∧
      X.tileOk ((2 ^ 32 : W64).toNat / 2 ^ 32) = false ∧ X.tileOk 0 = true := by
  refine ⟨_, rfl, ?_, ⟨?_, ?_⟩, rfl, ?_, ?_⟩ <;> decide +kernel

/-- A subscription of one slot whose state byte is b where the sill last saw st; write-backs go into tensor td. -/
def subSt (b st : Nat) (q : List SillCmd) : State :=
  (sqSt 0 (.ssub (tdRing 0) false 0 1 512 0 [(0, st)] (if st = 0 then [] else [(0, 0)])) q).pokeNat (scratchKey 0 (8192 + 64)) 1 b

/-- That subscription as the sill sees it. -/
def subOfSt (st : Nat) : Sub :=
  { h := 0, ref := r0, x := sillX (.ssub (tdRing 0) false 0 1 512 0 [(0, st)] (if st = 0 then [] else [(0, 0)])), t := ⟨tdRing 0, none⟩, off := 0,
    nslot := 1, slotsz := 512, next := 0, states := [(0, st)], tiles := if st = 0 then [] else [(0, 0)] }

/-- What a sill does next for subscription r0, as a number. -/
def stepNo (s : State) : Nat := match s.subNext 0 with
  | some (r, .badRing) => if r = r0 then 1 else 0
  | some (r, .start b) => if r = r0 ∧ b.ref = r0 ∧ b.h = 0 ∧ 0 < b.nslot ∧ b.tiles = [] then 2 else 0
  | some (r, .fill b) => if r = r0 ∧ b.ref = r0 ∧ b.h = 0 ∧ 0 < b.nslot then 3 else 0
  | _ => 0

/-- Words of y that an SMV of tdRow gives in state s, with their cells free of errors. -/
def smvOk (s : State) : Bool := match s.smvRows (s.engCtx r0 (tlbSill 0)) 0 tdRow (s.scratchAt 0 0) 1 0 0 with
  | (.ok (ws, _), s1) => decide (s1.Storable (s.scratchAt 0 0x800) (ws.flatMap (toBytes 4)).length)
  | _ => false

/-- The tile image of the subscription in state s, with the cells it goes to free of errors. -/
def imageOk (s : State) : Bool := match s.tileImage (s.engCtx r0 (tlbSill 0)) 0 ⟨tdRing 0, none⟩ 0 with
  | (.ok bs, s1) => decide (s1.Storable (s.ringSlot (subOfSt 1) 0) bs.length ∧ s1.Storable (s.scratchAt 0 8) 8 ∧
      s1.Storable (s.ringState (subOfSt 1) 0) 1)
  | _ => false

/-- The write-back of slot 0 in state s meets every condition of the statement. -/
def pullOk (s : State) : Bool := match s.pullCells (s.engCtx r0 (tlbSill 0)) (subOfSt 4) ⟨tdRing 0, none⟩ 0
    (s.bytes (s.ringSlot (subOfSt 4) 0) (slotTileBytes (tdRing 0))) with
  | (.ok cs, s1) => let cnt := s.scratchAt 0 16
      !(s1.cellsBad cs) && decide (s1.Storable cnt 8 ∧ s1.Storable (s.ringState (subOfSt 4) 0) 1 ∧ (cs.map (·.1)).Nodup) &&
        cs.all fun c => !(isIo c.1) && !(s1.cutKey c.1) && decide (c.1 < cnt ∨ cnt + 8 ≤ c.1) && c.1 != s.ringState (subOfSt 4) 0
  | _ => false

/-- A write-back of the subscription and its end. -/
def pulls : List SillCmd := [.sub r0, .pull r0 (tdRing 0) false 0]
def stops : List SillCmd := [.sub r0, .stop r0]

/-- A cancelled subscription with a write-back under way. -/
def cancelSt : State := (subSt 4 4 pulls).modR 0 fun r => { r with slots := [(0, { (subOfSt 4).x with cancelled := true })] }

/-- A write-back whose ring software has broken: what the sill then serves first is the write-back. -/
theorem witness_SillEngine_broken : let s := subSt 5 0 [.pull r0 (tdRing 0) false 0, .sub r0]
    s.pullNext 0 = some (0, r0, ⟨tdRing 0, none⟩, 0) ∧ ((s.sub? r0).bind s.ringLook).isNone = true := by decide +kernel

theorem witness_SillEngine :
    (∀ n ∈ [0, 1], (sqSt n (.smv tdRow 0x0000_0008_0000_0000) [.smv r0]).smvNext n =
      some (0, r0, sillX (.smv tdRow 0x0000_0008_0000_0000), tdRow, 0x0000_0008_0000_0000, 0)) ∧
    ((sqSt 1 (.smv tdRow 0) [.smv r0]).sillHome ((sqSt 1 (.smv tdRow 0) [.smv r0]).hart 0).ctx.ptbase tdRow = some 0 ∧
      smvOk (sqSt 0 (.smv tdRow 0x0000_0008_0000_0000) [.smv r0]) = true) ∧
    (stepNo (subSt 5 0 [.sub r0]) = 1 ∧ stepNo (subSt 0 0 [.sub r0]) = 2 ∧ stepNo (subSt 1 1 [.sub r0]) = 3 ∧
      (subSt 0 0 [.sub r0]).Storable ((subSt 0 0 [.sub r0]).ringState (subOfSt 0) 0) 1 ∧ imageOk (subSt 1 1 [.sub r0]) = true) ∧
    ((∀ st ∈ [2, 3, 4], (subSt st st pulls).pullNext 0 = some (1, r0, ⟨tdRing 0, none⟩, 0)) ∧
      (((subSt 5 0 pulls).sub? r0).bind (subSt 5 0 pulls).ringLook).isNone = true ∧
      (∀ st ∈ [2, 3, 4], (((subSt st st pulls).sub? r0).bind (subSt st st pulls).ringLook).map (fun b => (b.ref, tgetD b.states 0 0))
        = some (r0, st)) ∧
      (subSt 3 3 pulls).Storable ((subSt 3 3 pulls).ringState (subOfSt 3) 0) 1 ∧ pullFits (subOfSt 4) ⟨tdRing 0, none⟩ (some 0) = true ∧
      pullFits (subOfSt 4) ⟨tdRow, none⟩ (some 0) = false ∧
      readBad (subSt 4 4 pulls) ((subSt 4 4 pulls).ringSlot (subOfSt 4) 0) (slotTileBytes (tdRing 0)) = false ∧ pullOk (subSt 4 4 pulls) = true) ∧
    ((∀ st ∈ [0, 1, 4], ((subSt st st stops).subToEnd 0).map (·.ref) = some r0 ∧
        (((subSt st st stops).subToEnd 0).bind (subSt st st stops).ringLook).map (fun b => (b.ref, tgetD b.states 0 0)) = some (r0, st)) ∧
      (((subSt 5 0 stops).subToEnd 0).bind (subSt 5 0 stops).ringLook).isNone = true ∧
      (subSt 0 0 stops).pullUnderWay 0 (subOfSt 0) = none ∧ (subOfSt 0).x.flight = [] ∧ (subOfSt 0).x.bitmap ||| 1 = BitVec.allOnes 64 ∧
      (subSt 4 4 (pulls ++ [.stop r0])).pullUnderWay 0 (subOfSt 4) = some (⟨tdRing 0, none⟩, 0) ∧
      (cancelSt.subToEnd 0).map (fun b => (b.ref, b.x.cancelled)) = some (r0, true)) := by
  refine ⟨?_, ⟨?_, ?_⟩, ⟨?_, ?_, ?_, ?_, ?_⟩, ⟨?_, ?_, ?_, ?_, ?_, ?_, ?_, ?_⟩, ⟨?_, ?_, ?_, ?_, ?_, ?_, ?_⟩⟩ <;> decide +kernel

/-- A word of the sum of row 0 of tdRow, whose one slice is multiplied. -/
theorem witness_SillEngine_row : let s := sqSt 0 (.smv tdRow 0x0000_0008_0000_0000) [.smv r0]
    let y := s.smvRow (s.engCtx r0 (tlbSill 0)) 0 tdRow (s.scratchAt 0 0) 0 (sillSlices tdRow) 0 0 0
    y.1.isOk = true ∧ sillSlices tdRow = 1 := by decide +kernel

/-- The same ring with an uncorrectable error at its state bytes: what the sill looks at fails the subscription. -/
def errSt (b st : Nat) (q : List SillCmd) : State :=
  let s := subSt b st q
  { s with bad := [s.ringState (subOfSt st) 0] }

theorem witness_SillEngine_uncorr :
    (match (errSt 1 1 [.sub r0]).subNext 0 with | some (r, .uncorr) => decide (r = r0) | _ => false) = true ∧
    (let s := errSt 4 4 [.pull r0 (tdRing 0) false 0, .sub r0]
     (s.pullNext 0).map (fun p => (p.2.1, (s.sub? p.2.1).any s.ringBad)) = some (r0, true)) ∧
    ((subSt 4 4 pulls).sub? r0).any (subSt 4 4 pulls).ringBad = false ∧
    ((errSt 0 0 stops).subToEnd 0).map (errSt 0 0 stops).ringBad = some true ∧
    ((subSt 0 0 stops).subToEnd 0).map (subSt 0 0 stops).ringBad = some false := by decide +kernel

/-- R335: a fill puts the tile's first element into the slot and its state byte becomes FULL. -/
theorem test_fill : ∃ t, exec .sillTileFill ((subSt 1 1 [.sub r0]).pokeNat 0x1_8000 4 77) = .next t ∧
    (t.nat (scratchKey 0 (8192 + 128)) 4, t.nat (scratchKey 0 (8192 + 64)) 1, t.nat (scratchKey 0 (8192 + 8)) 8) = (77, 2, 1) :=
  ⟨_, rfl, by decide +kernel⟩

end Sys2Proof.Tests
end

