-- ==== Sys2Proof/Tests/Words.lean ====
section
/-! SUPPORT. One word of every instruction row, written out bit by bit from the rows of spec/opcode_table.json (R215, R216):
the major, then each field and the minor in its place. -/

namespace Sys2Proof.Tests

open Sys2Proof

/-- Do the words decode to their instructions? -/
def wordsOk (l : List (Nat × Instr)) : Bool := l.all fun p => decode (BitVec.ofNat 32 p.1) == .instr p.2

theorem test_words_01_0 : wordsOk [
    (0b000001_0101101_1001011_0010110_00000, .add 45 75 22),
    (0b000001_0101101_1001011_0010110_00001, .sub 45 75 22),
    (0b000001_0101101_1001011_0010110_00010, .and 45 75 22),
    (0b000001_0101101_1001011_0010110_00011, .or 45 75 22),
    (0b000001_0101101_1001011_0010110_00100, .xor 45 75 22),
    (0b000001_0101101_1001011_0010110_00101, .andn 45 75 22),
    (0b000001_0101101_1001011_0010110_00110, .orn 45 75 22),
    (0b000001_0101101_1001011_0010110_00111, .xnor 45 75 22),
    (0b000001_0101101_1001011_0010110_01000, .sll 45 75 22),
    (0b000001_0101101_1001011_0010110_01001, .srl 45 75 22),
    (0b000001_0101101_1001011_0010110_01010, .sra 45 75 22),
    (0b000001_0101101_1001011_0010110_01011, .rol 45 75 22),
    (0b000001_0101101_1001011_0010110_01100, .ror 45 75 22),
    (0b000001_0101101_1001011_0010110_01101, .slt 45 75 22),
    (0b000001_0101101_1001011_0010110_01110, .sltu 45 75 22),
    (0b000001_0101101_1001011_0010110_01111, .min 45 75 22)] = true := by decide

theorem test_words_01_1 : wordsOk [
    (0b000001_0101101_1001011_0010110_10000, .max 45 75 22),
    (0b000001_0101101_1001011_0010110_10001, .minu 45 75 22),
    (0b000001_0101101_1001011_0010110_10010, .maxu 45 75 22),
    (0b000001_0101101_1001011_0010110_10011, .mul 45 75 22),
    (0b000001_0101101_1001011_0010110_10100, .mulh 45 75 22),
    (0b000001_0101101_1001011_0010110_10101, .mulhu 45 75 22),
    (0b000001_0101101_1001011_0010110_10110, .div 45 75 22),
    (0b000001_0101101_1001011_0010110_10111, .divu 45 75 22),
    (0b000001_0101101_1001011_0010110_11000, .rem 45 75 22),
    (0b000001_0101101_1001011_0010110_11001, .remu 45 75 22),
    (0b000001_0101101_1001011_000000011010, .clz 45 75),
    (0b000001_0101101_1001011_000000011011, .ctz 45 75),
    (0b000001_0101101_1001011_000000011100, .popc 45 75),
    (0b000001_0101101_1001011_0010110_11101, .clmul 45 75 22),
    (0b000001_0101101_1001011_0010110_11110, .clmulh 45 75 22)] = true := by decide

theorem test_words_02 : wordsOk [
    (0b000010_0101101_1001011_010110100101, .addi 45 75 1445)] = true := by decide

theorem test_words_03 : wordsOk [
    (0b000011_0101101_1001011_010110100101, .andi 45 75 1445)] = true := by decide

theorem test_words_04 : wordsOk [
    (0b000100_0101101_1001011_010110100101, .ori 45 75 1445)] = true := by decide

theorem test_words_05 : wordsOk [
    (0b000101_0101101_1001011_010110100101, .xori 45 75 1445)] = true := by decide

theorem test_words_06 : wordsOk [
    (0b000110_0101101_1001011_010110100101, .slti 45 75 1445)] = true := by decide

theorem test_words_07 : wordsOk [
    (0b000111_0101101_1001011_010110100101, .sltiu 45 75 1445)] = true := by decide

theorem test_words_08 : wordsOk [
    (0b001000_0101101_1001011_000000_101101, .slli 45 75 45),
    (0b001000_0101101_1001011_001000_101101, .srli 45 75 45),
    (0b001000_0101101_1001011_010000_101101, .srai 45 75 45),
    (0b001000_0101101_1001011_011000_101101, .roli 45 75 45),
    (0b001000_0101101_1001011_100000_101101, .rori 45 75 45)] = true := by decide

theorem test_words_09 : wordsOk [
    (0b001001_0101101_1011010010110100101, .lih 45 370085)] = true := by decide

theorem test_words_0A : wordsOk [
    (0b001010_0101101_1001011_000_010101101, .ldB 45 75 173),
    (0b001010_0101101_1001011_001_010101101, .ldBu 45 75 173),
    (0b001010_0101101_1001011_010_010101101, .ldH 45 75 173),
    (0b001010_0101101_1001011_011_010101101, .ldHu 45 75 173),
    (0b001010_0101101_1001011_100_010101101, .ldW 45 75 173),
    (0b001010_0101101_1001011_101_010101101, .ldWu 45 75 173),
    (0b001010_0101101_1001011_110_010101101, .ldD 45 75 173)] = true := by decide

theorem test_words_0B : wordsOk [
    (0b001011_0101101_1001011_000_010101101, .stB 45 75 173),
    (0b001011_0101101_1001011_010_010101101, .stH 45 75 173),
    (0b001011_0101101_1001011_100_010101101, .stW 45 75 173),
    (0b001011_0101101_1001011_110_010101101, .stD 45 75 173)] = true := by decide

theorem test_words_0C : wordsOk [
    (0b001100_0101101_1001011_0010110_0000_1, .amoSwap 45 75 22 1),
    (0b001100_0101101_1001011_0010110_0001_1, .amoAdd 45 75 22 1),
    (0b001100_0101101_1001011_0010110_0010_1, .amoAnd 45 75 22 1),
    (0b001100_0101101_1001011_0010110_0011_1, .amoOr 45 75 22 1),
    (0b001100_0101101_1001011_0010110_0100_1, .amoXor 45 75 22 1),
    (0b001100_0101101_1001011_0010110_0101_1, .amoMin 45 75 22 1),
    (0b001100_0101101_1001011_0010110_0110_1, .amoMax 45 75 22 1),
    (0b001100_0101101_1001011_0010110_0111_1, .amoMinu 45 75 22 1),
    (0b001100_0101101_1001011_0010110_1000_1, .amoMaxu 45 75 22 1),
    (0b001100_0101101_1001011_0010110_1001_1, .amoCas 45 75 22 1)] = true := by decide

theorem test_words_0D : wordsOk [
    (0b001101_0101101_1001011_000_010101101, .beq 45 75 173),
    (0b001101_0101101_1001011_001_010101101, .bne 45 75 173),
    (0b001101_0101101_1001011_010_010101101, .blt 45 75 173),
    (0b001101_0101101_1001011_011_010101101, .bge 45 75 173),
    (0b001101_0101101_1001011_100_010101101, .bltu 45 75 173),
    (0b001101_0101101_1001011_101_010101101, .bgeu 45 75 173)] = true := by decide

theorem test_words_0E : wordsOk [
    (0b001110_0101101_1011010010110100101, .j 45 370085)] = true := by decide

theorem test_words_0F : wordsOk [
    (0b001111_0101101_1001011_010110100101, .jr 45 75 1445)] = true := by decide

theorem test_words_10 : wordsOk [
    (0b010000_0101101_000000000_0110000001, .csrrd 45 385),
    (0b010000_0000000_0101101_01_0110000001, .csrwr 45 385),
    (0b010000_0000000_0101101_10_0110000001, .csrset 45 385),
    (0b010000_0000000_0101101_11_0110000001, .csrclr 45 385),
    (0b010000_0101101_0000000000010001111, .cplaunch 45),
    (0b010000_0000000_0101101_011000000001, .featack 45)] = true := by decide

theorem test_words_11 : wordsOk [
    (0b010001_000000000000000000000_101_00, .fenceSv 5),
    (0b010001_000000000000000000000_101_01, .fenceVs 5),
    (0b010001_000000000000000000000_101_10, .fenceVv 5),
    (0b010001_000000000000000000000_101_11, .fenceAll 5)] = true := by decide

theorem test_words_12 : wordsOk [
    (0b010010_00000000000000000000000000, .ecall),
    (0b010010_00000000000000000000000001, .ebreak),
    (0b010010_00000000000000000000000010, .eret),
    (0b010010_00000000000000000000000011, .wfi),
    (0b010010_00000000000000000000000100, .halt),
    (0b010010_00000000000000000000000101, .stepend),
    (0b010010_0000000_0101101_000000000110, .post 45),
    (0b010010_0000000_0101101_1001011_00111, .killck 45 75),
    (0b010010_0101101_1001011_0010110_01000, .scopeof 45 75 22),
    (0b010010_00000000000000000000001001, .snap),
    (0b010010_0000000_0101101_000000001010, .setscope 45),
    (0b010010_0101101_1001011_0010110_01011, .glaunch 45 75 22)] = true := by decide

theorem test_words_13 : wordsOk [
    (0b010011_0000000_0101101_1001011_00000, .cpwait 45 75),
    (0b010011_0101101_1001011_0010110_00001, .cptest 45 75 22),
    (0b010011_0000000_0101101_000000000010, .cpcancel 45),
    (0b010011_0101101_1001011_0010110_00011, .bgather 45 75 22),
    (0b010011_0000000_0101101_1001011_00100, .remq 45 75),
    (0b010011_0101101_1001011_0010110_00101, .remqa 45 75 22),
    (0b010011_0101101_1001011_000000000110, .ppush 45 75)] = true := by decide

theorem test_words_14 : wordsOk [
    (0b010100_0101101_1001011_000000000000, .sld 45 75),
    (0b010100_0101101_1001011_0010110_00001, .slds 45 75 22),
    (0b010100_0101101_1001011_0010110_00010, .sldz 45 75 22)] = true := by decide

theorem test_words_15 : wordsOk [
    (0b010101_0000000_0101101_1001011_00000, .binit 45 75),
    (0b010101_0000000_0101101_1001011_00001, .bexpect 45 75),
    (0b010101_0000000_0101101_000000000010, .barrive 45),
    (0b010101_0000000_0101101_1001011_00011, .bwait 45 75),
    (0b010101_0101101_1001011_000000000100, .btest 45 75),
    (0b010101_00000000000000000000000101, .tbar),
    (0b010101_0101101_1001011_0010110_00110, .rrot 45 75 22)] = true := by decide

theorem test_words_16 : wordsOk [
    (0b010110_0101101_1001011_0010110_00000, .smv 45 75 22),
    (0b010110_0101101_1001011_0010110_00001, .ssub 45 75 22),
    (0b010110_0000000_0101101_1001011_00010, .spull 45 75),
    (0b010110_0000000_0101101_000000000011, .sstop 45)] = true := by decide

theorem test_words_17 : wordsOk [
    (0b010111_0101101_1001011_000000000000, .tdset 45 75),
    (0b010111_0101101_1001011_0010110_00001, .tdget 45 75 22),
    (0b010111_0101101_0000000_1001011_00010, .tdsync 45 75),
    (0b010111_0101101_1001011_000000000011, .tdchk 45 75)] = true := by decide

theorem test_words_18 : wordsOk [
    (0b011000_0101101_1001011_000000000000, .rird 45 75),
    (0b011000_0101101_1001011_000000000001, .ritag 45 75),
    (0b011000_0101101_1001011_0010110_00010, .rimin 45 75 22),
    (0b011000_0101101_1001011_0010110_00011, .rimax 45 75 22),
    (0b011000_0101101_1001011_0010110_00100, .rireset 45 75 22)] = true := by decide

theorem test_words_19 : wordsOk [
    (0b011001_0101101_1001011_0010110_00000, .qmap 45 75 22),
    (0b011001_0101101_1001011_000000000001, .qunmap 45 75),
    (0b011001_0101101_1001011_000000000010, .qsave 45 75),
    (0b011001_0101101_1001011_000000000011, .qload 45 75),
    (0b011001_0000000_0101101_1001011_00100, .tlbir 45 75),
    (0b011001_00000000000000000000000101, .tlbsync),
    (0b011001_0101101_1001011_0010110_00110, .vttset 45 75 22),
    (0b011001_0101101_1001011_000000000111, .preset 45 75),
    (0b011001_0000000_0101101_1001011_01000, .presume 45 75),
    (0b011001_0000000_0101101_1001011_01001, .kickclr 45 75)] = true := by decide

theorem test_words_20 : wordsOk [
    (0b100000_0101101_1001011_000000_11_1010, .vsetvl 45 75 3 10)] = true := by decide

theorem test_words_21 : wordsOk [
    (0b100001_0101101_1001011_0010110_10_000, .vadd 45 75 22 2),
    (0b100001_0101101_1001011_0010110_10_001, .vsub 45 75 22 2),
    (0b100001_0101101_1001011_0010110_10_010, .vmul 45 75 22 2),
    (0b100001_0101101_1001011_0010110_10_011, .vmulh 45 75 22 2),
    (0b100001_0101101_1001011_0010110_10_100, .vand 45 75 22 2),
    (0b100001_0101101_1001011_0010110_10_101, .vor 45 75 22 2),
    (0b100001_0101101_1001011_0010110_10_110, .vxor 45 75 22 2),
    (0b100001_0101101_1001011_0010110_10_111, .vsll 45 75 22 2)] = true := by decide

theorem test_words_22 : wordsOk [
    (0b100010_0101101_1001011_0010110_10_000, .vsrl 45 75 22 2),
    (0b100010_0101101_1001011_0010110_10_001, .vsra 45 75 22 2),
    (0b100010_0101101_1001011_0010110_10_010, .vmin 45 75 22 2),
    (0b100010_0101101_1001011_0010110_10_011, .vmax 45 75 22 2),
    (0b100010_0101101_1001011_0010110_10_100, .vminu 45 75 22 2),
    (0b100010_0101101_1001011_0010110_10_101, .vmaxu 45 75 22 2),
    (0b100010_0101101_1001011_0010110_10_110, .vsadd 45 75 22 2),
    (0b100010_0101101_1001011_0010110_10_111, .vssub 45 75 22 2)] = true := by decide

theorem test_words_23 : wordsOk [
    (0b100011_0101101_1001011_0010110_10_000, .vfadd 45 75 22 2),
    (0b100011_0101101_1001011_0010110_10_001, .vfsub 45 75 22 2),
    (0b100011_0101101_1001011_0010110_10_010, .vfmul 45 75 22 2),
    (0b100011_0101101_1001011_0010110_10_011, .vfdiv 45 75 22 2),
    (0b100011_0101101_1001011_0010110_10_100, .vfmin 45 75 22 2),
    (0b100011_0101101_1001011_0010110_10_101, .vfmax 45 75 22 2),
    (0b100011_0101101_1001011_0000000_11_110, .vfsqrt 45 75 3),
    (0b100011_0101101_1001011_0010110_10_111, .vfsgn 45 75 22 2)] = true := by decide

theorem test_words_24 : wordsOk [
    (0b100100_0101101_1001011_0010110_10_000, .vfma 45 75 22 2),
    (0b100100_0101101_1001011_0010110_10_001, .vfms 45 75 22 2),
    (0b100100_0101101_1001011_0010110_10_010, .vfnma 45 75 22 2),
    (0b100100_0101101_1001011_0010110_10_011, .vfnms 45 75 22 2),
    (0b100100_0101101_1001011_0010110_10_100, .vfmaw 45 75 22 2)] = true := by decide

theorem test_words_25 : wordsOk [
    (0b100101_0101101_1001011_000_0101_10_000, .vcvtRne 45 75 5 2),
    (0b100101_0101101_1001011_000_0101_10_001, .vcvtRtz 45 75 5 2),
    (0b100101_0101101_1001011_000_0101_10_010, .vcvtRdn 45 75 5 2),
    (0b100101_0101101_1001011_000_0101_10_011, .vcvtRup 45 75 5 2),
    (0b100101_0101101_1001011_000_0101_10_100, .vcvtRneSat 45 75 5 2),
    (0b100101_0101101_1001011_000_0101_10_101, .vcvtRtzSat 45 75 5 2)] = true := by decide

theorem test_words_26 : wordsOk [
    (0b100110_0000_101_1001011_0010110_10_000, .vceq 5 75 22 2),
    (0b100110_0000_101_1001011_0010110_10_001, .vcne 5 75 22 2),
    (0b100110_0000_101_1001011_0010110_10_010, .vclt 5 75 22 2),
    (0b100110_0000_101_1001011_0010110_10_011, .vcle 5 75 22 2),
    (0b100110_0000_101_1001011_0010110_10_100, .vcltu 5 75 22 2),
    (0b100110_0000_101_1001011_0010110_10_101, .vfceq 5 75 22 2),
    (0b100110_0000_101_1001011_0010110_10_110, .vfclt 5 75 22 2),
    (0b100110_0000_101_1001011_0010110_10_111, .vfcle 5 75 22 2)] = true := by decide

theorem test_words_27 : wordsOk [
    (0b100111_0000_101_0000_011_0000_110_00000, .mand 5 3 6),
    (0b100111_0000_101_0000_011_0000_110_00001, .mor 5 3 6),
    (0b100111_0000_101_0000_011_0000_110_00010, .mxor 5 3 6),
    (0b100111_0000_101_0000_011_0000_110_00011, .mandn 5 3 6),
    (0b100111_0101101_0000_011_000000000100, .mpopc 45 3),
    (0b100111_0101101_0000_011_000000000101, .mfirst 45 3),
    (0b100111_00001_10_0000_011_000000000110, .mtoq 2 3),
    (0b100111_0000_101_1001011_000000000111, .vckm 5 75)] = true := by decide

theorem test_words_28 : wordsOk [
    (0b101000_0101101_1001011_0010110_10_000, .vslideup 45 75 22 2),
    (0b101000_0101101_1001011_0010110_10_001, .vslidedn 45 75 22 2),
    (0b101000_0101101_1001011_0010110_10_010, .vrgather 45 75 22 2),
    (0b101000_0101101_1001011_0000_110_00011, .vcompress 45 75 6),
    (0b101000_0101101_1001011_0000_110_00100, .vexpand 45 75 6),
    (0b101000_0101101_1001011_0000000_11_101, .vsplat 45 75 3),
    (0b101000_0101101_1001011_0010110_10_110, .vmerge 45 75 22 2),
    (0b101000_0101101_00000000000000_01_111, .vid 45 1)] = true := by decide

theorem test_words_29 : wordsOk [
    (0b101001_0101101_1001011_0000000_11_000, .vredsum 45 75 3),
    (0b101001_0101101_1001011_0000000_11_001, .vredmin 45 75 3),
    (0b101001_0101101_1001011_0000000_11_010, .vredmax 45 75 3),
    (0b101001_0101101_1001011_0000000_11_011, .vfredosum 45 75 3),
    (0b101001_0101101_1001011_0000000_11_100, .vfredtsum 45 75 3),
    (0b101001_0101101_1001011_0000000_11_101, .vfredmin 45 75 3),
    (0b101001_0101101_1001011_0000000_11_110, .vfredmax 45 75 3),
    (0b101001_0101101_1001011_0000000_11_111, .vscan 45 75 3)] = true := by decide

theorem test_words_2A : wordsOk [
    (0b101010_0101101_1001011_0010110_10_000, .vaddi 45 75 22 2),
    (0b101010_0101101_1001011_0010110_10_001, .vandi 45 75 22 2),
    (0b101010_0101101_1001011_0010110_10_010, .vori 45 75 22 2),
    (0b101010_0101101_1001011_0010110_10_011, .vxori 45 75 22 2),
    (0b101010_0101101_1001011_0010110_10_100, .vslli 45 75 22 2),
    (0b101010_0101101_1001011_0010110_10_101, .vsrli 45 75 22 2),
    (0b101010_0101101_1001011_0010110_10_110, .vsrai 45 75 22 2),
    (0b101010_0101101_0000000_1001011_11_111, .vmvi 45 75 3)] = true := by decide

theorem test_words_2B : wordsOk [
    (0b101011_0101101_1001011_0010110_10_000, .vlt 45 75 22 2),
    (0b101011_0101101_1001011_0010110_10_001, .vltck 45 75 22 2),
    (0b101011_0101101_1001011_0000000_11_010, .vlr 45 75 3),
    (0b101011_0101101_1001011_0010110_10_011, .vlrs 45 75 22 2),
    (0b101011_0101101_1001011_0010110_10_100, .vlrx 45 75 22 2),
    (0b101011_0101101_1001011_0000000_11_101, .vlrff 45 75 3),
    (0b101011_0101101_1001011_0000000_11_110, .vlrsc 45 75 3)] = true := by decide

theorem test_words_2C : wordsOk [
    (0b101100_0101101_1001011_0010110_10_000, .vstt 45 75 22 2),
    (0b101100_0101101_1001011_0000000_11_001, .vstr 45 75 3),
    (0b101100_0101101_1001011_0010110_10_010, .vstrs 45 75 22 2),
    (0b101100_0101101_1001011_0010110_10_011, .vstrx 45 75 22 2),
    (0b101100_0101101_1001011_0000000_11_100, .vstrsc 45 75 3)] = true := by decide

theorem test_words_2D : wordsOk [
    (0b101101_0101101_1001011_0010110_10_000, .vamoadd 45 75 22 2),
    (0b101101_0101101_1001011_0010110_10_001, .vamomin 45 75 22 2),
    (0b101101_0101101_1001011_0010110_10_010, .vamomax 45 75 22 2),
    (0b101101_0101101_1001011_0010110_10_011, .vamoswap 45 75 22 2),
    (0b101101_0101101_1001011_0010110_10_100, .vamoor 45 75 22 2)] = true := by decide

theorem test_words_2E : wordsOk [
    (0b101110_0101101_1001011_0000000_11_000, .vmv 45 75 3),
    (0b101110_0101101_1001011_0010110_10_001, .vclmul 45 75 22 2),
    (0b101110_0101101_1001011_0010110_10_010, .vclmulh 45 75 22 2),
    (0b101110_0101101_1001011_0000000_11_011, .vpopc 45 75 3),
    (0b101110_0101101_1001011_0000000_11_100, .vclz 45 75 3),
    (0b101110_0101101_1001011_0000000_11_101, .vctz 45 75 3),
    (0b101110_0101101_1001011_0010110_10_110, .vsel 45 75 22 2),
    (0b101110_0101101_1001011_0000000_11_111, .vnot 45 75 3)] = true := by decide

theorem test_words_2F : wordsOk [
    (0b101111_00000000000000_010110100101, .wbase 1445)] = true := by decide

theorem test_words_30 : wordsOk [
    (0b110000_0101101_1001011_000000000000, .mbeam 45 75),
    (0b110000_00000000000000000000000001, .mswap),
    (0b110000_0101101_1001011_000000000010, .mseta 45 75),
    (0b110000_0101101_1001011_000000000011, .mrow 45 75),
    (0b110000_0101101_1001011_000000000100, .mrowt 45 75),
    (0b110000_0101101_0000000000000000101, .mzero 45),
    (0b110000_00000000000000000000000101, .mzeroBare)] = true := by decide

theorem test_words_31 : wordsOk [
    (0b110001_0101101_1001011_00000_11_00000, .xcfg 45 75 3),
    (0b110001_0000000000000000000_10_00001, .xclr 2),
    (0b110001_0000000_0101101_00000_01_00010, .xchk 45 1),
    (0b110001_0101101_000000000000_01_00011, .xeps 45 1),
    (0b110001_0101101_000000000000_01_00100, .xlsq 45 1),
    (0b110001_0000_101_1001011_00000_11_00101, .xtest 5 75 3),
    (0b110001_00001_10_000000000000_01_00110, .xstat 2 1)] = true := by decide

end Sys2Proof.Tests
end

