-- ==== Sys2Proof/Tests/Slice0.lean ====
section
/-! SUPPORT. The tests of the core: the smoke test of WellFormed, with an ill-formed term for each check; the decoder's
rejections; one step of each kind of agent; and a witness for the hypotheses of each statement about the core. The other
files of this folder hold the witnesses of the other statements. -/

namespace Sys2Proof.Tests

set_option Elab.async false

open Sys2Proof Sys2Proof.Machine

/-! WellFormed refuses a term for each kind of field (R213, R272, R274, R278, R309, R317). -/

theorem test_wf_aDst : WellFormed (.add 3 10 44) = false ∧ WellFormed (.add 4 10 44) = true := by decide
theorem test_wf_aSrc : WellFormed (.add 9 1 44) = false ∧ WellFormed (.add 9 10 2) = false := by decide
theorem test_wf_aUpd : WellFormed (.amoCas 4 10 44 0) = false ∧ WellFormed (.amoCas 8 10 44 0) = true := by decide
theorem test_wf_port : WellFormed (.sld 8 9) = false ∧ WellFormed (.sld 3 9) = false ∧ WellFormed (.sld 7 9) = true := by decide
theorem test_wf_br : WellFormed (.beq 1 0 8) = false ∧ WellFormed (.beq 6 3 8) = false ∧ WellFormed (.beq 127 0 8) = true := by decide
theorem test_wf_link : WellFormed (.j 2 8) = false ∧ WellFormed (.j 0 8) = true := by decide
theorem test_wf_eDst : WellFormed (.vadd 1 16 17 0) = false ∧ WellFormed (.vadd 0 1 2 0) = true := by decide
theorem test_wf_eUpd : WellFormed (.vfma 4 16 17 0) = false ∧ WellFormed (.vfma 8 16 17 0) = true := by decide
theorem test_acc_any : WellFormed (.mrow 15 16) = true ∧ WellFormed (.mrow 16 16) = true := by decide
theorem test_wf_lit : WellFormed (.tdsync 5 8) = false ∧ WellFormed (.tdsync 5 7) = true ∧ WellFormed (.cptest 9 10 2) = false := by decide
theorem test_wf_fmt : WellFormed (.vcvtRne 16 17 14 0) = false ∧ WellFormed (.vcvtRne 16 17 13 0) = true := by decide
theorem test_wf_someMask : WellFormed (.vmerge 16 17 18 0) = false ∧ WellFormed (.vmerge 16 17 18 3) = true := by decide
theorem test_wf_mul8 : WellFormed (.wbase 12) = false ∧ WellFormed (.wbase 16) = true := by decide
theorem test_wf_xitem : WellFormed (.xcfg 4 16 0) = false ∧ WellFormed (.xcfg 8 16 0) = true ∧ WellFormed (.xcfg 16 16 0) = false := by decide
theorem test_wf_ownRow : WellFormed (.csrrd 9 0x08F) = false ∧ WellFormed (.csrwr 9 0x201) = false ∧ WellFormed (.mzero 0) = false := by
  decide

/-! The core's statements. -/

theorem witness_EncodeDecode : WellFormed (.add 9 10 44) = true ∧ encode (.add 9 10 44) = some 0x0448A580 ∧
    decode 0x0448A580 = .instr (.add 9 10 44) ∧ WellFormed (.mrowt 16 0) = true ∧ (encode (.mrowt 16 0)).isSome = true := by decide

/-- The state in which this word is the next instruction (R209), and the same as its agent finds it. -/
def wordSt (w : Nat) : State := State.reset.withFetchWord 32 w
def turnSt (ag : Agent) (w : Nat) : State := { wordSt w with agenda := [], cycle := 1, cur := ag }

/-- What decides a step: whether the agent may issue, the word at its pc, and what it decodes to. -/
def fetched (ag : Agent) (w : Nat) : Bool × Option Decoded :=
  let s := turnSt ag w
  (s.canIssue ag, match s.paged ag .exec (s.pcOf ag).toNat with
    | (.error _, _) => none
    | (.ok p, u) => if readBad u p.key 4 then none else some (decodeBytes (u.bytes p.key 4)))

theorem witness_StepRunsDecoded :
    ((wordSt 0x0448A580).agenda = [.run (.aStream 0)] ∧ (wordSt 0x0448A580).powered = true ∧
      fetched (.aStream 0) 0x0448A580 = (true, some (.instr (.add 9 10 44)))) ∧
    ((wordSt 0x64000000).agenda = [.run (.plate 0)] ∧ fetched (.plate 0) 0x64000000 = (true, some (.instr (.qmap 0 0 0)))) ∧
    ((wordSt 0xC0800004).agenda = [.run (.eStream 0)] ∧ fetched (.eStream 0) 0xC0800004 = (true, some (.instr (.mrowt 16 0)))) ∧
    (fetched (.aStream 0) 0xFFFFFFFF = (true, some .noMajor) ∧ fetched (.aStream 0) 0x54000007 = (true, some .noMinor) ∧
      fetched (.aStream 0) 0x0448A03A = (true, some (.badField (.clz 9 10)))) ∧
    (turnSt (.aStream 0) 0).canIssue (.aStream 8) = false ∧
    (let s := (turnSt (.aStream 0) 0).modA 0 fun a => { a with pc := 2 ^ 47 }
     s.canIssue (.aStream 0) = true ∧ 2 ^ 47 ≤ (s.pcOf (.aStream 0)).toNat) ∧
    ((turnSt (.aStream 0) 0).paged (.aStream 0) .exec 0x4000_0000).1.isOk = false ∧
    (readBad { turnSt (.plate 0) 0 with bad := [0x1000] } 0x1000 4 = true ∧ readBad (turnSt (.plate 0) 0) 0x1000 4 = false) ∧
    (Instr.snapPin.isEvent = true ∧ State.reset.powered = true ∧ State.reset.agenda = []) ∧
    (let s : State := { State.reset with mg := { State.reset.mg with power := .tripped } }
     s.powered = false ∧ (Turn.run (.plate 0)).unpowered = false ∧ (Turn.ev .powerInputChange .zero).unpowered = true) := by
  refine ⟨⟨?_, ?_, ?_⟩, ⟨?_, ?_⟩, ⟨?_, ?_⟩, ⟨?_, ?_, ?_⟩, ?_, ?_, ?_, ?_, ?_, ?_⟩ <;> decide +kernel

/-- The same where the word stood otherwise when the step was placed, where the E-stream stands inside an instruction, and where
the page lies in a package that no path leads to. -/
def cutSt (cut : Nat) : State :=
  let s := ((turnSt (.aStream 0) 0).pokeNat 0x1_2000 8 (0xC1F + 2 * 2 ^ 7 + 2 ^ 52)).pokeNat (ioBase + 0xB008) 8 (2 ^ 8)
  { s with mg := { s.mg with pod := 3, cut := BitVec.ofNat 64 cut } }

theorem witness_StepRunsDecoded_more :
    (let s := (turnSt (.aStream 0) 0x0448A580).modHart 0 fun v => { v with id := { v.id with code := [] } }
     s.canIssue (.aStream 0) = true ∧ memGet (s.hart 0).id.code 0x1001 ≠ s.byteOf 0x1001) ∧
    (let s := (turnSt (.eStream 0) 0).modE 0 fun e => { e with prog := some ⟨4, 6, 0, 0, 0x0448A580, 0⟩ }
     s.canIssue (.eStream 0) = true ∧ s.heldWord (.eStream 0) = some 0x0448A580) ∧
    ((cutSt 2).canIssue (.aStream 0) = true ∧ (match (cutSt 2).paged (.aStream 0) .exec 0x1000 with
      | (.ok p, u) => u.cutKey p.key
      | _ => false) = true) ∧
    (turnSt (.plate 0) 0).heldWord (.plate 0) = none ∧
    (match (turnSt (.plate 0) 0x64000000).paged (.plate 0) .exec 0x1000 with
      | (.ok p, u) => !u.cutKey p.key && !readBad u p.key 4
      | _ => false) = true := by
  refine ⟨?_, ?_, ?_, ?_, ?_⟩ <;> decide +kernel

/-- A property of the next state of a step. -/
def nextHas (o : Host.Outcome State Fault Refusal) (f : State → Bool) : Bool := match o with
  | .next t => f t
  | _ => false

theorem next_of {o : Host.Outcome State Fault Refusal} {f : State → Bool} (h : nextHas o f = true) : ∃ t, o = .next t ∧ f t = true := by
  cases o with
  | next t => exact ⟨t, rfl, h⟩
  | fault _ => simp [nextHas] at h
  | refused _ => simp [nextHas] at h

theorem witness_StepKeepsMemory : ∃ t, step (wordSt 0x0448A580) = .next t ∧ (wordSt 0x0448A580).MemOk := by
  obtain ⟨t, h, -⟩ := next_of (f := fun _ => true) (by decide +kernel : nextHas (step (wordSt 0x0448A580)) _ = true)
  exact ⟨t, h, (by decide +kernel : memWf (wordSt 0x0448A580).mem = true)⟩

theorem witness_StepKeepsRecord : ∃ t, step (wordSt 0x0448A580) = .next t :=
  (next_of (f := fun _ => true) (by decide +kernel : nextHas (step (wordSt 0x0448A580)) _ = true)).imp fun _ h => h.1

/-! One step of each kind of agent: the pc goes on by 4, a branch takes its target, a word that is no instruction is
reported. -/

theorem test_step_add : nextHas (step (wordSt 0x0448A580)) (fun t => (t.hart 0).a.pc == 0x1004) = true := by decide +kernel
theorem test_step_beq : nextHas (step (wordSt 0x34000008)) (fun t => (t.hart 0).a.pc == 0x1020) = true := by decide +kernel

end Sys2Proof.Tests
end

