-- ==== Sys2Proof/Tests/Vector.lean ====
section
/-! SUPPORT. Tests of the vector instructions that access no memory: a witness for the hypotheses of each statement about
them, and results worked by hand from the manual. -/

namespace Sys2Proof.Tests

set_option Elab.async false

open Sys2Proof Sys2Proof.Machine

/-- A hart with a value in main register 1 and in o0. -/
def vSt (fmt : BitVec 4) (g : BitVec 2) (vl : Nat) (v w : VReg) : State :=
  (eSt fmt g vl).modE 0 fun e => { e with main := [(1, v)], o := [(0, w)] }

theorem witness_VectorInteger : (vSt 4 0 32 1 2).EReady 0 (.vadd 16 17 8 0) ((vSt 4 0 32 1 2).opV 0 clsI [17, 8] 16) [] ∧
    (eSt 5 3 256).EReady 0 (.vsadd 24 32 40 3) ((eSt 5 3 256).opV 0 clsI [32, 40] 24) [] ∧
    (eSt 0 0 1).EReady 0 (.vclz 4 0 1) ((eSt 0 0 1).opV 0 clsI [0] 4) [] ∧
    (eSt 6 0 1).EReady 0 (.vnot 0 127 0) ((eSt 6 0 1).opV 0 clsA [127] 0) [] ∧
    (eSt 5 0 0).EReady 0 (.vid 0 0) ((eSt 5 0 0).opV 0 clsI [] 0) [] := by
  refine ⟨?_, ?_, ?_, ?_, ?_⟩ <;> exact eReady (by decide +kernel)

/-- R275: elements of 8 bits wrap on their own. -/
theorem test_vadd_wraps : ∃ t, exec (.vadd 18 17 8 0) (vSt 0 0 2 0x01FF 0x0101) = .next t ∧
    elemOf 8 (tgetD (t.hart 0).e.main 2 0).toNat 0 = 0 ∧ elemOf 8 (tgetD (t.hart 0).e.main 2 0).toNat 1 = 2 :=
  ⟨_, rfl, by decide +kernel⟩

/-- 1, 3/2 and a zero as finite values. -/
theorem witness_FloatValues : (FVal.fin false 1 0).Is 1 ∧ (FVal.fin true 3 (-1)).Is (-3 / 2) ∧ (FVal.fin false 0 0).Is 0 ∧
    ((fsp 6).decode 0x3F80_0000 = .fin false (2 ^ 23) (-23) ∧ (FVal.fin false (2 ^ 23) (-23)).Is 1) ∧
    ((fsp 7).decode 0xC000 = .fin true (2 ^ 10) (-9) ∧ (FVal.fin true (2 ^ 10) (-9)).Is (-2)) ∧
    ((fsp 6).decode 0x7FC0_0000).isNan = true ∧ ((fsp 6).decode 0x3F80_0000).isNan = false ∧ ((fsp 8).decode 0x7F81).isSig = true := by
  refine ⟨⟨_, _, _, rfl, by norm_num⟩, ⟨_, _, _, rfl, by norm_num⟩, ⟨_, _, _, rfl, by norm_num⟩, ⟨by decide +kernel, _, _, _, rfl, ?_⟩,
    ⟨by decide +kernel, _, _, _, rfl, ?_⟩, by decide +kernel, by decide +kernel, by decide +kernel⟩ <;> norm_num

/-- What the conversions' clauses ask for. -/
theorem witness_Conversions : (0 < 3 ∧ (6 : ℝ) = ((3 : Nat) : ℝ) * (2 : ℝ) ^ (1 : Int)) ∧ (fspecOf 6).isSome = true ∧
    (fspecOf 9).isSome = true ∧ (fspecOf 10).isSome = true ∧ (fspecOf 11).isSome = true ∧
    ((fspecOf 10).map (·.ieee) = some true ∧ (fspecOf 11).map (·.ieee) = some false) ∧ (fmtDecode 6 0x7FC0_0000).isNan = true := by
  refine ⟨⟨by norm_num, by norm_num⟩, ?_, ?_, ?_, ?_, ?_, ?_⟩ <;> decide +kernel

theorem witness_VectorFloat : (vSt 6 0 2 0x4000_0000 0x4080_0000).EReady 0 (.vfadd 18 17 8 0)
      ((vSt 6 0 2 0x4000_0000 0x4080_0000).opV 0 clsF [17, 8] 18) [] ∧
    ((vSt 6 0 2 0 0).sees 0 ((vSt 6 0 2 0 0).opV 0 clsF [17, 8] 18) []).quiet 0 (fun _ => 31) ∧
    (eSt 7 0 64).EReady 0 (.vfsqrt 16 17 0) ((eSt 7 0 64).opV 0 clsF [17] 16) [] :=
  ⟨eReady (by decide +kernel), quiet_of_fpen (by decide +kernel) 0 _, eReady (by decide +kernel)⟩

/-- R276: 2 + 4 is 6 in FP32, and no flag is raised. -/
theorem test_vfadd : ∃ t, exec (.vfadd 18 17 8 0) (vSt 6 0 1 0x4000_0000 0x4080_0000) = .next t ∧
    elemOf 32 (tgetD (t.hart 0).e.main 2 0).toNat 0 = 0x40C0_0000 ∧ (t.hart 0).e.fflags = 0 := ⟨_, rfl, by decide +kernel⟩

theorem witness_VectorThreeSource : (eSt 6 0 1).EReady 0 (.vfma 18 17 8 0) ((eSt 6 0 1).opT 0 clsF [17, 8] 18 1 32) [] ∧
    (eSt 7 0 1).EReady 0 (.vfmaw 18 17 8 0) ((eSt 7 0 1).opT 0 clsH [17, 8] 18 2 32) [] ∧
    (eSt 0 2 0).EReady 0 (.vsel 16 20 24 0) ((eSt 0 2 0).opT 0 clsA [20, 24] 16 4 8) [] ∧
    ((eSt 6 0 1).sees 0 ((eSt 6 0 1).opT 0 clsF [17, 8] 18 1 32) []).quiet 0 (fun _ => 31) ∧
    ((eSt 7 0 1).sees 0 ((eSt 7 0 1).opT 0 clsH [17, 8] 18 2 32) []).quiet 0 (fun _ => 31) :=
  ⟨eReady (by decide +kernel), eReady (by decide +kernel), eReady (by decide +kernel),
    quiet_of_fpen (by decide +kernel) 0 _, quiet_of_fpen (by decide +kernel) 0 _⟩

theorem witness_VectorConvertAndCompare :
    (eSt 6 0 1).EReady 0 (.vcvtRtz 18 17 4 0) { (eSt 6 0 1).opV 0 clsA [17] 18 with derived := [1], dst := .vec 18 1 32 } [] ∧
    (eSt 4 3 1).EReady 0 (.vcvtRne 16 24 0 0) { (eSt 4 3 1).opV 0 clsA [24] 16 with derived := [2], dst := .vec 16 2 8 } [] ∧
    ((eSt 6 0 1).sees 0 { (eSt 6 0 1).opV 0 clsA [17] 18 with derived := [1], dst := .vec 18 1 32 } []).quiet 0 (fun _ => 31) ∧
    (eSt 4 0 32).EReady 0 (.vclt 7 17 8 0) ((eSt 4 0 32).opM 0 clsI [17, 8] 7) [] ∧
    (eSt 6 0 32).EReady 0 (.vfceq 0 17 8 0) ((eSt 6 0 32).opM 0 clsF [17, 8] 0) [] ∧
    ((eSt 6 0 32).sees 0 ((eSt 6 0 32).opM 0 clsF [17, 8] 0) []).quiet 0 (fun _ => 16) :=
  ⟨eReady (by decide +kernel), eReady (by decide +kernel), quiet_of_fpen (by decide +kernel) 0 _, eReady (by decide +kernel),
    eReady (by decide +kernel), quiet_of_fpen (by decide +kernel) 0 _⟩

/-- R279: a signed compare of 8-bit elements, with the mask bit of element 1 set and that of element 0 clear. -/
theorem test_vclt : ∃ t, exec (.vclt 1 17 8 0) (vSt 0 0 2 0x8001 0x0101) = .next t ∧
    ((tgetD (t.hart 0).e.mask 1 0).getLsbD 0, (tgetD (t.hart 0).e.mask 1 0).getLsbD 1) = (false, true) :=
  ⟨_, rfl, by decide +kernel⟩

theorem witness_MasksAndPermutations : (eSt 0 3 1024).EReady 0 (.mand 7 0 1) (opMask 7) [] ∧
    (eSt 0 0 8).EReady 0 (.mpopc 4 1) ((eSt 0 0 8).opS 0 (some clsA) [] [] 4) [] ∧
    (eSt 0 0 8).EReady 0 (.mfirst 16 1) ((eSt 0 0 8).opS 0 (some clsA) [] [] 16) [] ∧
    ((eSt 0 0 128).cur = .eStream 0 ∧ (eSt 0 0 128).gateFail (.mtoq 3 1) = none ∧
      (eSt 0 0 128).limit = none ∧ ((eSt 0 0 128).hart 0).e.bad = [] ∧ (eSt 0 0 128).eChecks 0 { opMask 0 with dst := .none } = none ∧ ((eSt 0 0 128).hart 0).e.vstart = 0 ∧
      ((eSt 0 0 128).eaOf 0 3).length + ceilDiv ((eSt 0 0 128).hart 0).e.vl 64 ≤ 8) ∧
    (eSt 0 1 8).EReady 0 (.vslideup 16 18 8 0) { (eSt 0 1 8).opV 0 clsA [18, 8] 16 with vecs := [(18, 2), (8, 1)] } [] ∧
    (eSt 0 0 8).EReady 0 (.vcompress 0 17 7) { (eSt 0 0 8).opV 0 clsA [17] 0 with vecs := [(17, 1)] } [] ∧
    (eSt 0 0 8).EReady 0 (.vsplat 16 8 0) { (eSt 0 0 8).opV 0 clsA [8] 16 with vecs := [(8, 1)] } [] ∧
    (eSt 0 0 8).EReady 0 (.vmerge 16 17 18 1) ((eSt 0 0 8).opV 0 clsA [17, 18] 16) [] := by
  refine ⟨eReady ?_, eReady ?_, eReady ?_, ?_, eReady ?_, eReady ?_, eReady ?_, eReady ?_⟩ <;> decide +kernel

theorem witness_Reductions : (eSt 5 0 32).EReady 0 (.vredsum 16 17 0) ((eSt 5 0 32).opR 0 clsI 17 16) [] ∧
    (eSt 6 0 0).EReady 0 (.vfredosum 0 17 0) ((eSt 6 0 0).opR 0 clsF 17 0) [] ∧ ((eSt 6 0 0).hart 0).e.fpen = 0 ∧
    (eSt 5 1 64).EReady 0 (.vscan 16 18 1) ((eSt 5 1 64).opV 0 clsI [18] 16) [] :=
  ⟨eReady (by decide +kernel), eReady (by decide +kernel), by decide +kernel, eReady (by decide +kernel)⟩

/-- R284: the sum of the elements below VL, modulo 2^8. -/
theorem test_vredsum : ∃ t, exec (.vredsum 18 17 0) (vSt 1 0 3 0x0201FF 0) = .next t ∧
    elemOf 8 (tgetD (t.hart 0).e.main 2 0).toNat 0 = 2 := ⟨_, rfl, by decide +kernel⟩

end Sys2Proof.Tests
end

section
/-! The integer instructions (R229..R233): each operation of the model is the function that its row of intRow2 or intRow1
names, and an instruction that is ready completes with it. -/

namespace Sys2Proof.Machine

/-! The operations. -/

theorem add_eq_ofNat (x y : W64) : x + y = BitVec.ofNat 64 (x.toNat + y.toNat) := by
  rw [BitVec.ofNat_add, BitVec.ofNat_toNat, BitVec.ofNat_toNat, BitVec.setWidth_eq, BitVec.setWidth_eq]

theorem mul_eq_ofNat (x y : W64) : x * y = BitVec.ofNat 64 (x.toNat * y.toNat) := by
  rw [BitVec.ofNat_mul, BitVec.ofNat_toNat, BitVec.ofNat_toNat, BitVec.setWidth_eq, BitVec.setWidth_eq]

theorem add_eq_ofInt (x y : W64) : x + y = BitVec.ofInt 64 (x.toInt + y.toInt) := by
  rw [BitVec.ofInt_add, BitVec.ofInt_toInt, BitVec.ofInt_toInt]

theorem sub_eq_ofInt (x y : W64) : x - y = BitVec.ofInt 64 (x.toInt - y.toInt) := by
  apply BitVec.eq_of_toInt_eq
  rw [BitVec.toInt_sub, BitVec.toInt_ofInt]

theorem shiftLeft_eq_ofNat (x : W64) (n : Nat) : x <<< n = BitVec.ofNat 64 (x.toNat * 2 ^ n) := by
  apply BitVec.eq_of_toNat_eq
  rw [BitVec.toNat_shiftLeft, Nat.shiftLeft_eq, BitVec.toNat_ofNat]

theorem ushiftRight_eq_ofNat (x : W64) (n : Nat) : x >>> n = BitVec.ofNat 64 (x.toNat / 2 ^ n) := by
  rw [← Nat.shiftRight_eq_div_pow, ← BitVec.toNat_ushiftRight, BitVec.ofNat_toNat, BitVec.setWidth_eq]

theorem sshiftRight_eq_ofInt (x : W64) (n : Nat) : x.sshiftRight n = BitVec.ofInt 64 (x.toInt / ((2 ^ n : Nat) : Int)) := by
  rw [← Int.shiftRight_eq_div_pow, ← BitVec.toInt_sshiftRight, BitVec.ofInt_toInt]

theorem bit64_slt (x y : W64) : bit64 (x.slt y) = if x.toInt < y.toInt then 1 else 0 := by
  simp only [bit64, BitVec.slt, decide_eq_true_eq]

theorem bit64_ult (x y : W64) : bit64 (x.ult y) = if x.toNat < y.toNat then 1 else 0 := by
  simp only [bit64, BitVec.ult, decide_eq_true_eq]

theorem clBitN_toNat (x y : W64) : clBitN 64 x.toNat y.toNat = clBit x y := by
  have bit (k i : Nat) : (decide (i ≤ k) && decide (k - i < 64) && x.toNat.testBit i && y.toNat.testBit (k - i)) =
      (decide (i ≤ k) && x.getLsbD i && y.getLsbD (k - i)) := by
    rw [BitVec.testBit_toNat, BitVec.testBit_toNat]
    by_cases hk : k - i < 64
    · simp [hk]
    · simp [BitVec.getLsbD_of_ge y (k - i) (by omega)]
  funext k
  simp only [clBitN, clBit, bit]

theorem w64_mod (n : Nat) : w64 (n % 2 ^ 64) = w64 n := by
  apply BitVec.eq_of_toNat_eq
  rw [w64, w64, BitVec.toNat_ofNat, BitVec.toNat_ofNat, Nat.mod_mod]

/-- The low half of the carry-less product (R230). -/
theorem clmul_eq_ofBits (x y : W64) : w64 (clmulN 64 x.toNat y.toNat) = ofBits (clBit x y) := by
  rw [← w64_mod, clmul_low 64 _ _ x.isLt y.isLt, clBitN_toNat]
  rfl

/-- The high half of the carry-less product (R230). -/
theorem clmulh_eq_ofBits (x y : W64) :
    w64 (clmulN 64 x.toNat y.toNat / 2 ^ 64) = ofBits fun k => clBit x y (k + 64) := by
  rw [← w64_mod, clmul_high 64 _ _ x.isLt y.isLt, clBitN_toNat]
  rfl

theorem clz_eq_find (x : W64) :
    w64 (clzN 64 x.toNat) = BitVec.ofNat 64 (((List.range 64).find? fun k => x.getMsbD k).getD 64) := by
  have msb : ∀ k ∈ List.range 64, x.toNat.testBit (64 - 1 - k) = x.getMsbD k := by
    intro k hk
    rw [BitVec.testBit_toNat, BitVec.getMsbD, decide_eq_true (List.mem_range.1 hk), Bool.true_and]
  rw [clz_eq 64 _ (by omega) x.isLt, w64, List.find?_congr msb]

theorem ctz_eq_find (x : W64) :
    w64 (ctzN 64 x.toNat) = BitVec.ofNat 64 (((List.range 64).find? fun k => x.getLsbD k).getD 64) := rfl

theorem popCount_eq_filter (x : W64) :
    w64 (popCount 64 x.toNat) = BitVec.ofNat 64 ((List.range 64).filter fun k => x.getLsbD k).length := rfl

theorem toInt_imm12 (n : BitVec 12) : (imm12 n).toInt = n.toInt := BitVec.toInt_signExtend_of_le (by omega)

theorem add_imm12 (x : W64) (n : BitVec 12) : x + imm12 n = BitVec.ofInt 64 (x.toInt + n.toInt) := by
  rw [add_eq_ofInt, toInt_imm12]

theorem bit64_slt_imm12 (x : W64) (n : BitVec 12) :
    bit64 (x.slt (imm12 n)) = if x.toInt < n.toInt then 1 else 0 := by rw [bit64_slt, toInt_imm12]

theorem rol64_eq (x : W64) {n : Nat} (h : n < 64) : rol64 x n = x.rotateLeft n := by rw [rol64, Nat.mod_eq_of_lt h]
theorem ror64_eq (x : W64) {n : Nat} (h : n < 64) : ror64 x n = x.rotateRight n := by rw [ror64, Nat.mod_eq_of_lt h]

theorem sh6_lt (y : W64) : sh6 y < 64 := Nat.mod_lt _ (by omega)

/-- LIH's immediate (R233). -/
theorem lih_eq (n : BitVec 19) : n.signExtend 64 <<< 13 = BitVec.ofInt 64 (n.toInt * 2 ^ 13) := by
  rw [BitVec.shiftLeft_eq_mul_twoPow, BitVec.ofInt_mul]
  rfl

/-! Which shape each row has. -/

theorem legal_of_intRow2 {i : Instr} {a b c : RCode} {f : W64 → W64 → W64} (h : intRow2 i = some (a, b, c, f)) :
    i.streamClass = .aAll ∧ (FieldKind.aDst, a.toNat) ∈ i.fields := by
  unfold intRow2 at h
  split at h <;> cases h <;> exact ⟨rfl, List.mem_cons_self⟩

theorem legal_of_intRow1 {i : Instr} {a b : RCode} {f : W64 → W64} (h : intRow1 i = some (a, b, f)) :
    i.streamClass = .aAll ∧ (FieldKind.aDst, a.toNat) ∈ i.fields := by
  unfold intRow1 at h
  split at h <;> cases h <;> exact ⟨rfl, List.mem_cons_self⟩

/-- One line per two-source row: the model's operation equals the row's (R229, R230). -/
theorem exec_of_intRow2 {i : Instr} {a b c : RCode} {f : W64 → W64 → W64} (h : intRow2 i = some (a, b, c, f)) :
    ∃ g, (∀ s, exec i s = alu2 i a b c s g) ∧ ∀ x y, g x y = f x y := by
  unfold intRow2 at h
  split at h <;> cases h
  · exact ⟨_, fun s => exec_add s, add_eq_ofNat⟩
  · exact ⟨_, fun s => exec_sub s, sub_eq_ofInt⟩
  · exact ⟨_, fun s => exec_and s, fun _ _ => rfl⟩
  · exact ⟨_, fun s => exec_or s, fun _ _ => rfl⟩
  · exact ⟨_, fun s => exec_xor s, fun _ _ => rfl⟩
  · exact ⟨_, fun s => exec_andn s, fun _ _ => rfl⟩
  · exact ⟨_, fun s => exec_orn s, fun _ _ => rfl⟩
  · exact ⟨_, fun s => exec_xnor s, fun _ _ => rfl⟩
  · exact ⟨_, fun s => exec_sll s, fun x y => shiftLeft_eq_ofNat x (sh6 y)⟩
  · exact ⟨_, fun s => exec_srl s, fun x y => ushiftRight_eq_ofNat x (sh6 y)⟩
  · exact ⟨_, fun s => exec_sra s, fun x y => sshiftRight_eq_ofInt x (sh6 y)⟩
  · exact ⟨_, fun s => exec_rol s, fun x y => rol64_eq x (sh6_lt y)⟩
  · exact ⟨_, fun s => exec_ror s, fun x y => ror64_eq x (sh6_lt y)⟩
  · exact ⟨_, fun s => exec_slt s, bit64_slt⟩
  · exact ⟨_, fun s => exec_sltu s, bit64_ult⟩
  · exact ⟨_, fun s => exec_min s, bv_min⟩
  · exact ⟨_, fun s => exec_max s, bv_max⟩
  · exact ⟨_, fun s => exec_minu s, bv_minu⟩
  · exact ⟨_, fun s => exec_maxu s, bv_maxu⟩
  · exact ⟨_, fun s => exec_mul s, mul_eq_ofNat⟩
  · exact ⟨_, fun s => exec_mulh s, fun _ _ => rfl⟩
  · exact ⟨_, fun s => exec_mulhu s, fun _ _ => rfl⟩
  · exact ⟨_, fun s => exec_div s, fun _ _ => rfl⟩
  · exact ⟨_, fun s => exec_divu s, fun _ _ => rfl⟩
  · exact ⟨_, fun s => exec_rem s, fun _ _ => rfl⟩
  · exact ⟨_, fun s => exec_remu s, fun _ _ => rfl⟩
  · exact ⟨_, fun s => exec_clmul s, clmul_eq_ofBits⟩
  · exact ⟨_, fun s => exec_clmulh s, clmulh_eq_ofBits⟩

/-- One line per one-source row (R229, R231, R232). -/
theorem exec_of_intRow1 {i : Instr} {a b : RCode} {f : W64 → W64} (h : intRow1 i = some (a, b, f)) :
    ∃ g, (∀ s, exec i s = alu1 i a b s g) ∧ ∀ x, g x = f x := by
  unfold intRow1 at h
  split at h <;> cases h
  · exact ⟨_, fun s => exec_clz s, clz_eq_find⟩
  · exact ⟨_, fun s => exec_ctz s, ctz_eq_find⟩
  · exact ⟨_, fun s => exec_popc s, popCount_eq_filter⟩
  · exact ⟨_, fun s => exec_addi s, fun x => add_imm12 x _⟩
  · exact ⟨_, fun s => exec_andi s, fun _ => rfl⟩
  · exact ⟨_, fun s => exec_ori s, fun _ => rfl⟩
  · exact ⟨_, fun s => exec_xori s, fun _ => rfl⟩
  · exact ⟨_, fun s => exec_slti s, fun x => bit64_slt_imm12 x _⟩
  · exact ⟨_, fun s => exec_sltiu s, fun x => bit64_ult x _⟩
  · exact ⟨_, fun s => exec_slli s, fun x => shiftLeft_eq_ofNat x _⟩
  · exact ⟨_, fun s => exec_srli s, fun x => ushiftRight_eq_ofNat x _⟩
  · exact ⟨_, fun s => exec_srai s, fun x => sshiftRight_eq_ofInt x _⟩
  · exact ⟨_, fun s => exec_roli s, fun x => rol64_eq x (BitVec.isLt _)⟩
  · exact ⟨_, fun s => exec_rori s, fun x => ror64_eq x (BitVec.isLt _)⟩

theorem intRow2_done {i : Instr} {a b c : RCode} {f : W64 → W64 → W64} (h : intRow2 i = some (a, b, c, f)) (s : State)
    (hr : s.Ready i [b, c] [a]) : ∃ t, exec i s = .next t ∧ Done s t [b, c] a (f (s.src [b, c] 0) (s.src [b, c] 1)) := by
  obtain ⟨hcls, hdst⟩ := legal_of_intRow2 h
  obtain ⟨g, hexec, hg⟩ := exec_of_intRow2 h
  rw [hexec]
  exact alu2_done i a b c s g f hr hcls hdst hg

theorem intRow1_done {i : Instr} {a b : RCode} {f : W64 → W64} (h : intRow1 i = some (a, b, f)) (s : State)
    (hr : s.Ready i [b] [a]) : ∃ t, exec i s = .next t ∧ Done s t [b] a (f (s.src [b] 0)) := by
  obtain ⟨hcls, hdst⟩ := legal_of_intRow1 h
  obtain ⟨g, hexec, hg⟩ := exec_of_intRow1 h
  rw [hexec]
  exact alu1_done i a b s g f hr hcls hdst hg

theorem lih_done (a : RCode) (n : BitVec 19) (s : State) (hr : s.Ready (.lih a n) [] [a]) :
    ∃ t, exec (.lih a n) s = .next t ∧ Done s t [] a (BitVec.ofInt 64 (n.toInt * 2 ^ 13)) := by
  have he : s.cur.isE = false := isE_of_gate s _ hr.1 rfl
  have ha : a = 0 ∨ 4 ≤ a.toNat := dst_ok s _ a hr.1 he List.mem_cons_self
  rw [exec_lih, execLih, withA_next _ _ _ _ _ hr, lih_eq]
  exact ⟨_, rfl, aDone_done s [] [a] a _ he ha hr.2 (.inl List.mem_cons_self)⟩

/-! The words of majors 0x01 and 0x08 that are no instruction. -/

theorem decode_of_major01 {w : Word32} (hm : majorOf w = 0x01) : decode w = decode01 w := by simp only [decode, hm]

theorem decode_of_major08 {w : Word32} (hm : majorOf w = 0x08) : decode w = decode08 w := by simp only [decode, hm]

theorem checked_badField {n : Nat} {x : BitVec n} (hx : x ≠ 0) (i : Instr) : checked (x == 0) i = .badField i := by
  rw [checked, beq_false_of_ne hx, if_neg Bool.false_ne_true]

theorem decode01_fn31 {w : Word32} (hfn : (slice w 0 5).toNat = 31) : decode01 w = .noMinor := by simp only [decode01, hfn]

theorem decode01_unused {w : Word32} (hlo : 26 ≤ (slice w 0 5).toNat) (hhi : (slice w 0 5).toNat ≤ 28)
    (hu : slice w 5 7 ≠ 0) : ∃ i, decode01 w = .badField i := by
  obtain hfn | hfn | hfn : (slice w 0 5).toNat = 26 ∨ (slice w 0 5).toNat = 27 ∨ (slice w 0 5).toNat = 28 := by omega
  all_goals
    rw [decode01, hfn]
    exact ⟨_, checked_badField hu _⟩

theorem decode08_kind {w : Word32} (hk : 5 ≤ (slice w 9 3).toNat) : decode08 w = .noMinor := by
  have hlt : (slice w 9 3).toNat < 8 := (slice w 9 3).isLt
  obtain hk | hk | hk : (slice w 9 3).toNat = 5 ∨ (slice w 9 3).toNat = 6 ∨ (slice w 9 3).toNat = 7 := by omega
  all_goals simp only [decode08, hk]

theorem decode08_unused {w : Word32} (hk : (slice w 9 3).toNat < 5) (hu : slice w 6 3 ≠ 0) :
    ∃ i, decode08 w = .badField i := by
  obtain hk | hk | hk | hk | hk : (slice w 9 3).toNat = 0 ∨ (slice w 9 3).toNat = 1 ∨ (slice w 9 3).toNat = 2 ∨
      (slice w 9 3).toNat = 3 ∨ (slice w 9 3).toNat = 4 := by omega
  all_goals
    rw [decode08, hk]
    exact ⟨_, checked_badField hu _⟩

/-- Settles O8: every row is alu1 or alu2 with an operation equal to the row's, and both complete. -/
theorem integerArithmetic : Obligations.IntegerArithmetic := by
  refine ⟨fun i a b c f h s hr => intRow2_done h s hr, ⟨fun i a b f h s hr => intRow1_done h s hr, lih_done⟩, fun w => ?_⟩
  refine ⟨fun hm hfn => ?_, fun hm hlo hhi hu => ?_, fun hm hk => ?_, fun hm hk hu => ?_⟩
  · rw [decode_of_major01 hm, decode01_fn31 hfn]
  · rw [decode_of_major01 hm]
    exact decode01_unused hlo hhi hu
  · rw [decode_of_major08 hm, decode08_kind hk]
  · rw [decode_of_major08 hm]
    exact decode08_unused hk hu

end Sys2Proof.Machine
end

section
/-! Branches, J and JR (R239..R241): where each stream goes, what it pops and what it links. -/

namespace Sys2Proof.Machine

/-! What a branch or jump does to the executing stream. -/

theorem gate_of_pass (i : Instr) (s : State) (body : State → State) (hg : s.gateFail i = none) :
    gate i s body = .next (body s) := by rw [gate, hg]

theorem signExtend_mul_four {n : Nat} (o : BitVec n) : o.signExtend 64 * 4 = BitVec.ofInt 64 (4 * o.toInt) := by
  rw [Int.mul_comm, BitVec.ofInt_mul]
  rfl

theorem low2_eq_zero_iff (x : W64) : x.extractLsb' 0 2 = 0 ↔ x.toNat % 4 = 0 := by
  rw [← BitVec.toNat_inj, BitVec.extractLsb'_toNat, Nat.shiftRight_zero]
  rfl

theorem goto_eStream (s : State) (pc : W64) (h : Nat) (hc : s.cur = .eStream h) :
    s.goto pc = s.setHart h { s.hart h with
      e := { (s.hart h).e with pc := pc, wait := .none }
      a := { (s.hart h).a with instret := (s.hart h).a.instret + 1 } } := by
  simp only [State.goto, hc]
  rfl

/-- A hart whose E-stream has gone to pc and keeps nothing of its instruction (R149, R209). -/
def Hart.wentTo (v : Hart) (pc : W64) : Hart :=
  { v with
    e := { v.e.atBoundary v.e.vstart with pc := pc, wait := .none }
    a := { v.a with instret := v.a.instret + 1 } }

theorem sameE_wentTo (v : Hart) (q : Tab (List AEntry)) (pc : W64) :
    SameE v (Hart.wentTo { v with r := { v.r with ae := q } } pc) := rfl

/-- Outside an instruction VSTART stays as it is. -/
theorem vstart_wentTo {v : Hart} (hf : v.e.Fresh) (pc : W64) : (v.wentTo pc).e.vstart = v.e.vstart := by
  simp only [Hart.wentTo, ERegs.atBoundary, hf.vsw, vstartAfter]

/-- Leaving an instruction without a result, in the E-stream. -/
theorem dropKept_goto (s : State) (h : Nat) (pc : W64) (hc : s.cur = .eStream h) :
    (s.dropKept h).goto pc = s.setHart h ((s.hart h).wentTo pc) := by
  rw [goto_eStream _ pc h (by exact hc)]
  simp only [State.dropKept, State.modE, State.modHart, State.setHart_setHart, State.hart_setHart_self]
  rfl

/-! The rows of the branches. -/

theorem decode_of_major0D {w : Word32} (hm : majorOf w = 0x0D) : decode w = decode0D w := by simp only [decode, hm]

theorem decode0D_kind {w : Word32} (hk : 6 ≤ (slice w 9 3).toNat) : decode0D w = .noMinor := by
  have hlt : (slice w 9 3).toNat < 8 := (slice w 9 3).isLt
  obtain hk | hk : (slice w 9 3).toNat = 6 ∨ (slice w 9 3).toNat = 7 := by omega
  all_goals simp only [decode0D, hk]

theorem fields_of_branchRow {i : Instr} {b c : RCode} {o : BitVec 9} {p : W64 → W64 → Prop}
    (h : branchRow i = some (b, c, o, p)) : i.fields = [(.br, b.toNat), (.br, c.toNat)] := by
  unfold branchRow at h
  split at h <;> cases h <;> rfl

/-- One line per branch: the model's comparison decides the row's condition (R239). -/
theorem exec_of_branchRow {i : Instr} {b c : RCode} {o : BitVec 9} {p : W64 → W64 → Prop}
    (h : branchRow i = some (b, c, o, p)) :
    ∃ cond, (∀ s, exec i s = brOp i b c o s cond) ∧ ∀ x y, cond x y = true ↔ p x y := by
  unfold branchRow at h
  split at h <;> cases h
  · exact ⟨_, fun s => exec_beq s, fun _ _ => beq_iff_eq⟩
  · exact ⟨_, fun s => exec_bne s, fun _ _ => bne_iff_ne⟩
  · exact ⟨_, fun s => exec_blt s, fun _ _ => BitVec.slt_iff_toInt_lt⟩
  · exact ⟨_, fun s => exec_bge s, fun x y => by rw [Bool.not_eq_true', ← Bool.not_eq_true, BitVec.slt_iff_toInt_lt, Int.not_lt]⟩
  · exact ⟨_, fun s => exec_bltu s, fun _ _ => BitVec.ult_iff_toNat_lt⟩
  · exact ⟨_, fun s => exec_bgeu s, fun x y => by rw [Bool.not_eq_true', ← Bool.not_eq_true, BitVec.ult_iff_toNat_lt, Nat.not_lt]⟩

theorem accepts_of_gate {s : State} {i : Instr} {k : FieldKind} {n : Nat} (hg : s.gateFail i = none)
    (hm : (k, n) ∈ i.fields) : k.accepts s.cur.isE n = true :=
  List.all_eq_true.1 (fields_of_gate s i hg) _ hm

/-- A branch operand of an E-stream is z or a queue port (R239). -/
theorem br_operand {c : RCode} (h : FieldKind.br.accepts true c.toNat = true) : c = 0 ∨ 4 ≤ c.toNat ∧ c.toNat < 8 := by
  simp only [FieldKind.accepts, Bool.not_true, Bool.or_false, Bool.or_eq_true, beq_iff_eq, Bool.and_eq_true,
    decide_eq_true_eq] at h
  obtain h0 | ⟨hlo, hhi⟩ := h
  · exact .inl (BitVec.eq_of_toNat_eq h0)
  · exact .inr ⟨hlo, by omega⟩

/-- J writes no link in an E-stream (R240). -/
theorem link_eStream {a : RCode} (h : FieldKind.link.accepts true a.toNat = true) : a = 0 := by
  simp only [FieldKind.accepts, Bool.not_true, Bool.false_and, Bool.or_false, beq_iff_eq] at h
  exact BitVec.eq_of_toNat_eq h

theorem link_aStream {a : RCode} (h : FieldKind.link.accepts false a.toNat = true) : a = 0 ∨ 4 ≤ a.toNat := by
  simp only [FieldKind.accepts, Bool.not_false, Bool.true_and, Bool.or_eq_true, beq_iff_eq, decide_eq_true_eq] at h
  exact h.imp_left BitVec.eq_of_toNat_eq

theorem branch_operands {i : Instr} {b c : RCode} {o : BitVec 9} {p : W64 → W64 → Prop}
    (h : branchRow i = some (b, c, o, p)) {s : State} (he : s.cur.isE = true) (hg : s.gateFail i = none) {d : RCode}
    (hd : d = b ∨ d = c) : d = 0 ∨ 4 ≤ d.toNat ∧ d.toNat < 8 := by
  have hm : (FieldKind.br, d.toNat) ∈ i.fields := by
    rw [fields_of_branchRow h]
    obtain rfl | rfl := hd
    · exact List.mem_cons_self
    · exact List.mem_cons_of_mem _ List.mem_cons_self
  exact br_operand (he ▸ accepts_of_gate hg hm)

/-! Branches of the A-stream and the plate cores. -/

theorem brOp_of_not_eStream (i : Instr) (b c : RCode) (o : BitVec 9) (s : State) (cond : W64 → W64 → Bool)
    (hr : s.Ready i [b, c] []) (he : s.cur.isE = false) : brOp i b c o s cond =
      .next (if cond (s.src [b, c] 0) (s.src [b, c] 1) then (s.aPop [b, c]).goto (s.pcOf s.cur + o.signExtend 64 * 4)
        else s.aDone0 [b, c]) := by
  obtain ⟨hg, hq⟩ := hr
  have body : s.brA b c (o.signExtend 64) cond =
      if cond (s.src [b, c] 0) (s.src [b, c] 1) then (s.aPop [b, c]).goto (s.pcOf s.cur + o.signExtend 64 * 4)
        else s.aDone0 [b, c] := by
    rw [State.brA, State.aWhen, if_pos hq]
    rfl
  rw [brOp, gate_of_pass i s _ hg, ← body]
  cases hc : s.cur with
  | eStream h => rw [hc] at he; cases he
  | aStream h => rfl
  | plate n => rfl

theorem branch_taken {i : Instr} {b c : RCode} {o : BitVec 9} {p : W64 → W64 → Prop}
    (h : branchRow i = some (b, c, o, p)) (s : State) (hr : s.Ready i [b, c] []) (he : s.cur.isE = false)
    (hp : p (s.src [b, c] 0) (s.src [b, c] 1)) : ∃ t, exec i s = .next t ∧
      DoneAt s t [b, c] 0 0 (s.pcOf s.cur + BitVec.ofInt 64 (4 * o.toInt)) := by
  obtain ⟨cond, hexec, hcond⟩ := exec_of_branchRow h
  rw [hexec, brOp_of_not_eStream i b c o s cond hr he, if_pos ((hcond _ _).2 hp), signExtend_mul_four]
  exact ⟨_, rfl, doneAt s [b, c] [] 0 0 _ he (.inl rfl) hr.2 (.inr rfl)⟩

theorem branch_not_taken {i : Instr} {b c : RCode} {o : BitVec 9} {p : W64 → W64 → Prop}
    (h : branchRow i = some (b, c, o, p)) (s : State) (hr : s.Ready i [b, c] []) (he : s.cur.isE = false)
    (hp : ¬ p (s.src [b, c] 0) (s.src [b, c] 1)) : ∃ t, exec i s = .next t ∧ Done s t [b, c] 0 0 := by
  obtain ⟨cond, hexec, hcond⟩ := exec_of_branchRow h
  rw [hexec, brOp_of_not_eStream i b c o s cond hr he, if_neg (mt (hcond _ _).1 hp)]
  exact ⟨_, rfl, aDone0_done s [b, c] [] 0 he hr.2⟩

/-! Branches of an E-stream. -/

theorem isPort_of_range {c : RCode} (hc : 4 ≤ c.toNat ∧ c.toNat < 8) : isPort c = true := by
  rw [isPort, decide_eq_true hc.1, decide_eq_true (by omega), Bool.true_and]

theorem brVal_port {c : RCode} (hc : c = 0 ∨ 4 ≤ c.toNat ∧ c.toNat < 8) (h0 : c ≠ 0) (vals : List VReg) (k : Nat) :
    brVal c vals k = (vals.getD k 0).setWidth 64 := by
  rw [brVal, if_pos (isPort_of_range (hc.resolve_left h0))]

/-- How many entries a branch operand of an E-stream pops. -/
theorem pops_of_operand {b : RCode} (hb : b = 0 ∨ 4 ≤ b.toNat ∧ b.toNat < 8) :
    (if isPort b then 1 else 0) = if b = 0 then 0 else 1 := by
  obtain rfl | hb := hb
  · rfl
  · rw [if_pos (isPort_of_range hb), if_neg (by rintro rfl; simp at hb)]

/-- A branch whose queues hold its operands goes to its target or to the next instruction. -/
theorem brE_ready (s : State) (h : Nat) (b c : RCode) (off : W64) (cond : W64 → W64 → Bool) (vals : List VReg)
    (hc : s.cur = .eStream h) (hf : (s.hart h).e.Fresh) (hv : popsOf (s.hart h).r.ae [] [b, c] [] = .ready vals) :
    s.brE h b c off cond = s.setHart h (Hart.wentTo { s.hart h with r := (s.hart h).r.popE [b, c] }
      (if cond (brVal b vals 0) (brVal c vals (if isPort b then 1 else 0)) then (s.hart h).e.pc + off * 4
        else (s.hart h).e.pc + 4)) := by
  have hin : (s.hart h).e.inside = false := by rw [ERegs.inside, hf.kept, hf.prog]; rfl
  have hp : (s.hart h).pops [b, c] = .ready vals := by rw [Hart.pops, hin, hv]; rfl
  have hr : (s.hart h).popOnce [b, c] = (s.hart h).r.popE [b, c] := by rw [Hart.popOnce, hin]; rfl
  rw [State.brE]
  simp only [hp]
  rw [dropKept_goto _ h _ (by exact hc), State.hart_modHart_self, State.modHart, State.setHart_setHart, hr]

theorem brOp_eStream (i : Instr) (b c : RCode) (o : BitVec 9) (s : State) (cond : W64 → W64 → Bool) (h : Nat)
    (hc : s.cur = .eStream h) (hg : s.gateFail i = none) :
    brOp i b c o s cond = .next (s.brE h b c (o.signExtend 64) cond) := by
  rw [brOp, gate_of_pass i s _ hg, hc]

/-- A branch of an E-stream pops its queues and goes where the row's condition says (R239). -/
theorem branch_eStream {i : Instr} {b c : RCode} {o : BitVec 9} {p : W64 → W64 → Prop}
    (h : branchRow i = some (b, c, o, p)) (s : State) (n : Nat) (vals : List VReg) (hc : s.cur = .eStream n)
    (hg : s.gateFail i = none) (hf : (s.hart n).e.Fresh) (hv : popsOf (s.hart n).r.ae [] [b, c] [] = .ready vals) :
    ∃ pc, exec i s = .next (s.setHart n (Hart.wentTo { s.hart n with r := (s.hart n).r.popE [b, c] } pc)) ∧
      (p (brVal b vals 0) (brVal c vals (if b = 0 then 0 else 1)) →
        pc = (s.hart n).e.pc + BitVec.ofInt 64 (4 * o.toInt)) ∧
      (¬ p (brVal b vals 0) (brVal c vals (if b = 0 then 0 else 1)) → pc = (s.hart n).e.pc + 4) := by
  obtain ⟨cond, hexec, hcond⟩ := exec_of_branchRow h
  have hb := branch_operands h (by rw [hc]; rfl) hg (.inl rfl)
  rw [hexec, brOp_eStream i b c o s cond n hc hg, brE_ready s n b c _ cond vals hc hf hv, pops_of_operand hb,
    signExtend_mul_four]
  exact ⟨_, rfl, fun hp => if_pos ((hcond _ _).2 hp), fun hp => if_neg (mt (hcond _ _).1 hp)⟩

theorem aeOf_setHart_popE (s : State) (h : Nat) (srcs : List RCode) (pc : W64) (q : Nat) (hq : q < 4) :
    (s.setHart h (Hart.wentTo { s.hart h with r := (s.hart h).r.popE srcs } pc)).aeOf h q =
      (s.aeOf h q).drop (portCount q srcs) := by
  rw [State.aeOf, State.hart_setHart_self]
  exact tgetD_popAll _ (fun n => portCount n srcs) q hq

/-! J and JR. -/

theorem j_of_not_eStream (a : RCode) (o : BitVec 19) (s : State) (hr : s.Ready (.j a o) [] [a]) (he : s.cur.isE = false) :
    exec (.j a o) s = .next ((s.aPut a (s.pcOf s.cur + 4)).goto (s.pcOf s.cur + o.signExtend 64 * 4)) := by
  obtain ⟨hg, hq⟩ := hr
  have body : s.aWhen [] [a] (fun _ s' => (s'.aPut a (s.pcOf s.cur + 4)).goto (s.pcOf s.cur + o.signExtend 64 * 4)) =
      (s.aPut a (s.pcOf s.cur + 4)).goto (s.pcOf s.cur + o.signExtend 64 * 4) := by rw [State.aWhen, if_pos hq]
  rw [exec_j, execJ, gate_of_pass _ s _ hg, ← body]
  cases hc : s.cur with
  | eStream h => rw [hc] at he; cases he
  | aStream h => rfl
  | plate n => rfl

theorem j_eStream (a : RCode) (o : BitVec 19) (s : State) (h : Nat) (hc : s.cur = .eStream h)
    (hg : s.gateFail (.j a o) = none) : exec (.j a o) s =
      .next (s.setHart h ((s.hart h).wentTo ((s.hart h).e.pc + o.signExtend 64 * 4))) := by
  rw [exec_j, execJ, gate_of_pass _ s _ hg, ← dropKept_goto s h _ hc, hc]
  rfl

theorem j_done (a : RCode) (o : BitVec 19) (s : State) (hr : s.Ready (.j a o) [] [a]) (he : s.cur.isE = false) :
    ∃ t, exec (.j a o) s = .next t ∧
      DoneAt s t [] a (s.pcOf s.cur + 4) (s.pcOf s.cur + BitVec.ofInt 64 (4 * o.toInt)) := by
  have ha : a = 0 ∨ 4 ≤ a.toNat := link_aStream (he ▸ accepts_of_gate hr.1 List.mem_cons_self)
  rw [j_of_not_eStream a o s hr he, signExtend_mul_four]
  exact ⟨_, rfl, doneAt s [] [a] a _ _ he ha hr.2 (.inl List.mem_cons_self)⟩

theorem exec_jr_ready (a b : RCode) (n : BitVec 12) (s : State) (hr : s.Ready (.jr a b n) [b] [a]) :
    exec (.jr a b n) s = .next (if (s.src [b] 0 + imm12 n).extractLsb' 0 2 != 0 then s.raise .align (s.src [b] 0 + imm12 n)
      else ((s.aPop [b]).aPut a (s.pcOf s.cur + 4)).goto (s.src [b] 0 + imm12 n)) := by
  rw [exec_jr, execJr, withA_next _ _ _ _ _ hr]
  rfl

theorem jr_done (a b : RCode) (n : BitVec 12) (s : State) (hr : s.Ready (.jr a b n) [b] [a])
    (hal : (s.src [b] 0 + imm12 n).toNat % 4 = 0) : ∃ t, exec (.jr a b n) s = .next t ∧
      DoneAt s t [b] a (s.pcOf s.cur + 4) (s.src [b] 0 + imm12 n) := by
  have he : s.cur.isE = false := isE_of_gate s _ hr.1 rfl
  have ha : a = 0 ∨ 4 ≤ a.toNat := dst_ok s _ a hr.1 he List.mem_cons_self
  rw [exec_jr_ready a b n s hr, (low2_eq_zero_iff _).2 hal]
  exact ⟨_, rfl, doneAt s [b] [a] a _ _ he ha hr.2 (.inl List.mem_cons_self)⟩

theorem jr_align (a b : RCode) (n : BitVec 12) (s : State) (hr : s.Ready (.jr a b n) [b] [a])
    (hal : (s.src [b] 0 + imm12 n).toNat % 4 ≠ 0) :
    exec (.jr a b n) s = .next (s.raise .align (s.src [b] 0 + imm12 n)) := by
  rw [exec_jr_ready a b n s hr, if_pos (bne_iff_ne.2 (mt (low2_eq_zero_iff _).1 hal))]

/-- Settles O13: each branch and jump executes as its shape, and the shape's completion is the one that R239..R241 ask for. -/
theorem branchesAndJumps : Obligations.BranchesAndJumps := by
  refine ⟨⟨fun w hm hk => ?_, fun i b c o p h s he hg d hd => branch_operands h he hg hd, fun a o s he hg => ?_⟩,
    ⟨fun i b c o p h s hr he => ⟨branch_taken h s hr he, branch_not_taken h s hr he⟩,
      fun i b c o p h s n vals hc hg hf hv => ?_⟩,
    j_done, fun a o s n hc hg => ?_, fun a b n s hr => ⟨jr_done a b n s hr, jr_align a b n s hr⟩⟩
  · rw [decode_of_major0D hm, decode0D_kind hk]
  · exact link_eStream (he ▸ accepts_of_gate hg List.mem_cons_self)
  · obtain ⟨pc, hexec, htaken, hnot⟩ := branch_eStream h s n vals hc hg hf hv
    have he : s.cur.isE = true := by rw [hc]; rfl
    have hh : s.cur.hart? = some n := by rw [hc]; rfl
    have hb := branch_operands h he hg (.inl rfl)
    have hd := branch_operands h he hg (.inr rfl)
    refine ⟨_, brVal b vals 0, brVal c vals (if b = 0 then 0 else 1), hexec, sameElsewhere_setHart s n _ hh, ?_⟩
    rw [State.hart_setHart_self]
    exact ⟨sameE_wentTo _ _ _, by rintro rfl; rfl, by rintro rfl; rfl, fun h0 => brVal_port hb h0 _ _,
      fun h0 => brVal_port hd h0 _ _, htaken, hnot, rfl, fun q hq => aeOf_setHart_popE s n _ _ q hq,
      rfl, rfl, rfl, rfl, rfl, rfl, vstart_wentTo (v := { s.hart n with r := _ }) hf _⟩
  · have hh : s.cur.hart? = some n := by rw [hc]; rfl
    refine ⟨_, j_eStream a o s n hc hg, sameElsewhere_setHart s n _ hh, ?_⟩
    rw [State.hart_setHart_self, signExtend_mul_four]
    exact ⟨sameE_wentTo _ (s.hart n).r.ae _, rfl, rfl, rfl, rfl⟩

end Sys2Proof.Machine
end
